-- ==== Sys2Proof/Word.lean ====
section
/-! DEFINITION. Words and index ranges of the Pontara P624: bytes, slots, bays, rotors, tags, speed
classes and the other small named ranges that the operands of commands and the fields of State use. -/

namespace Sys2Proof

/-- One byte of table memory, of a blade-link message or of a status line. -/
abbrev Byte := BitVec 8

/-- A port-blade slot, 0 to 7 (00_scope Table 2-1). -/
abbrev Slot := Fin 8

/-- A power-supply bay, 0 to 3. -/
abbrev Bay := Fin 4

/-- A fan tray, 0 to 5; tray t carries rotors 2t and 2t + 1. -/
abbrev Tray := Fin 6

/-- A rotor, 0 to 11. -/
abbrev Rotor := Fin 12

/-- A fan zone: zone 0 serves slots 0 to 3, zone 1 serves slots 4 to 7. -/
abbrev FanZone := Fin 2

/-- One of the two physical zone banks (R1). -/
abbrev Bank := Fin 2

/-- A table bus tag, 0 to 15. -/
abbrev BusTag := Fin 16

/-- A fetch tag of a blade link, 0 to 3. -/
abbrev FetchTag := Fin 4

/-- An order tag of a blade link, 0 to 7. -/
abbrev OrderTag := Fin 8

/-- A token slot of the licence page, 0 to 7. -/
abbrev TokenIx := Fin 8

/-- A fabric port by slot and port index; its record number is slot × 48 + port (Section 5.2). -/
structure PortRef where
  slot : Slot
  port : Fin 48
  deriving DecidableEq, Repr

/-- The answer an engine gives to an order (R63, Table 11.1-1). -/
inductive OrderResult where
  | done
  | refused
  deriving DecidableEq, Repr

/-- The two licence features (R105). -/
inductive Feature where
  | portUnits
  | xdPorts
  deriving DecidableEq, Repr

/-- Bits that the DRAM devices have turned wrong in one 8-byte word of a line since the line was last
accessed: one more wrong bit, or two or more of them (R47, R49). -/
structure BitFlip where
  word   : Fin 8
  double : Bool
  deriving DecidableEq, Repr

/-- A nonvolatile floor cell of a feature, cell 0 or cell 1 (R121). -/
structure NvCellRef where
  feature : Feature
  cell    : Fin 2
  deriving DecidableEq, Repr

/-- What the chassis gives a power-on reset from outside: the DENSITY straps at the release of POR_N
(R47), whether a floor program the reset cut short had reached its cell, and the floor cells whose
check code does not match when they are read (R121). -/
structure PowerOn where
  density1      : Bool
  density0      : Bool
  programLanded : Bool
  badCells      : List NvCellRef
  deriving DecidableEq, Repr

end Sys2Proof
end

