-- ==== Sys2Proof/Syntax.lean ====
section
/-! DEFINITION. The commands of the P624: one constructor for each row of spec/opcode_table.json, with
the operands that come from outside the part (bus fields, message fields, line levels, and the outcomes
that the DRAM and the nonvolatile cells decide). -/

namespace Sys2Proof

/-- A step of the part. The table's rows carry no operand fields; an operand below is what arrives with
the event from outside the part. DESIGN CHOICE, log entry 76. -/
inductive Instr where
  /-- POWER_ON_RESET (R46): POR_N is asserted and released. -/
  | powerOnReset (p : PowerOn)
  /-- INITIALISATION_COMPLETE (R48). -/
  | initialisationComplete
  /-- WARM_RESET (R45): WARM_RST_N is asserted. -/
  | warmReset
  /-- WARM_RESET_RELEASE (R167). -/
  | warmResetRelease
  /-- READ (R35): a table bus READ with its tag, byte address and 3-bit length field. -/
  | read (tag : BusTag) (addr : BitVec 32) (len : BitVec 3)
  /-- WRITE (R34): a table bus WRITE; one data byte and one enable for each byte of its lines. -/
  | write (tag : BusTag) (addr : BitVec 32) (len : BitVec 3) (data : List Byte) (enables : List Bool)
  /-- READ_COMPLETE (R32). -/
  | readComplete
  /-- WRITE_COMPLETE (R32). -/
  | writeComplete
  /-- COMMIT (R12): the zone command word the TBP handed over carries COMMIT. -/
  | commit
  /-- ABORT (R26). -/
  | abort
  /-- ZONE_COMMAND_NONE (R11). -/
  | zoneCommandNone
  /-- ZONE_BAD_COMMAND (R11). -/
  | zoneBadCommand
  /-- VALIDATION_START (R13). -/
  | validationStart
  /-- VALIDATOR_READ_COMPLETE (R14). -/
  | validatorReadComplete
  /-- ACK_TIMEOUT (R20). -/
  | ackTimeout
  /-- RESYNC_COPY_COMPLETE (R23). -/
  | resyncCopyComplete
  /-- GRANT (R56); `flips` are the wrong bits the granted access finds in the line it reads. -/
  | grant (flips : List BitFlip)
  /-- REFRESH_DUE (R59). -/
  | refreshDue
  /-- IDLE_TIMEOUT (R60). -/
  | idleTimeout
  /-- SELF_REFRESH_ENTRY (R61). -/
  | selfRefreshEntry
  /-- SELF_REFRESH_EXIT (R62). -/
  | selfRefreshExit
  /-- PATROL_TICK (R55). -/
  | patrolTick
  /-- PATROL_READ_COMPLETE (R55). -/
  | patrolReadComplete
  /-- DEFERRED_SCRUB_COMPLETE (R51). -/
  | deferredScrubComplete
  /-- REPORT_PERIOD_END (R54). -/
  | reportPeriodEnd
  /-- SWQ_ENTRY_COMPLETE (R40). -/
  | swqEntryComplete
  /-- SWQ_PLACE_GRANT (R42). -/
  | swqPlaceGrant
  /-- HELLO (R66): header slot and tag, and the body's revision, slot, port count and base draw. -/
  | hello (link : Slot) (hdrSlot hdrTag rev bodySlot ports : Byte) (baseDraw : BitVec 16)
  /-- FETCH (R73). -/
  | fetch (link : Slot) (tag : FetchTag) (first : BitVec 16) (count : Byte)
  /-- FETCH_COMPLETION (R75). -/
  | fetchCompletion
  /-- STATUS (R82): inlet and hotspot, signed degrees. -/
  | status (link : Slot) (inlet hotspot : Byte)
  /-- PORT_NOTE (R83): header tag, port and optic class. -/
  | portNote (link : Slot) (hdrTag port opticClass : Byte)
  /-- ORDER_ACK (R79): the header's tag and the result. -/
  | orderAck (link : Slot) (tag : Byte) (result : OrderResult)
  /-- EPOCH_ACK (R81). -/
  | epochAck (link : Slot) (epoch : BitVec 32)
  /-- RESET (R68): an engine's RESET message. -/
  | reset (link : Slot)
  /-- TRANSMISSION_COMPLETE (R72). -/
  | transmissionComplete (link : Slot)
  /-- HELLO_WAIT_EXPIRY (R67). -/
  | helloWaitExpiry (link : Slot)
  /-- KEEPALIVE_EXPIRY (R68). -/
  | keepaliveExpiry (link : Slot)
  /-- ORDER_DEADLINE (R80): the deadline of the outstanding order at a tag. -/
  | orderDeadline (link : Slot) (tag : OrderTag)
  /-- LOST_HOLDOFF_EXPIRY (R71). -/
  | lostHoldoffExpiry (link : Slot)
  /-- BLADE_INSERTED (R85): PRESENT rises. -/
  | bladeInserted (slot : Slot)
  /-- BLADE_REMOVED (R91): PRESENT falls. -/
  | bladeRemoved (slot : Slot)
  /-- DEBOUNCE_EXPIRY (R85). -/
  | debounceExpiry (slot : Slot)
  /-- LINK_ERROR_COUNT_WRITE (R104). -/
  | linkErrorCountWrite (slot : Slot)
  /-- PORT_REQUEST_ON (R94). -/
  | portRequestOn
  /-- PORT_REQUEST_OFF (R94). -/
  | portRequestOff
  /-- PORT_REQUEST_INVALID (R93). -/
  | portRequestInvalid
  /-- SUBMIT (R114). -/
  | submit
  /-- SUBMIT_NONE (R114). -/
  | submitNone
  /-- TOKEN_CHECK_START (R115). -/
  | tokenCheckStart
  /-- TOKEN_READ_COMPLETE (R117). -/
  | tokenReadComplete
  /-- NV_PROGRAM_COMPLETE (R120); whether the cell read back as written. -/
  | nvProgramComplete (verified : Bool)
  /-- PSU_INSERTED (R125): PRESENT rises. -/
  | psuInserted (bay : Bay)
  /-- PSU_REMOVED (R125): PRESENT falls. -/
  | psuRemoved (bay : Bay)
  /-- SETTLE_EXPIRY (R125); the levels of the two capacity-code lines at that moment. -/
  | settleExpiry (bay : Bay) (code : BitVec 2)
  /-- POWER_GOOD_RISE (R126). -/
  | powerGoodRise (bay : Bay)
  /-- POWER_GOOD_FALL (R126). -/
  | powerGoodFall (bay : Bay)
  /-- AC_OK_RISE (R126). -/
  | acOkRise (bay : Bay)
  /-- AC_OK_FALL (R126). -/
  | acOkFall (bay : Bay)
  /-- LOW_LINE_CHANGE (R131); the level LOW_LINE now has. -/
  | lowLineChange (bay : Bay) (level : Bool)
  /-- GRACE_EXPIRY (R127). -/
  | graceExpiry (bay : Bay)
  /-- RESTORE_HOLDOFF_EXPIRY (R142). -/
  | restoreHoldoffExpiry
  /-- TACH_PULSE (R146). -/
  | tachPulse (rotor : Rotor)
  /-- MEASUREMENT_WINDOW_END (R146). -/
  | measurementWindowEnd
  /-- TRAY_INSERTED (R147). -/
  | trayInserted (tray : Tray)
  /-- TRAY_REMOVED (R147). -/
  | trayRemoved (tray : Tray)
  /-- SPINUP_EXPIRY (R148). -/
  | spinupExpiry (rotor : Rotor)
  /-- FRESHNESS_EXPIRY (R153). -/
  | freshnessExpiry (slot : Slot)
  /-- RECORD_WRITE (R162). -/
  | recordWrite
  /-- EVENT_PUBLISH (R162). -/
  | eventPublish
  /-- CONSUMER_INDEX_WRITE (R163). -/
  | consumerIndexWrite
  /-- COALESCING_TIMER_EXPIRY (R166). -/
  | coalescingTimerExpiry
  /-- UPTIME_TICK (R172). -/
  | uptimeTick
  /-- ARM (R168). -/
  | arm
  /-- POLICY_COMMAND_NONE (R168). -/
  | policyCommandNone
  /-- POLICY_BAD_COMMAND (R168). -/
  | policyBadCommand
  /-- ENTER_ARMED (R170). -/
  | enterArmed
  /-- INVALID_MESSAGE (R63): the bytes of a message as received, header, body and CRC, valid or not. -/
  | invalidMessage (link : Slot) (raw : List Byte)
  deriving DecidableEq, Repr

end Sys2Proof
end

