-- ==== Sys2Proof/Decode.lean ====
section
/-! DEFINITION. The command that a word of the opcode table spells: the table of this block gives no row
any bits (commands arrive as bus requests, link messages, line edges and timer expiries), so no word spells one. -/

namespace Sys2Proof

/-- The command a table word spells: none, for want of bits. DESIGN CHOICE, log entry 4. -/
def decodeTableWord (_nbits _w : Nat) : Option Instr := none

end Sys2Proof
end

