-- ==== Sys2Proof/Config.lean ====
section
/-! DEFINITION. What one part is made with and the manual gives no value for: the device serial and
the two halves of the device key (R116). They are opaque: a claim about the part holds for every
value of them. -/

namespace Sys2Proof

/-- The 64-bit device serial that the part reports in its status page (R116, R172). -/
opaque Config.deviceSerial : BitVec 64

/-- The half K0 of the device key, held inside the part (R116). -/
opaque Config.deviceKey0 : BitVec 64

/-- The half K1 of the device key, held inside the part (R116). -/
opaque Config.deviceKey1 : BitVec 64

end Sys2Proof
end

