-- ==== Sys2Proof/Machine/State.lean ====
section
/-! DEFINITION. The state of the P624 as plain data: the pins, table memory and its controller, the table
bus port, the status write queue, and one record for each of the units ZIU, BLC, PAU, LU, PBU, FTU, EVU and
PLU; the queue of waiting commands; the reasons a step can stop; and the state right after power-on reset. -/

namespace Sys2Proof.Machine

/-- Reasons a step stops with a fault. -/
inductive Fault where
  /-- Raised by GRANT when the granted access names a line beyond the table memory the DENSITY straps
  select (R31, R47). Safe: no such access is ever presented (R31 answers RANGE, R169 refuses the layout). -/
  | outsideTableMemory
  deriving DecidableEq, Repr

/-- Reasons a command is refused. -/
inductive Refusal where
  /-- A row of the command table that has no meaning in the model; no arm of `exec` answers it. Safe. -/
  | notModelled (mnemonic : String)
  deriving DecidableEq, Repr

/-! ### Outside lines -/

/-- The input pins (Table 11.8-1) at their present levels; `true` is asserted. WARM_RST_N is held as
`warm`, true while it is asserted (low). -/
structure Pins where
  warm         : Bool
  density1     : Bool
  density0     : Bool
  bladePresent : Vector Bool 8
  psuPresent   : Vector Bool 4
  powerGood    : Vector Bool 4
  acOk         : Vector Bool 4
  lowLine      : Vector Bool 4
  capacity     : Vector (BitVec 2) 4
  trayPresent  : Vector Bool 6
  deriving DecidableEq, Repr

/-! ### Table memory (Chapter 3) -/

/-- Table memory as a list of cells, addresses strictly rising, no cell holding the 0 that an unlisted
address reads as (R48). DEDUCED, log entry 9. -/
abbrev Memory := List Host.Cell

/-- The condition of one 8-byte word in the DRAM (R47, R49, R52). DESIGN CHOICE, log entry 12. -/
inductive WordMark where
  | clean
  | oneWrong
  | twoWrong
  | poison
  deriving DecidableEq, Repr

/-- The two line ranges of an access, and what it is for (Table 3.4-1). -/
inductive AccessKind where
  /-- The line read `index` of the fetch that holds a tag of a link. -/
  | fetch (slot : Slot) (tag : FetchTag) (index : Nat)
  /-- A read begun for a fetch that has been abandoned since (R76). -/
  | abandoned (bank : Bank)
  /-- Line `index` of the bus read with that job number. -/
  | busRead (job index : Nat)
  /-- Line `index` of a bus write: the enabled bytes, and, for a copy-first merge, the live line. -/
  | busWrite (job index : Nat) (bytes : List (Option Byte)) (merge : Option Nat)
  /-- The SWQ's head entry. -/
  | swqHead
  /-- A read of the validator's run of that number. -/
  | validator (run : Nat)
  /-- The LU's read of a token slot's line. -/
  | token (slot : TokenIx)
  /-- The resync engine's copy of a bank line from the live bank. -/
  | resync (bankLine live : Nat)
  /-- A deferred scrub of a bank line. -/
  | deferredScrub (bank : Bank) (bankLine : Nat)
  /-- The patrol scrub's read. -/
  | patrol
  deriving DecidableEq, Repr

/-- An access presented to the arbiter: what it is for and the physical line it reads or writes. -/
structure Access where
  kind : AccessKind
  line : Nat
  deriving DecidableEq, Repr

/-- The granted access the channel is carrying out, with what its read gave. -/
structure InProgress where
  access        : Access
  data          : List Byte
  uncorrectable : Bool
  deriving DecidableEq, Repr

/-- A table bus request handed to the TMC: the lines read so far, the stage writes in flight it counts for, and the
bank lines whose merge copies failed. `tag` is none once a warm reset has dropped it (R45). -/
structure BusJob where
  id         : Nat
  tag        : Option BusTag
  isWrite    : Bool
  got        : List (List Byte)
  poisoned   : Bool
  stageWrites : Nat
  mergeErrors : List Nat
  deriving DecidableEq, Repr

/-- An error counter with the byte offsets of the first and last line counted in the period (R54). -/
structure ErrorCounter where
  count : Nat
  first : Nat
  last  : Nat
  deriving DecidableEq, Repr

/-- The TMC's power states (Section 3.5). -/
inductive PowerState where
  | active
  | powerDown
  | selfRefresh
  deriving DecidableEq, Repr

/-- The places of the internal class rotation (R57, R115). -/
inductive InternalPlace where
  | swq
  | validator
  | resync
  deriving DecidableEq, Repr

/-- The Table Memory Controller. -/
structure Tmc where
  initDone      : Bool
  density       : Fin 4
  mem           : Memory
  marks         : List (Nat × WordMark)
  power         : PowerState
  exiting       : Bool
  holdTold      : Bool
  debt          : Nat
  refreshAt     : Option Nat
  idleAt        : Option Nat
  presented     : List Access
  parked        : List Access
  inProgress    : Option InProgress
  jobs          : List BusJob
  nextJob       : Nat
  tbpWait       : Nat
  internalWait  : Nat
  lastSlot      : Slot
  lastInternal  : InternalPlace
  tokenNext     : Bool
  deferred      : List (Bank × Nat)
  patrolLine    : Nat
  patrolAt      : Option Nat
  patrolHeld    : Bool
  corrected     : ErrorCounter
  uncorrectable : ErrorCounter
  poisonedWrite : ErrorCounter
  reportAt      : Option Nat
  deriving DecidableEq, Repr

/-! ### Table Bus Port (Chapter 2) -/

/-- Table bus statuses in code order (Table 11.1-1). -/
inductive BusStatus where
  | ok
  | retry
  | denied
  | poison
  | range
  deriving DecidableEq, Repr

/-- A response: its status and, for a READ answered OK, the data of its lines in ascending order. -/
structure BusResponse where
  status : BusStatus
  data   : List (List Byte)
  deriving DecidableEq, Repr

/-- The request that occupies a tag slot. -/
structure BusRequest where
  isWrite : Bool
  addr    : Nat
  lines   : Nat
  deriving DecidableEq, Repr

/-- A tag slot (R29): the outstanding request, and the response last sent for the tag since its latest
request was accepted. -/
structure TagSlot where
  outstanding : Option BusRequest
  response    : Option BusResponse
  deriving DecidableEq, Repr

/-- The watched words (Table 2.3-1). -/
inductive WatchedWord where
  | policyControl
  | zoneCommand
  | portRequest (p : PortRef)
  | tokenSubmit (k : TokenIx)
  | consumerIndex
  deriving DecidableEq, Repr

/-- A completed watched word handed to its owner, with the value written (R38). -/
structure Handed where
  word  : WatchedWord
  value : BitVec 64
  deriving DecidableEq, Repr

/-- A READ held behind SWQ entries for its lines (R44): the physical lines, and the entries awaited. -/
structure HeldRead where
  tag    : BusTag
  lines  : List Nat
  awaits : List Nat
  deriving DecidableEq, Repr

/-- A WRITE that waits for the resync copy of one of its lines (R23). -/
structure HeldWrite where
  tag     : BusTag
  addr    : Nat
  lines   : Nat
  data    : List Byte
  enables : List Bool
  deriving DecidableEq, Repr

/-- The Table Bus Port. -/
structure Tbp where
  slots          : Vector TagSlot 16
  policyShadow   : BitVec 64
  zoneShadow     : BitVec 64
  portShadow     : Vector (Vector (BitVec 64) 48) 8
  submitShadow   : Vector (BitVec 64) 8
  consumerShadow : BitVec 64
  handed         : List Handed
  heldReads      : List HeldRead
  heldWrites     : List HeldWrite
  deriving DecidableEq, Repr

/-! ### Events and the Status Write Queue -/

/-- The units with status writes, in the cyclic order of R42. -/
inductive UnitId where
  | ziu
  | pau
  | lu
  | pbu
  | ftu
  | evu
  | plu
  deriving DecidableEq, Repr

inductive Severity where
  | info
  | warn
  | critical
  deriving DecidableEq, Repr

inductive EventKind where
  | psu
  | fan
  | blade
  | port
  | budget
  | zone
  | license
  | memory
  | link
  | busProtocol
  | ringLost
  deriving DecidableEq, Repr

/-- An event as a unit hands it to the EVU (R160): the data words are 48 bits each. -/
structure Event where
  kind     : EventKind
  severity : Severity
  source   : Nat
  code     : Nat
  word0    : Nat
  word1    : Nat
  word2    : Nat
  deriving DecidableEq, Repr

/-- An event in the intake, with the sequence and timestamp it took (R160). -/
structure Stamped where
  seq   : Nat
  time  : Nat
  event : Event
  deriving DecidableEq, Repr

/-- What a status write covers. The bytes are taken from the state when the SWQ takes the write (R42). -/
inductive StatusItem where
  | controlLine
  | portRecord (p : PortRef)
  | bladeFigures (slot : Slot)
  | bladeErrors (slot : Slot)
  | tokenSlot (k : TokenIx)
  | licenceSummary
  | licenceFigures
  | budgetFigures
  | psuRecord (bay : Bay)
  | budgetTunables
  | rotorRecord (r : Rotor)
  | trayState (t : Tray)
  | lostFigures
  | zoneDuties
  | bladeThermal (slot : Slot)
  | partState
  | partIdentity
  | uptime
  | frozenLayout
  | policyTunables
  | layoutBack (line : Fin 2)
  | zeroFill (index : Nat)
  | eventRecord (slot : Nat) (record : List Byte)
  | ringHeader
  deriving DecidableEq, Repr

/-- A line entry of the SWQ (R40): the line, its masked bytes, whether it has been issued, and which
drain reports wait for it (R43). -/
structure SwqEntry where
  id      : Nat
  line    : Nat
  bytes   : List (Option Byte)
  issued  : Bool
  evuMark : Bool
  pluMark : Bool
  deriving DecidableEq, Repr

/-- What waits in a unit: a status write for a place in the SWQ, or an event behind such a write (R42). -/
inductive WaitItem where
  | write (item : StatusItem)
  | event (e : Event)
  deriving DecidableEq, Repr

/-- The Status Write Queue, with the writes and events that wait in the units. -/
structure Swq where
  entries    : List SwqEntry
  nextId     : Nat
  waiting    : Vector (List WaitItem) 7
  lastServed : UnitId
  deriving DecidableEq, Repr

/-! ### Zone Image Unit (Chapter 1) -/

inductive ZoneState where
  | idle
  | validating
  | awaitAck
  | resyncing
  deriving DecidableEq, Repr

/-- The commit results in the order of Table 1.3-1. -/
inductive CommitResult where
  | none
  | pending
  | noChange
  | heldLines
  | epochLimit
  | badCommand
  | busy
  | count
  | directory
  | duplicate
  | range
  | overlap
  | member
  | memoryError
  | stageChanged
  | aborted
  | abortedByReset
  | committed
  | committedWithErrors
  deriving DecidableEq, Repr

/-- The state of a dirty map entry (R7); `errorHeld` is RESYNC with a copy that has failed (R24). -/
inductive LineState where
  | clean
  | staged
  | resync
  | errorHeld
  deriving DecidableEq, Repr

/-- A directory entry as read (Table 11.3-2). -/
structure DirEntry where
  zoneId : Nat
  start  : Nat
  count  : Nat
  deriving DecidableEq, Repr

/-- The validator during VALIDATING: its run number, whether it has presented its first read, the bank
line it is reading, the directory entries read so far, and, in the member pass, the entry whose range it
reads. -/
structure Validator where
  run     : Nat
  started : Bool
  line    : Nat
  entries : List DirEntry
  range   : Option Nat
  deriving DecidableEq, Repr

/-- The Zone Image Unit. `started` is the sequence of the command that started the operation in progress (R25),
`aborting` that it is an ABORT, `copying` the bank line whose resync copy has been asked for. -/
structure Ziu where
  swap        : Bool
  epoch       : Nat
  dirty       : List (Nat × LineState)
  zone        : ZoneState
  result      : CommitResult
  detail      : Nat
  accepted    : Nat
  liveZones   : Nat
  liveMembers : Nat
  seen        : Nat
  declared    : Nat
  aborting    : Bool
  started     : Nat
  ackSet      : List Slot
  ackAt       : Option Nat
  inFlight    : Vector Nat 2
  stageWrites : Nat
  resyncPos   : Nat
  copying     : Option Nat
  validator   : Option Validator
  runs        : Nat
  deriving DecidableEq, Repr

/-! ### Blade Link Controller (Chapter 4) -/

/-- The link states; a wait for HELLO is a first wait or a return wait (R65, R71). -/
inductive LinkState where
  | down
  | firstWait
  | returnWait
  | up
  | lost
  deriving DecidableEq, Repr

inductive OrderAction where
  | enable
  | disable
  | reconfig
  deriving DecidableEq, Repr

/-- A speed class, 1 to 4 (Table 6.1-1). -/
inductive SpeedClass where
  | class1
  | class2
  | class3
  | class4
  deriving DecidableEq, Repr

/-- A speed class and XD flag, as requested or as granted (R92). -/
structure PortConfig where
  speed : SpeedClass
  xd    : Bool
  deriving DecidableEq, Repr

/-- An order for a fabric engine (R77). -/
structure Order where
  port   : Fin 48
  action : OrderAction
  config : PortConfig
  deriving DecidableEq, Repr

inductive FetchStatus where
  | ok
  | overrun
  | range
  | notReady
  | hold
  | memory
  deriving DecidableEq, Repr

/-- A FETCH_DATA message (R75). -/
structure FetchData where
  tag    : FetchTag
  epoch  : Nat
  status : FetchStatus
  lines  : List (List Byte)
  deriving DecidableEq, Repr

/-- A fetch that occupies its tag. `bound` is its bank and epoch (R21) until it completes, none for a fetch
answered without lines and after completion. -/
structure FetchSlot where
  first  : Nat
  count  : Nat
  bound  : Option (Bank × Nat)
  got    : List (List Byte)
  failed : Bool
  deriving DecidableEq, Repr

/-- An outstanding order; its deadline runs once its transmission has finished (R78). -/
structure OutOrder where
  order    : Order
  deadline : Option Nat
  deriving DecidableEq, Repr

/-- A message from the part to an engine (Table 4.1-1). -/
inductive PartMessage where
  | welcome (epoch : Nat)
  | fetchData (d : FetchData)
  | order (tag : OrderTag) (o : Order)
  | epoch (epoch : Nat)
  deriving DecidableEq, Repr

/-- The message in transmission; `live` is false once the link has left UP under it (R72). -/
structure Sending where
  message : PartMessage
  live    : Bool
  deriving DecidableEq, Repr

/-- One blade link. -/
structure Link where
  state     : LinkState
  helloAt   : Option Nat
  keepAt    : Option Nat
  holdoffAt : Option Nat
  portCount : Option Nat
  fetches   : Vector (Option FetchSlot) 4
  ready     : List FetchData
  queue     : List Order
  orders    : Vector (Option OutOrder) 8
  notice    : Option Nat
  welcome   : Option Nat
  dataRun   : Nat
  sending   : Option Sending
  losses    : List Nat
  errors    : Nat
  deriving DecidableEq, Repr

/-! ### Port Admission Unit (Chapter 5) -/

inductive BladeState where
  | absent
  | settling
  | waitPower
  | powering
  | up
  | lost
  | faulted
  deriving DecidableEq, Repr

inductive BladeCause where
  | none
  | keepalive
  | engineReset
  | orderTimeout
  | epochTimeout
  | noHello
  | helloTimeout
  | repeatedLoss
  | removed
  deriving DecidableEq, Repr

/-- A blade record (R84). `errorsAt` is the end of the second in which the link error count changed. -/
structure Blade where
  state      : BladeState
  debounceAt : Option Nat
  debounced  : Bool
  portCount  : Option Nat
  base       : Nat
  cause      : BladeCause
  powerEn    : Bool
  errorsAt   : Option Nat
  deriving DecidableEq, Repr

inductive PortState where
  | offline
  | waitLicense
  | waitPower
  | goingUp
  | online
  | goingDown
  | shed
  deriving DecidableEq, Repr

inductive PortCause where
  | none
  | request
  | power
  | thermal
  | feRefused
  | bladeDown
  | badRequest
  | noXdLicense
  | speedHeld
  | noSuchPort
  deriving DecidableEq, Repr

inductive Leaving where
  | clear
  | power
  | thermal
  deriving DecidableEq, Repr

/-- A fabric port record (R92). The units held and the draw charged are computed from the granted
configuration, the state, the optic class and the tunables in use. -/
structure Port where
  state    : PortState
  cause    : PortCause
  leaving  : Leaving
  desired  : Bool
  request  : Option PortConfig
  priority : Fin 8
  granted  : Option PortConfig
  optic    : Option (Fin 4)
  lastSeq  : Nat
  deriving DecidableEq, Repr

/-- The Port Admission Unit: eight blade records and eight times 48 port records. -/
structure Pau where
  blades : Vector Blade 8
  ports  : Vector (Vector Port 48) 8
  deriving DecidableEq, Repr

/-! ### License Unit (Chapter 6) -/

inductive TokenState where
  | empty
  | queued
  | checking
  | programming
  | done
  deriving DecidableEq, Repr

inductive TokenResult where
  | none
  | badFeature
  | badSerial
  | badCheck
  | stale
  | alreadyApplied
  | inUse
  | memoryError
  | reinstated
  | applied
  | nvFault
  | busy
  deriving DecidableEq, Repr

/-- A nonvolatile floor cell: its value and whether its check code passes (R121). -/
structure NvCell where
  value : Nat
  valid : Bool
  deriving DecidableEq, Repr

/-- What the LU keeps for a feature (R105, R119, R121). Holdings are summed over the ports. -/
structure FeatureState where
  entitlement : Nat
  floor       : Nat
  reinstated  : Bool
  floorFault  : Bool
  cells       : Vector NvCell 2
  deriving DecidableEq, Repr

/-- An entry of a licence queue (R108). -/
structure LicenceEntry where
  port  : Fin 48
  units : Nat
  deriving DecidableEq, Repr

/-- A token slot (R113, R114). `current` is the submit sequence of the submission in progress. -/
structure TokenSlot where
  state     : TokenState
  result    : TokenResult
  detail    : Nat
  resultSeq : Nat
  busySeq   : Nat
  feature   : Nat
  units     : Nat
  tokenSeq  : Nat
  seen      : Nat
  current   : Nat
  deriving DecidableEq, Repr

/-- A floor program in progress (R120). -/
structure Program where
  slot    : TokenIx
  feature : Feature
  units   : Nat
  seq     : Nat
  doneAt  : Nat
  deriving DecidableEq, Repr

/-- The License Unit. DEDUCED, log entry 74. -/
structure Lu where
  portUnits : FeatureState
  xdPorts   : FeatureState
  reserves  : Vector Nat 8
  queues    : Vector (List LicenceEntry) 8
  counters  : Vector Int 8
  slots     : Vector TokenSlot 8
  fifo      : List TokenIx
  program   : Option Program
  deriving DecidableEq, Repr

/-! ### Power Budget Unit (Chapter 7) -/

inductive PsuState where
  | empty
  | settling
  | online
  | inputLost
  | faulted
  | unpowered
  deriving DecidableEq, Repr

/-- A PSU record (R124). The level of LOW_LINE is the pin's; U_i and the counted mark are computed. -/
structure Psu where
  state    : PsuState
  settleAt : Option Nat
  graceAt  : Option Nat
  expired  : Bool
  capacity : Option Nat
  deriving DecidableEq, Repr

/-- An entry of the power wait list (R137). -/
structure PowerWait where
  port     : PortRef
  priority : Fin 8
  number   : Nat
  deriving DecidableEq, Repr

/-- The Power Budget Unit. P, S, T and A are the figures of the last computation (frozen in HOLD). -/
structure Pbu where
  psus           : Vector Psu 4
  supply         : Nat
  reserved       : Nat
  ceiling        : Nat
  available      : Nat
  derate         : Nat
  redundancyLost : Bool
  powerCritical  : Bool
  hold           : Bool
  waitList       : List PowerWait
  nextEntry      : Nat
  holdoffAt      : Option Nat
  restorePending : Bool
  deriving DecidableEq, Repr

/-! ### Fan and Thermal Unit (Chapter 8) -/

inductive RotorState where
  | absent
  | spinup
  | ok
  | slow
  | stalled
  deriving DecidableEq, Repr

/-- A rotor record (R147): `count` is the running count of the window, `lastCount` the last window's. -/
structure RotorRec where
  state     : RotorState
  spinupAt  : Option Nat
  count     : Nat
  lastCount : Nat
  speed     : Nat
  expected  : Nat
  low       : Nat
  zero      : Nat
  good      : Nat
  running   : Nat
  deriving DecidableEq, Repr

inductive TrayState where
  | ok
  | degraded
  | failed
  deriving DecidableEq, Repr

inductive ThermalState where
  | normal
  | warm
  | hot
  deriving DecidableEq, Repr

/-- A blade thermal record (R153). `stale` marks breakpoints changed while the temperature was not fresh
(R156), `wasFresh` that it has been fresh since the blade last entered ABSENT (R155). -/
structure BladeTemp where
  inlet     : Option Int
  hotspot   : Option Int
  taken     : Nat
  freshAt   : Option Nat
  fresh     : Bool
  wasFresh  : Bool
  input     : Int
  thermal   : ThermalState
  latches   : Vector Bool 4
  stale     : Vector Bool 4
  demand    : Nat
  deriving DecidableEq, Repr

/-- A fan zone: target and driven duty, and the lowest duty driven in the present window (R146). -/
structure FanZoneRec where
  target : Nat
  driven : Nat
  lowest : Nat
  deriving DecidableEq, Repr

/-- The Fan and Thermal Unit. -/
structure Ftu where
  windowAt : Nat
  rotors   : Vector RotorRec 12
  trays    : Vector TrayState 6
  lost     : Nat
  derate   : Nat
  temps    : Vector BladeTemp 8
  zones    : Vector FanZoneRec 2
  deriving DecidableEq, Repr

/-! ### Event Unit (Chapter 9) -/

/-- A RING_LOST event created and not yet written (R164). -/
structure RingLost where
  seq       : Nat
  time      : Nat
  beforeArm : Bool
  deriving DecidableEq, Repr

/-- Where the writing of a record stands (R162); the severity is the record's. -/
inductive WritePhase where
  | idle
  | placing (sev : Severity)
  | draining (sev : Severity)
  | drained (sev : Severity)
  deriving DecidableEq, Repr

/-- The Event Unit. `sequence` is the event sequence last given. -/
structure Evu where
  intake     : List Stamped
  sequence   : Nat
  pending    : Nat
  lostTotal  : Nat
  ringLost   : Option RingLost
  phase      : WritePhase
  producer   : Nat
  consumer   : Nat
  asserted   : Bool
  coalesceAt : Option Nat
  deriving DecidableEq, Repr

/-! ### Policy Unit (Chapter 10) -/

inductive PartState where
  | unconfigured
  | arming
  | armed
  | armFailed
  deriving DecidableEq, Repr

inductive ArmResult where
  | none
  | inProgress
  | busy
  | alreadyArmed
  | badCommand
  | armed
  | badCapacity
  | misaligned
  | outsideMemory
  | overlap
  deriving DecidableEq, Repr

/-- The frozen layout (R168); bases are byte offsets. -/
structure Layout where
  stage    : Nat
  live     : Nat
  ports    : Nat
  licence  : Nat
  ring     : Nat
  capCode  : Nat
  reserves : Vector Nat 8
  deriving DecidableEq, Repr

inductive Redundancy where
  | none
  | nPlus1
  | grid
  deriving DecidableEq, Repr

/-- A breakpoint of the fan curve (R156). -/
structure Breakpoint where
  temp : Int
  duty : Nat
  deriving DecidableEq, Repr

/-- The values in use of the tunables (Table 10.4-1). -/
structure Tunables where
  redundancy  : Redundancy
  reserve     : Nat
  thermalBase : Nat
  derate      : Vector Nat 5
  speedDraw   : Vector Nat 4
  xdDraw      : Nat
  margin      : Nat
  holdoff     : Nat
  grace       : Nat
  curve       : Vector Breakpoint 4
  minDuty     : Nat
  warn        : Int
  crit        : Int
  inletOffset : Nat
  ratedSpeed  : Nat
  coCount     : Nat
  coTime      : Nat
  defaultBase : Nat
  weights     : Vector Nat 8
  deriving DecidableEq, Repr

/-- Where the zero-fill of arming stands (R169). -/
inductive FillPhase where
  | idle
  | filling
  | draining
  | drained
  deriving DecidableEq, Repr

/-- The Policy Unit. `copy` holds the bytes of policy lines 0 to 31 that the PLU keeps, by offset; `started` is the
sequence of the ARM that began the arming in progress. -/
structure Plu where
  part     : PartState
  seen     : Nat
  result   : ArmResult
  detail   : Nat
  armSeq   : Nat
  started  : Nat
  layout   : Option Layout
  copy     : Memory
  inUse    : Tunables
  fill     : FillPhase
  uptime   : Nat
  uptimeAt : Nat
  deriving DecidableEq, Repr

/-! ### The whole part -/

/-- The state of the P624. `now` counts periods of the 100 MHz reference clock since the release of POR_N;
`pending` is the queue of commands that wait, first in first out. -/
structure State where
  pending : List Instr
  now     : Nat
  pins    : Pins
  tmc     : Tmc
  tbp     : Tbp
  swq     : Swq
  ziu     : Ziu
  blc     : Vector Link 8
  pau     : Pau
  lu      : Lu
  pbu     : Pbu
  ftu     : Ftu
  evu     : Evu
  plu     : Plu
  deriving DecidableEq, Repr

/-! ### The values of each record at power-on reset -/

/-- All input lines deasserted: an unconnected discrete line reads so (Section 11.8). DESIGN CHOICE, log entry 5. -/
def Pins.quiet : Pins where
  warm := false
  density1 := false
  density0 := false
  bladePresent := Vector.replicate 8 false
  psuPresent := Vector.replicate 4 false
  powerGood := Vector.replicate 4 false
  acOk := Vector.replicate 4 false
  lowLine := Vector.replicate 4 false
  capacity := Vector.replicate 4 0#2
  trayPresent := Vector.replicate 6 false

def ErrorCounter.zero : ErrorCounter := ⟨0, 0, 0⟩

/-- The TMC while it initialises after the release of POR_N (R48, Table 3.5-1). The refresh interval
runs from the start of the clear (R59). DESIGN CHOICE, log entry 75. -/
def Tmc.initialising (density : Fin 4) : Tmc where
  initDone := false
  density := density
  mem := []
  marks := []
  power := .active
  exiting := false
  holdTold := false
  debt := 0
  refreshAt := some 780
  idleAt := none
  presented := []
  parked := []
  inProgress := none
  jobs := []
  nextJob := 0
  tbpWait := 0
  internalWait := 0
  lastSlot := 0
  lastInternal := .swq
  tokenNext := false
  deferred := []
  patrolLine := 0
  patrolAt := none
  patrolHeld := false
  corrected := .zero
  uncorrectable := .zero
  poisonedWrite := .zero
  reportAt := none

/-- The TBP at power-on reset (R39, R46). -/
def Tbp.reset : Tbp where
  slots := Vector.replicate 16 ⟨none, none⟩
  policyShadow := 0#64
  zoneShadow := 0#64
  portShadow := Vector.replicate 8 (Vector.replicate 48 0#64)
  submitShadow := Vector.replicate 8 0#64
  consumerShadow := 0#64
  handed := []
  heldReads := []
  heldWrites := []

/-- The SWQ at power-on reset: empty, the PLU last served (R40, R42). -/
def Swq.reset : Swq where
  entries := []
  nextId := 0
  waiting := Vector.replicate 7 []
  lastServed := .plu

/-- The ZIU at power-on reset (R2, R3, R7, R11, R18, R22, R27). DESIGN CHOICE, log entry 32. -/
def Ziu.reset : Ziu where
  swap := false
  epoch := 0
  dirty := []
  zone := .idle
  result := .none
  detail := 0
  accepted := 0
  liveZones := 0
  liveMembers := 0
  seen := 0
  declared := 0
  aborting := false
  started := 0
  ackSet := []
  ackAt := none
  inFlight := Vector.replicate 2 0
  stageWrites := 0
  resyncPos := 1
  copying := none
  validator := none
  runs := 0

/-- A link that is DOWN with nothing in it (R64, R65). -/
def Link.reset : Link where
  state := .down
  helloAt := none
  keepAt := none
  holdoffAt := none
  portCount := none
  fetches := Vector.replicate 4 none
  ready := []
  queue := []
  orders := Vector.replicate 8 none
  notice := none
  welcome := none
  dataRun := 0
  sending := none
  losses := []
  errors := 0

/-- An ABSENT blade at power-on reset (R84). -/
def Blade.reset : Blade where
  state := .absent
  debounceAt := none
  debounced := false
  portCount := none
  base := 0
  cause := .none
  powerEn := false
  errorsAt := none

/-- A port at power-on reset and at entry to ARMED (R92). -/
def Port.reset : Port where
  state := .offline
  cause := .none
  leaving := .clear
  desired := false
  request := none
  priority := 0
  granted := none
  optic := none
  lastSeq := 0

def Pau.reset : Pau where
  blades := Vector.replicate 8 .reset
  ports := Vector.replicate 8 (Vector.replicate 48 .reset)

/-- A feature of a new part at power-on reset: both floor cells hold 0 (R121, R123). -/
def FeatureState.newPart : FeatureState where
  entitlement := 0
  floor := 0
  reinstated := false
  floorFault := false
  cells := Vector.replicate 2 ⟨0, true⟩

/-- An EMPTY token slot (R113, R114). -/
def TokenSlot.reset : TokenSlot where
  state := .empty
  result := .none
  detail := 0
  resultSeq := 0
  busySeq := 0
  feature := 0
  units := 0
  tokenSeq := 0
  seen := 0
  current := 0

def Lu.reset : Lu where
  portUnits := .newPart
  xdPorts := .newPart
  reserves := Vector.replicate 8 0
  queues := Vector.replicate 8 []
  counters := Vector.replicate 8 0
  slots := Vector.replicate 8 .reset
  fifo := []
  program := none

def Psu.reset : Psu where
  state := .empty
  settleAt := none
  graceAt := none
  expired := false
  capacity := none

/-- The PBU at power-on reset with every bay EMPTY and the lost rotors of an empty chassis: P, S and A are
0 and T is floor(1,000,000 × 50 / 100) (R132, R133, R151, Table 7.7-2). -/
def Pbu.reset : Pbu where
  psus := Vector.replicate 4 .reset
  supply := 0
  reserved := 0
  ceiling := 500000
  available := 0
  derate := 50
  redundancyLost := false
  powerCritical := false
  hold := false
  waitList := []
  nextEntry := 0
  holdoffAt := none
  restorePending := false

def RotorRec.reset : RotorRec where
  state := .absent
  spinupAt := none
  count := 0
  lastCount := 0
  speed := 0
  expected := 0
  low := 0
  zero := 0
  good := 0
  running := 0

/-- A blade thermal record at power-on reset and after removal (R153). -/
def BladeTemp.reset : BladeTemp where
  inlet := none
  hotspot := none
  taken := 0
  freshAt := none
  fresh := false
  wasFresh := false
  input := -40
  thermal := .normal
  latches := Vector.replicate 4 false
  stale := Vector.replicate 4 false
  demand := 0

/-- The FTU at power-on reset with no tray seated (Table 8.6-1): the first window ends 1 s after the
release of POR_N. -/
def Ftu.reset : Ftu where
  windowAt := 100000000
  rotors := Vector.replicate 12 .reset
  trays := Vector.replicate 6 .failed
  lost := 12
  derate := 50
  temps := Vector.replicate 8 .reset
  zones := Vector.replicate 2 ⟨100, 100, 100⟩

def Evu.reset : Evu where
  intake := []
  sequence := 0
  pending := 0
  lostTotal := 0
  ringLost := none
  phase := .idle
  producer := 0
  consumer := 0
  asserted := false
  coalesceAt := none

/-- The defaults of the tunables (Table 10.4-1). -/
def Tunables.default : Tunables where
  redundancy := .nPlus1
  reserve := 0
  thermalBase := 1000000
  derate := #v[100, 95, 85, 70, 50]
  speedDraw := #v[20, 25, 30, 40]
  xdDraw := 50
  margin := 20
  holdoff := 5
  grace := 20
  curve := #v[⟨30, 30⟩, ⟨40, 45⟩, ⟨50, 70⟩, ⟨60, 100⟩]
  minDuty := 30
  warn := 55
  crit := 70
  inletOffset := 10
  ratedSpeed := 12000
  coCount := 8
  coTime := 1000
  defaultBase := 3500
  weights := Vector.replicate 8 1

/-- The bytes of the tunable copy that hold the defaults, at their offsets in the policy block
(Table 11.2-2, line 2 at offset 128). DESIGN CHOICE, log entry 101. -/
def Tunables.defaultCopy : Memory :=
  [(128, 0x01#8), (132, 0x40#8), (133, 0x42#8), (134, 0x0F#8),
   (136, 100#8), (137, 95#8), (138, 85#8), (139, 70#8), (140, 50#8),
   (144, 20#8), (146, 25#8), (148, 30#8), (150, 40#8), (152, 50#8), (154, 20#8),
   (156, 5#8), (157, 20#8), (158, 0xAC#8), (159, 0x0D#8),
   (160, 30#8), (161, 30#8), (162, 40#8), (163, 45#8), (164, 50#8), (165, 70#8), (166, 60#8), (167, 100#8),
   (168, 30#8), (169, 55#8), (170, 70#8), (171, 10#8), (172, 0xE0#8), (173, 0x2E#8), (174, 8#8),
   (176, 0xE8#8), (177, 0x03#8),
   (178, 1#8), (179, 1#8), (180, 1#8), (181, 1#8), (182, 1#8), (183, 1#8), (184, 1#8), (185, 1#8)]

/-- The PLU at power-on reset (R168, R171, R173). DESIGN CHOICE, log entry 96. -/
def Plu.reset : Plu where
  part := .unconfigured
  seen := 0
  result := .none
  detail := 0
  armSeq := 0
  started := 0
  layout := none
  copy := Tunables.defaultCopy
  inUse := .default
  fill := .idle
  uptime := 0
  uptimeAt := 100000000

/-- The part right after the release of POR_N: every unit at its power-on values, table memory being
cleared and ready deasserted (R46, R48), both DENSITY straps low, and nothing seated in the chassis. The
six trays found FAILED have each raised an event, which the EVU has dropped and counted (R150, R152, R164). -/
def State.reset : State where
  pending := []
  now := 0
  pins := .quiet
  tmc := .initialising 0
  tbp := .reset
  swq := .reset
  ziu := .reset
  blc := Vector.replicate 8 .reset
  pau := .reset
  lu := .reset
  pbu := .reset
  ftu := .reset
  evu := { Evu.reset with pending := 6, lostTotal := 6 }
  plu := .reset

end Sys2Proof.Machine
end

