-- ==== Sys2Proof/Machine/Ops.lean ====
section
/-! DEFINITION. The shared operations below every unit: sparse tables in canonical form, tables of fixed
size, little-endian bytes, the clock and its timers, the setters of State, and the work record in which a
command gathers its changed state, the events it raises and the processes it makes due. -/

namespace Sys2Proof.Machine

/-! ### Sparse tables

A sparse table is a list of (key, value) pairs with keys strictly rising and no entry equal to the default
that an unlisted key reads as. Table memory (default 0, R48), the word marks (default clean), the dirty map
(default CLEAN, R7) and the PLU's copy (default 0) are such tables. -/

/-- The value at a key. -/
def sparseGet {α : Type} (d : α) : List (Nat × α) → Nat → α
  | [], _ => d
  | (k, v) :: rest, i => if k = i then v else sparseGet d rest i

/-- Put a value in place, keeping the keys rising; the default is never listed. -/
def sparsePut {α : Type} [DecidableEq α] (d : α) (i : Nat) (x : α) : List (Nat × α) → List (Nat × α)
  | [] => if x = d then [] else [(i, x)]
  | (k, v) :: rest =>
    if i < k then (if x = d then (k, v) :: rest else (i, x) :: (k, v) :: rest)
    else if k = i then (if x = d then rest else (i, x) :: rest)
    else (k, v) :: sparsePut d i x rest

/-- The canonical form above a key: every key is at least `lo`, keys rise and no value is the default. -/
def sparseWfFrom {α : Type} [DecidableEq α] (d : α) : Nat → List (Nat × α) → Bool
  | _, [] => true
  | lo, (k, v) :: rest => decide (lo ≤ k) && decide (v ≠ d) && sparseWfFrom d (k + 1) rest

/-- The canonical form of a sparse table. -/
def sparseWf {α : Type} [DecidableEq α] (d : α) (m : List (Nat × α)) : Bool := sparseWfFrom d 0 m

/-! ### Table memory bytes -/

/-- The byte of table memory at an address: 0 where nothing is listed, as the clear leaves it (R48). -/
def Memory.read (m : Memory) (a : Nat) : Byte := sparseGet 0#8 m a

/-- Write one byte of table memory. -/
def Memory.write (m : Memory) (a : Nat) (b : Byte) : Memory := sparsePut 0#8 a b m

/-- Table memory is in its canonical form. -/
def Memory.wf (m : Memory) : Bool := sparseWf 0#8 m

/-- The `n` bytes from an address. -/
def Memory.readBytes (m : Memory) (a : Nat) : Nat → List Byte
  | 0 => []
  | n + 1 => m.read a :: Memory.readBytes m (a + 1) n

/-- Write the enabled bytes of a masked write, the first at an address. -/
def Memory.writeMasked (m : Memory) (a : Nat) : List (Option Byte) → Memory
  | [] => m
  | some b :: rest => Memory.writeMasked (m.write a b) (a + 1) rest
  | none :: rest => Memory.writeMasked m (a + 1) rest

/-! ### Little-endian fields (R174) -/

/-- The low byte of a number. -/
def byteOf (n : Nat) : Byte := BitVec.ofNat 8 n

/-- A number as `w` bytes, least significant first. -/
def leBytes : (w n : Nat) → List Byte
  | 0, _ => []
  | w + 1, n => byteOf n :: leBytes w (n / 256)

/-- The unsigned number in bytes, least significant first. -/
def leNat : List Byte → Nat
  | [] => 0
  | b :: rest => b.toNat + 256 * leNat rest

/-- The two's complement of a signed figure in `bits` bits (R165, R174). -/
def twos (bits : Nat) (i : Int) : Nat := (i % (2 ^ bits : Int)).toNat

/-- A byte read as a signed figure. -/
def signedByte (b : Byte) : Int := b.toInt

/-- Figures packed from the least significant end, each in its width in bits (Section 11.5). -/
def packFigures : List (Nat × Nat) → Nat
  | [] => 0
  | (w, v) :: rest => v % 2 ^ w + 2 ^ w * packFigures rest

/-- A line-sized mask with nothing enabled. -/
def emptyMask : List (Option Byte) := List.replicate 64 none

/-- Place the given bytes, all enabled, at an offset of an empty mask of one line. -/
def maskAt (offset : Nat) (bytes : List Byte) : List (Option Byte) :=
  List.replicate offset none ++ bytes.map some ++ List.replicate (64 - offset - bytes.length) none

/-- Overlay a mask by a newer one: a byte the newer enables is taken from it (R41). -/
def overlay (old new : List (Option Byte)) : List (Option Byte) :=
  List.zipWith (fun o n => n.orElse (fun _ => o)) old new

/-! ### Tables of fixed size -/

/-- Replace one element of a table. -/
def Vector.put {α : Type} {n : Nat} (v : Vector α n) (i : Fin n) (x : α) : Vector α n := v.set i.1 x i.2

/-- All indices below `k`, ascending, ahead of `acc`. -/
def indicesFrom (n : Nat) : (k : Nat) → k ≤ n → List (Fin n) → List (Fin n)
  | 0, _, acc => acc
  | k + 1, h, acc => indicesFrom n k (Nat.le_of_succ_le h) (⟨k, h⟩ :: acc)

/-- All indices of a table of size `n`, ascending. -/
def indices (n : Nat) : List (Fin n) := indicesFrom n n (Nat.le_refl n) []

/-- Apply a change to every element of a table, with its index. -/
def Vector.mapIx {α : Type} {n : Nat} (v : Vector α n) (f : Fin n → α → α) : Vector α n :=
  (indices n).foldl (fun acc i => Vector.put acc i (f i (acc.get i))) v

/-! ### The clock

`now` counts periods of the 100 MHz reference clock (Table 11.8-1), so a microsecond is 100 of them. A
timer is the time at which it runs out, or none while it is stopped. -/

/-- `n` microseconds in clock periods. -/
def usec (n : Nat) : Nat := 100 * n

/-- `n` milliseconds in clock periods. -/
def msec (n : Nat) : Nat := usec (1000 * n)

/-- `n` seconds in clock periods. -/
def sec (n : Nat) : Nat := usec (1000000 * n)

/-- A timer has run out. DESIGN CHOICE, log entry 3. -/
def ranOut (timer : Option Nat) (now : Nat) : Bool :=
  match timer with
  | some t => decide (t ≤ now)
  | none => false

/-- The 48-bit microsecond timestamp (R160). -/
def State.timestamp (s : State) : Nat := s.now / 100 % 2 ^ 48

/-! ### Setters of State -/

def State.setPins (s : State) (x : Pins) : State := { s with pins := x }
def State.setTmc (s : State) (x : Tmc) : State := { s with tmc := x }
def State.setTbp (s : State) (x : Tbp) : State := { s with tbp := x }
def State.setSwq (s : State) (x : Swq) : State := { s with swq := x }
def State.setZiu (s : State) (x : Ziu) : State := { s with ziu := x }
def State.setBlc (s : State) (x : Vector Link 8) : State := { s with blc := x }
def State.setPau (s : State) (x : Pau) : State := { s with pau := x }
def State.setLu (s : State) (x : Lu) : State := { s with lu := x }
def State.setPbu (s : State) (x : Pbu) : State := { s with pbu := x }
def State.setFtu (s : State) (x : Ftu) : State := { s with ftu := x }
def State.setEvu (s : State) (x : Evu) : State := { s with evu := x }
def State.setPlu (s : State) (x : Plu) : State := { s with plu := x }

/-- The link of a slot. -/
def State.link (s : State) (b : Slot) : Link := s.blc.get b

/-- Replace the link of a slot. -/
def State.setLink (s : State) (b : Slot) (l : Link) : State := s.setBlc (Vector.put s.blc b l)

/-- The blade record of a slot. -/
def State.blade (s : State) (b : Slot) : Blade := s.pau.blades.get b

/-- Replace the blade record of a slot. -/
def State.setBlade (s : State) (b : Slot) (x : Blade) : State :=
  s.setPau { s.pau with blades := Vector.put s.pau.blades b x }

/-- The record of a fabric port. -/
def State.port (s : State) (p : PortRef) : Port := (s.pau.ports.get p.slot).get p.port

/-- Replace the record of a fabric port. -/
def State.setPort (s : State) (p : PortRef) (x : Port) : State :=
  s.setPau { s.pau with ports := Vector.put s.pau.ports p.slot (Vector.put (s.pau.ports.get p.slot) p.port x) }

/-- The record number of a fabric port (Section 5.2). -/
def portNumber (p : PortRef) : Nat := p.slot.1 * 48 + p.port.1

/-- The part is ARMED. -/
def State.armed (s : State) : Bool := decide (s.plu.part = .armed)

/-- The table bus ready line (R29): deasserted until DRAM initialisation is complete and while WARM_RST_N is
asserted. -/
def State.ready (s : State) : Bool := s.tmc.initDone && !s.pins.warm

/-- The ATTN line (R167). -/
def State.attn (s : State) : Bool := s.evu.asserted && !s.pins.warm

/-! ### The work of one command -/

/-- An event raised within a command: the unit whose status writes it stands behind, if any (R42). -/
structure Raised where
  owner : Option UnitId
  event : Event
  deriving DecidableEq, Repr

/-- What one command has done so far: the state, the events raised in order, the status items to be
written whether or not their figures changed, and whether a grant round (R109) and the restore process
(R142) have become due. -/
structure Work where
  st         : State
  events     : List Raised
  rewrites   : List StatusItem
  grantDue   : Bool
  restoreDue : Bool
  deriving DecidableEq, Repr

/-- The work of a command before it has done anything. -/
def Work.start (s : State) : Work := ⟨s, [], [], false, false⟩

/-- Change the state of the work. -/
def Work.map (w : Work) (f : State → State) : Work := { w with st := f w.st }

/-- Raise an event of a unit with status writes. -/
def Work.raise (w : Work) (u : UnitId) (e : Event) : Work := { w with events := w.events ++ [⟨some u, e⟩] }

/-- Raise an event of a unit without status writes (TBP, TMC, BLC). -/
def Work.raiseDirect (w : Work) (e : Event) : Work := { w with events := w.events ++ [⟨none, e⟩] }

/-- Have status items written even when their figures have not changed. -/
def Work.rewrite (w : Work) (items : List StatusItem) : Work := { w with rewrites := w.rewrites ++ items }

def Work.dueGrant (w : Work) : Work := { w with grantDue := true }
def Work.dueRestore (w : Work) : Work := { w with restoreDue := true }

/-- Do `f` when the condition holds. -/
def Work.when (w : Work) (c : Bool) (f : Work → Work) : Work := if c then f w else w

end Sys2Proof.Machine
end

