-- ==== Sys2Proof/Machine/Codes.lean ====
section
/-! DEFINITION. The codes of the enumerated fields: the position of a value in its list of Table 11.1-1,
counting from 0, and the unit costs and classes that Tables 6.1-1 and 11.3-3 give. -/

namespace Sys2Proof.Machine

/-- The code of a BusStatus (Table 11.1-1). -/
def BusStatus.code : BusStatus → Nat
  | .ok => 0
  | .retry => 1
  | .denied => 2
  | .poison => 3
  | .range => 4

/-- The code of a Severity (Table 11.1-1). -/
def Severity.code : Severity → Nat
  | .info => 0
  | .warn => 1
  | .critical => 2

/-- The code of a EventKind (Table 11.1-1). -/
def EventKind.code : EventKind → Nat
  | .psu => 0
  | .fan => 1
  | .blade => 2
  | .port => 3
  | .budget => 4
  | .zone => 5
  | .license => 6
  | .memory => 7
  | .link => 8
  | .busProtocol => 9
  | .ringLost => 10

/-- The code of a ZoneState (Table 11.1-1). -/
def ZoneState.code : ZoneState → Nat
  | .idle => 0
  | .validating => 1
  | .awaitAck => 2
  | .resyncing => 3

/-- The code of a CommitResult (Table 11.1-1). -/
def CommitResult.code : CommitResult → Nat
  | .none => 0
  | .pending => 1
  | .noChange => 2
  | .heldLines => 3
  | .epochLimit => 4
  | .badCommand => 5
  | .busy => 6
  | .count => 7
  | .directory => 8
  | .duplicate => 9
  | .range => 10
  | .overlap => 11
  | .member => 12
  | .memoryError => 13
  | .stageChanged => 14
  | .aborted => 15
  | .abortedByReset => 16
  | .committed => 17
  | .committedWithErrors => 18

/-- The code of a OrderAction (Table 11.1-1). -/
def OrderAction.code : OrderAction → Nat
  | .enable => 0
  | .disable => 1
  | .reconfig => 2

/-- The code of an order result (Table 11.1-1). -/
def OrderResult.code : OrderResult → Nat
  | .done => 0
  | .refused => 1

/-- The order result of a code that has passed check 5 of R63. -/
def OrderResult.ofCode (n : Nat) : OrderResult := if n = 0 then .done else .refused

/-- The code of a FetchStatus (Table 11.1-1). -/
def FetchStatus.code : FetchStatus → Nat
  | .ok => 0
  | .overrun => 1
  | .range => 2
  | .notReady => 3
  | .hold => 4
  | .memory => 5

/-- The code of a BladeState (Table 11.1-1). -/
def BladeState.code : BladeState → Nat
  | .absent => 0
  | .settling => 1
  | .waitPower => 2
  | .powering => 3
  | .up => 4
  | .lost => 5
  | .faulted => 6

/-- The code of a BladeCause (Table 11.1-1). -/
def BladeCause.code : BladeCause → Nat
  | .none => 0
  | .keepalive => 1
  | .engineReset => 2
  | .orderTimeout => 3
  | .epochTimeout => 4
  | .noHello => 5
  | .helloTimeout => 6
  | .repeatedLoss => 7
  | .removed => 8

/-- The code of a PortState (Table 11.1-1). -/
def PortState.code : PortState → Nat
  | .offline => 0
  | .waitLicense => 1
  | .waitPower => 2
  | .goingUp => 3
  | .online => 4
  | .goingDown => 5
  | .shed => 6

/-- The code of a PortCause (Table 11.1-1). -/
def PortCause.code : PortCause → Nat
  | .none => 0
  | .request => 1
  | .power => 2
  | .thermal => 3
  | .feRefused => 4
  | .bladeDown => 5
  | .badRequest => 6
  | .noXdLicense => 7
  | .speedHeld => 8
  | .noSuchPort => 9

/-- The code of a Leaving (Table 11.1-1). -/
def Leaving.code : Leaving → Nat
  | .clear => 0
  | .power => 1
  | .thermal => 2

/-- The code of a TokenState (Table 11.1-1). -/
def TokenState.code : TokenState → Nat
  | .empty => 0
  | .queued => 1
  | .checking => 2
  | .programming => 3
  | .done => 4

/-- The code of a TokenResult (Table 11.1-1). -/
def TokenResult.code : TokenResult → Nat
  | .none => 0
  | .badFeature => 1
  | .badSerial => 2
  | .badCheck => 3
  | .stale => 4
  | .alreadyApplied => 5
  | .inUse => 6
  | .memoryError => 7
  | .reinstated => 8
  | .applied => 9
  | .nvFault => 10
  | .busy => 11

/-- The code of a PsuState (Table 11.1-1). -/
def PsuState.code : PsuState → Nat
  | .empty => 0
  | .settling => 1
  | .online => 2
  | .inputLost => 3
  | .faulted => 4
  | .unpowered => 5

/-- The code of a RotorState (Table 11.1-1). -/
def RotorState.code : RotorState → Nat
  | .absent => 0
  | .spinup => 1
  | .ok => 2
  | .slow => 3
  | .stalled => 4

/-- The code of a TrayState (Table 11.1-1). -/
def TrayState.code : TrayState → Nat
  | .ok => 0
  | .degraded => 1
  | .failed => 2

/-- The code of a ThermalState (Table 11.1-1). -/
def ThermalState.code : ThermalState → Nat
  | .normal => 0
  | .warm => 1
  | .hot => 2

/-- The code of a PartState (Table 11.1-1). -/
def PartState.code : PartState → Nat
  | .unconfigured => 0
  | .arming => 1
  | .armed => 2
  | .armFailed => 3

/-- The code of a ArmResult (Table 11.1-1). -/
def ArmResult.code : ArmResult → Nat
  | .none => 0
  | .inProgress => 1
  | .busy => 2
  | .alreadyArmed => 3
  | .badCommand => 4
  | .armed => 5
  | .badCapacity => 6
  | .misaligned => 7
  | .outsideMemory => 8
  | .overlap => 9

/-- The number of a speed class, 1 to 4. -/
def SpeedClass.number : SpeedClass → Nat
  | .class1 => 1
  | .class2 => 2
  | .class3 => 3
  | .class4 => 4

/-- The speed class of a number; none outside 1 to 4 (R93). -/
def SpeedClass.ofNumber (n : Nat) : Option SpeedClass :=
  if n = 1 then some .class1 else if n = 2 then some .class2
  else if n = 3 then some .class3 else if n = 4 then some .class4 else none

/-- The place of a speed class in the e table. -/
def SpeedClass.index : SpeedClass → Fin 4
  | .class1 => 0
  | .class2 => 1
  | .class3 => 2
  | .class4 => 3

/-- The PORT_UNITS cost of a speed class (Table 6.1-1). -/
def SpeedClass.units : SpeedClass → Nat
  | .class1 => 1
  | .class2 => 1
  | .class3 => 2
  | .class4 => 4

/-- The PORT_UNITS of a configuration. -/
def PortConfig.units (c : PortConfig) : Nat := c.speed.units

/-- The XD_PORTS units of a configuration (Table 6.1-1). -/
def PortConfig.xdUnits (c : PortConfig) : Nat := if c.xd then 1 else 0

/-- A flag byte (R174). -/
def flagByte (b : Bool) : Byte := if b then 1#8 else 0#8

/-- A flag as a figure. -/
def flagNat (b : Bool) : Nat := if b then 1 else 0

/-- The byte of an optic class; 255 is unknown (Table 11.1-1). -/
def opticCode : Option (Fin 4) → Nat
  | some c => c.1
  | none => 255

/-- The redundancy mode code (Table 10.4-1). -/
def Redundancy.code : Redundancy → Nat
  | .none => 0
  | .nPlus1 => 1
  | .grid => 2

/-- The capacity in dW that a capacity code names (Table 7.1-1). -/
def capacityOf (code : BitVec 2) : Nat := 12000 + 6000 * code.toNat

/-- The ring capacity in records of a capacity code 0 to 4 (R161). -/
def ringCapacity (code : Nat) : Nat := 256 * 2 ^ code

/-- The licence feature a feature code names (R105). -/
def Feature.ofCode (n : Nat) : Option Feature :=
  if n = 1 then some .portUnits else if n = 2 then some .xdPorts else none

/-- The table memory size in bytes for the DENSITY straps, DENSITY1 the upper bit (Table 3.1-1). -/
def memoryBytes (density : Fin 4) : Nat := 268435456 * 2 ^ density.1

/-- The table memory size in lines. -/
def memoryLines (density : Fin 4) : Nat := memoryBytes density / 64

/-- The fan zone of a slot, and of a tray (00_scope Table 2-1). -/
def zoneOfSlot (b : Slot) : FanZone := if b.1 < 4 then 0 else 1
def zoneOfTray (t : Tray) : FanZone := if t.1 < 3 then 0 else 1

/-- The tray of a rotor. -/
def trayOf (r : Rotor) : Tray := ⟨r.1 / 2, by have := r.2; omega⟩

/-- The two rotors of a tray. -/
def rotorA (t : Tray) : Rotor := ⟨2 * t.1, by have := t.2; omega⟩
def rotorB (t : Tray) : Rotor := ⟨2 * t.1 + 1, by have := t.2; omega⟩

/-- The fan zone of a rotor. -/
def zoneOfRotor (r : Rotor) : FanZone := zoneOfTray (trayOf r)

end Sys2Proof.Machine
end

