-- ==== Sys2Proof/Machine/Tunables.lean ====
section
/-! DEFINITION. The tunables and the layout as the PLU reads them from its copy of the policy block
(Table 11.2-1, Table 11.2-2), each tunable brought into its range in use (R171, Table 10.4-1). -/

namespace Sys2Proof.Machine

/-- The unsigned field of `n` bytes at an offset of the PLU's copy. -/
def copyNat (m : Memory) (offset n : Nat) : Nat := leNat (m.readBytes offset n)

/-- A value brought into a range: below it the low end, above it the high end (R171). -/
def clampNat (lo hi v : Nat) : Nat := max lo (min hi v)

/-- A signed value brought into a range. -/
def clampInt (lo hi v : Int) : Int := max lo (min hi v)

/-- A temperature tunable: signed, −40 to 125 °C. -/
def copyTemp (m : Memory) (offset : Nat) : Int := clampInt (-40) 125 (signedByte (m.read offset))

/-- The value in use of every tunable, from the tunable copy (R171, Table 10.4-1). -/
def Tunables.ofCopy (m : Memory) : Tunables where
  redundancy := if copyNat m 128 1 = 0 then .none else if copyNat m 128 1 = 1 then .nPlus1 else .grid
  reserve := clampNat 0 20 (copyNat m 129 1)
  thermalBase := clampNat 0 1000000 (copyNat m 132 4)
  derate := #v[clampNat 0 100 (copyNat m 136 1), clampNat 0 100 (copyNat m 137 1), clampNat 0 100 (copyNat m 138 1),
    clampNat 0 100 (copyNat m 139 1), clampNat 0 100 (copyNat m 140 1)]
  speedDraw := #v[clampNat 0 500 (copyNat m 144 2), clampNat 0 500 (copyNat m 146 2), clampNat 0 500 (copyNat m 148 2),
    clampNat 0 500 (copyNat m 150 2)]
  xdDraw := clampNat 0 200 (copyNat m 152 2)
  margin := clampNat 0 1000 (copyNat m 154 2)
  holdoff := clampNat 1 60 (copyNat m 156 1)
  grace := clampNat 0 50 (copyNat m 157 1)
  curve := #v[⟨copyTemp m 160, clampNat 0 100 (copyNat m 161 1)⟩, ⟨copyTemp m 162, clampNat 0 100 (copyNat m 163 1)⟩,
    ⟨copyTemp m 164, clampNat 0 100 (copyNat m 165 1)⟩, ⟨copyTemp m 166, clampNat 0 100 (copyNat m 167 1)⟩]
  minDuty := clampNat 20 100 (copyNat m 168 1)
  warn := copyTemp m 169
  crit := copyTemp m 170
  inletOffset := clampNat 0 40 (copyNat m 171 1)
  ratedSpeed := clampNat 1000 30000 (copyNat m 172 2)
  coCount := clampNat 1 64 (copyNat m 174 1)
  coTime := clampNat 0 65535 (copyNat m 176 2)
  defaultBase := clampNat 0 8000 (copyNat m 158 2)
  weights := #v[clampNat 0 4 (copyNat m 178 1), clampNat 0 4 (copyNat m 179 1), clampNat 0 4 (copyNat m 180 1),
    clampNat 0 4 (copyNat m 181 1), clampNat 0 4 (copyNat m 182 1), clampNat 0 4 (copyNat m 183 1),
    clampNat 0 4 (copyNat m 184 1), clampNat 0 4 (copyNat m 185 1)]

/-- Every tunable lies in its range in use (Table 10.4-1). -/
def Tunables.inRange (t : Tunables) : Bool :=
  decide (t.reserve ≤ 20) && decide (t.thermalBase ≤ 1000000) && t.derate.toList.all (fun v => decide (v ≤ 100)) &&
  t.speedDraw.toList.all (fun v => decide (v ≤ 500)) && decide (t.xdDraw ≤ 200) && decide (t.margin ≤ 1000) &&
  (decide (1 ≤ t.holdoff) && decide (t.holdoff ≤ 60)) && decide (t.grace ≤ 50) &&
  t.curve.toList.all (fun b => decide (-40 ≤ b.temp) && decide (b.temp ≤ 125) && decide (b.duty ≤ 100)) &&
  (decide (20 ≤ t.minDuty) && decide (t.minDuty ≤ 100)) && (decide (-40 ≤ t.warn) && decide (t.warn ≤ 125)) &&
  (decide (-40 ≤ t.crit) && decide (t.crit ≤ 125)) && decide (t.inletOffset ≤ 40) &&
  (decide (1000 ≤ t.ratedSpeed) && decide (t.ratedSpeed ≤ 30000)) &&
  (decide (1 ≤ t.coCount) && decide (t.coCount ≤ 64)) && decide (t.coTime ≤ 65535) && decide (t.defaultBase ≤ 8000) &&
  t.weights.toList.all (fun v => decide (v ≤ 4))

/-- The weight of a weight code 0 to 4: 0, 1, 2, 4 or 8 (Section 6.4). -/
def weightOf (code : Nat) : Nat := if code = 0 then 0 else 2 ^ (code - 1)

/-- The layout that a freeze takes from the PLU's copy of lines 0 and 1; a reserve above 384 is frozen as
384 (R168, Table 11.2-1). -/
def Layout.ofCopy (m : Memory) : Layout where
  stage := copyNat m 8 4
  live := copyNat m 12 4
  ports := copyNat m 16 4
  licence := copyNat m 20 4
  ring := copyNat m 24 4
  capCode := copyNat m 28 1
  reserves := #v[min 384 (copyNat m 64 2), min 384 (copyNat m 66 2), min 384 (copyNat m 68 2), min 384 (copyNat m 70 2),
    min 384 (copyNat m 72 2), min 384 (copyNat m 74 2), min 384 (copyNat m 76 2), min 384 (copyNat m 78 2)]

end Sys2Proof.Machine
end

