-- ==== Sys2Proof/Machine/Layout.lean ====
section
/-! DEFINITION. Where the record regions lie: the regions of table memory and the owner of each byte
(R33, Table 2.2-2), the layout checks of arming (R169), the two banks behind the zone windows (R1, R2),
and the watched word at an address (R38). -/

namespace Sys2Proof.Machine

/-- The bytes of the ring region: its header line and its slots (R169). -/
def Layout.ringBytes (l : Layout) : Nat := 64 + 32 * ringCapacity l.capCode

/-- A region of the layout as (base, size); region 0 is the policy block (R169). -/
def Layout.region (l : Layout) : Nat → Nat × Nat
  | 0 => (0, 4096)
  | 1 => (l.stage, 262144)
  | 2 => (l.live, 262144)
  | 3 => (l.ports, 12288)
  | 4 => (l.licence, 4096)
  | _ => (l.ring, l.ringBytes)

/-- The first of regions 1 to 5 that is not aligned: 256 KiB for the windows, 4 KiB for the rest. -/
def Layout.misaligned (l : Layout) : Option Nat :=
  [1, 2, 3, 4, 5].find? (fun k => decide ((l.region k).1 % (if k ≤ 2 then 262144 else 4096) ≠ 0))

/-- The first of regions 1 to 5 whose last byte lies at or beyond the size of table memory. -/
def Layout.outside (l : Layout) (size : Nat) : Option Nat :=
  [1, 2, 3, 4, 5].find? (fun k => decide (size < (l.region k).1 + (l.region k).2))

/-- Two regions share a byte. -/
def Layout.meets (l : Layout) (i j : Nat) : Bool :=
  decide ((l.region i).1 < (l.region j).1 + (l.region j).2) && decide ((l.region j).1 < (l.region i).1 + (l.region i).2)

/-- The first pair of regions 0 to 5 that share a byte, by the lower number, then the higher. -/
def Layout.overlaps (l : Layout) : Option (Nat × Nat) :=
  [(0, 1), (0, 2), (0, 3), (0, 4), (0, 5), (1, 2), (1, 3), (1, 4), (1, 5), (2, 3), (2, 4), (2, 5), (3, 4), (3, 5),
    (4, 5)].find? (fun p => l.meets p.1 p.2)

/-- The layout checks of Table 10.2-1: the failure and its detail, or none when every check passes. -/
def Layout.check (l : Layout) (size : Nat) : Option (ArmResult × Nat) :=
  if 4 < l.capCode then some (.badCapacity, l.capCode)
  else match l.misaligned with
    | some k => some (.misaligned, k)
    | none => match l.outside size with
      | some k => some (.outsideMemory, k)
      | none => match l.overlaps with
        | some (i, j) => some (.overlap, i + 256 * j)
        | none => none

/-- A place in table memory by region, with the line number inside the region (R33). -/
inductive Region where
  | policy (line : Nat)
  | stage (line : Nat)
  | live (line : Nat)
  | portTable (line : Nat)
  | licence (line : Nat)
  | ring (line : Nat)
  | ordinary
  deriving DecidableEq, Repr

/-- The layout while the configured regions have their places: from ARMING on, until ARM_FAILED (R33). -/
def State.placed (s : State) : Option Layout :=
  match s.plu.part with
  | .arming => s.plu.layout
  | .armed => s.plu.layout
  | _ => none

/-- The region that the line at a byte address falls in; the policy block comes first (R169). -/
def regionOf (s : State) (addr : Nat) : Region :=
  if addr < 4096 then .policy (addr / 64)
  else match s.placed with
    | none => .ordinary
    | some l =>
      if l.stage ≤ addr ∧ addr < l.stage + 262144 then .stage ((addr - l.stage) / 64)
      else if l.live ≤ addr ∧ addr < l.live + 262144 then .live ((addr - l.live) / 64)
      else if l.ports ≤ addr ∧ addr < l.ports + 12288 then .portTable ((addr - l.ports) / 64)
      else if l.licence ≤ addr ∧ addr < l.licence + 4096 then .licence ((addr - l.licence) / 64)
      else if l.ring ≤ addr ∧ addr < l.ring + l.ringBytes then .ring ((addr - l.ring) / 64)
      else .ordinary

/-- The region is one of the five configured regions. -/
def Region.configured : Region → Bool
  | .policy _ => false
  | .ordinary => false
  | _ => true

/-- The byte at an offset of a line of a region is CP-owned (Table 2.2-2). From ARMED on the layout bytes of
policy lines 0 and 1 are part-owned. -/
def cpOwned (armed : Bool) (r : Region) (offset : Nat) : Bool :=
  match r with
  | .policy line =>
    if line = 0 then !armed || decide (offset < 8) else if line = 1 then !armed else decide (line < 32)
  | .stage line => decide (line ≠ 0) || decide (offset < 16)
  | .live _ => false
  | .portTable _ => decide (offset % 32 < 8)
  | .licence line => if line < 8 then decide (offset < 40) else decide (line ≠ 8)
  | .ring line => decide (line = 0) && decide (offset < 8)
  | .ordinary => true

/-- The live bank: bank 1 while the swap flag is 0, bank 0 while it is 1 (Table 1.1-1). -/
def Ziu.liveBank (z : Ziu) : Bank := if z.swap then 0 else 1

/-- The stage bank is the other bank. -/
def Ziu.stageBank (z : Ziu) : Bank := if z.swap then 1 else 0

/-- The byte address of a line of a bank: bank 0 lies at the stage window base, bank 1 at the live window
base (R1). -/
def Layout.bankLine (l : Layout) (b : Bank) (line : Nat) : Nat := (if b = 0 then l.stage else l.live) + 64 * line

/-- The state of a dirty map entry (R7). -/
def Ziu.lineState (z : Ziu) (line : Nat) : LineState := sparseGet .clean z.dirty line

/-- Change a dirty map entry. -/
def Ziu.setLine (z : Ziu) (line : Nat) (x : LineState) : Ziu := { z with dirty := sparsePut .clean line x z.dirty }

/-- The STAGED count (R7). -/
def Ziu.stagedCount (z : Ziu) : Nat := (z.dirty.filter (fun e => decide (e.2 = .staged))).length

/-- The number of RESYNC lines, error-held ones among them. -/
def Ziu.resyncCount (z : Ziu) : Nat := (z.dirty.filter (fun e => decide (e.2 = .resync ∨ e.2 = .errorHeld))).length

/-- The number of error-held lines (R24). -/
def Ziu.errorHeldCount (z : Ziu) : Nat := (z.dirty.filter (fun e => decide (e.2 = .errorHeld))).length

/-- The physical line number that a control-processor read of the line at a byte address reads (R4). -/
def readLine (s : State) (addr : Nat) : Nat :=
  match s.placed, regionOf s addr with
  | some l, .stage line =>
    if line = 0 then l.stage / 64
    else match s.ziu.lineState line with
      | .clean => l.bankLine s.ziu.stageBank line / 64
      | .staged => l.bankLine s.ziu.stageBank line / 64
      | .resync => l.bankLine s.ziu.liveBank line / 64
      | .errorHeld => l.bankLine s.ziu.liveBank line / 64
  | some l, .live line => if line = 0 then l.stage / 64 else l.bankLine s.ziu.liveBank line / 64
  | _, _ => addr / 64

/-- The bank line (1 to 4095) that a physical line number is while the part is ARMED, with its bank (R1). -/
def bankLineOf (s : State) (line : Nat) : Option (Bank × Nat) :=
  if s.plu.part ≠ .armed then none
  else match s.plu.layout with
    | none => none
    | some l =>
      if l.stage / 64 < line ∧ line < l.stage / 64 + 4096 then some (0, line - l.stage / 64)
      else if l.live / 64 < line ∧ line < l.live / 64 + 4096 then some (1, line - l.live / 64)
      else none

/-- A bank line is closed to write-back: in the live bank, or in the stage bank while the zone state is
VALIDATING or AWAIT_ACK (R50). -/
def bankClosed (s : State) (b : Bank) : Bool :=
  decide (b = s.ziu.liveBank) || decide (s.ziu.zone = .validating) || decide (s.ziu.zone = .awaitAck)

/-- The watched word at an 8-byte-aligned byte address (Table 2.3-1). From ARMING on the words of the
configured regions exist where the regions lie (R38). -/
def watchedAt (s : State) (addr : Nat) : Option WatchedWord :=
  if addr = 0 then some .policyControl
  else match regionOf s addr with
    | .stage 0 => if addr % 64 = 0 then some .zoneCommand else none
    | .portTable line =>
      if addr % 32 = 0 then
        let n := 2 * line + addr % 64 / 32
        if h : n / 48 < 8 then some (.portRequest ⟨⟨n / 48, h⟩, ⟨n % 48, Nat.mod_lt _ (by decide)⟩⟩) else none
      else none
    | .licence line => if addr % 64 = 32 then (if h : line < 8 then some (.tokenSubmit ⟨line, h⟩) else none) else none
    | .ring 0 => if addr % 64 = 0 then some .consumerIndex else none
    | _ => none

end Sys2Proof.Machine
end

