-- ==== Sys2Proof/Machine/Figures.lean ====
section
/-! DEFINITION. The licence and power figures that the units compute afresh from the records: units held,
reserves and the common pool (R105 to R107), the fit test (R118), the draws and the budget (R131 to R135),
and the checks made with them (R86, R95, R107). -/

namespace Sys2Proof.Machine

/-! ### What a port holds (Table 5.2-1) -/

/-- The port's draw is charged: GOING_UP, ONLINE or GOING_DOWN. -/
def PortState.drawn : PortState → Bool
  | .goingUp => true
  | .online => true
  | .goingDown => true
  | _ => false

/-- The port holds licence units: the drawn states and SHED. -/
def PortState.holds (st : PortState) : Bool := st.drawn || decide (st = .shed)

/-- The optic draw o; an unknown class counts as class 3 (Table 7.3-2). -/
def opticDraw : Option (Fin 4) → Nat
  | some 0 => 0
  | some 1 => 10
  | some 2 => 15
  | _ => 25

/-- The port draw e + o, and x when the XD flag is set (R134). -/
def portDraw (t : Tunables) (c : PortConfig) (optic : Option (Fin 4)) : Nat :=
  t.speedDraw.get c.speed.index + opticDraw optic + (if c.xd then t.xdDraw else 0)

/-- The draw charged to a port (R92). DEDUCED, log entry 50. -/
def Port.draw (t : Tunables) (p : Port) : Nat :=
  match p.granted with
  | some c => if p.state.drawn then portDraw t c p.optic else 0
  | none => 0

/-- The PORT_UNITS a port holds. -/
def Port.units (p : Port) : Nat :=
  match p.granted with
  | some c => if p.state.holds then c.units else 0
  | none => 0

/-- The XD_PORTS units a port holds. -/
def Port.xdUnits (p : Port) : Nat :=
  match p.granted with
  | some c => if p.state.holds then c.xdUnits else 0
  | none => 0

/-- The port is on its way off: GOING_DOWN, or carrying the leaving flag (R135). -/
def Port.departing (p : Port) : Bool := decide (p.state = .goingDown) || decide (p.leaving ≠ .clear)

/-- Add a figure up over the ports of a slot. -/
def sumPorts (ports : Vector Port 48) (f : Port → Nat) : Nat := ports.toList.foldl (fun acc p => acc + f p) 0

/-- Add a figure up over all 384 ports. -/
def State.sumAll (s : State) (f : Port → Nat) : Nat := s.pau.ports.toList.foldl (fun acc v => acc + sumPorts v f) 0

/-! ### Licence figures -/

/-- The record of a feature. -/
def Lu.feature (l : Lu) : Feature → FeatureState
  | .portUnits => l.portUnits
  | .xdPorts => l.xdPorts

/-- Replace the record of a feature. -/
def Lu.setFeature (l : Lu) (f : Feature) (x : FeatureState) : Lu :=
  match f with
  | .portUnits => { l with portUnits := x }
  | .xdPorts => { l with xdPorts := x }

/-- The holdings of a feature: the units held by ports in GOING_UP, ONLINE, GOING_DOWN or SHED (R105). -/
def State.holdings (s : State) : Feature → Nat
  | .portUnits => s.sumAll Port.units
  | .xdPorts => s.sumAll Port.xdUnits

/-- The PORT_UNITS held by the ports of a slot, h_b (R106). -/
def State.slotUnits (s : State) (b : Slot) : Nat := sumPorts (s.pau.ports.get b) Port.units

/-- The entitlement in use for checks: E, or the smaller of E and a programming token's units (R120). -/
def Lu.entitlementInUse (l : Lu) (f : Feature) : Nat :=
  match l.program with
  | some p => if p.feature = f then min (l.feature f).entitlement p.units else (l.feature f).entitlement
  | none => (l.feature f).entitlement

/-- The effective reserves, slot 0 served first: each is the smaller of the reserve and what the lower slots
have left of the entitlement (R106). -/
def effectiveReserves : (entitlement : Nat) → List Nat → List Nat
  | _, [] => []
  | e, r :: rest => min r e :: effectiveReserves (e - min r e) rest

/-- The effective reserve of a slot for an entitlement. -/
def State.effReserve (s : State) (e : Nat) (b : Slot) : Nat :=
  (effectiveReserves e s.lu.reserves.toList).getD b.1 0

/-- The common pool C for an entitlement (R106). -/
def State.commonPool (s : State) (e : Nat) : Nat := e - (effectiveReserves e s.lu.reserves.toList).sum

/-- The common use summed over the slots (R106). -/
def State.commonUse (s : State) (e : Nat) : Nat :=
  (indices 8).foldl (fun acc b => acc + (s.slotUnits b - s.effReserve e b)) 0

/-- The common free: C less the common use; the law of R106 keeps it from falling below 0. DEDUCED, log entry 52. -/
def State.commonFree (s : State) (e : Nat) : Int := (s.commonPool e : Int) - (s.commonUse e : Int)

/-- The unused reserve of a slot (R106). -/
def State.unusedReserve (s : State) (e : Nat) (b : Slot) : Nat := s.effReserve e b - min (s.slotUnits b) (s.effReserve e b)

/-- The licence check: `u` PORT_UNITS fit on a slot (R107). -/
def State.licenceFits (s : State) (b : Slot) (u : Nat) : Bool :=
  let e := s.lu.entitlementInUse .portUnits
  decide ((u : Int) ≤ (s.unusedReserve e b : Int) + s.commonFree e)

/-- The XD check: one XD_PORTS unit is free (R107). -/
def State.xdFree (s : State) : Bool := decide (s.holdings .xdPorts + 1 ≤ s.lu.entitlementInUse .xdPorts)

/-- The fit test of a token: the larger shortfall if the feature's entitlement became U (R118). -/
def State.shortfall (s : State) (f : Feature) (u : Nat) : Nat :=
  let law105 := s.holdings f - u
  match f with
  | .portUnits => max law105 (s.commonUse u - s.commonPool u)
  | .xdPorts => law105

/-! ### Power figures -/

/-- A PSU is counted: ONLINE, or INPUT_LOST with its grace not expired (R127). -/
def Psu.counted (p : Psu) : Bool :=
  decide (p.state = .online) || (decide (p.state = .inputLost) && !p.expired)

/-- The usable capacity U_i of a PSU, 0 when it is not counted (R131). -/
def usable (p : Psu) (lowLine : Bool) : Nat :=
  if p.counted then (if lowLine then p.capacity.getD 0 * 55 / 100 else p.capacity.getD 0) else 0

/-- U_i of a bay. -/
def State.usableOf (s : State) (i : Bay) : Nat := usable (s.pbu.psus.get i) (s.pins.lowLine.get i)

/-- The counted PSUs among some bays. -/
def State.countedIn (s : State) (bays : List Bay) : Nat :=
  (bays.filter (fun i => (s.pbu.psus.get i).counted)).length

/-- The sum of U_i over some bays. -/
def State.usableSum (s : State) (bays : List Bay) : Nat := bays.foldl (fun acc i => acc + s.usableOf i) 0

/-- The largest U_i. -/
def State.usableMax (s : State) : Nat := (indices 4).foldl (fun acc i => max acc (s.usableOf i)) 0

/-- The supply P and the REDUNDANCY_LOST alarm (Table 7.3-1). -/
def State.supplyOf (s : State) : Nat × Bool :=
  let n := s.countedIn (indices 4)
  if n = 0 then (0, false)
  else match s.plu.inUse.redundancy with
    | .none => (s.usableSum (indices 4), false)
    | .nPlus1 => if n = 1 then (s.usableSum (indices 4), true) else (s.usableSum (indices 4) - s.usableMax, false)
    | .grid =>
      if s.countedIn [0, 1] = 0 then (s.usableSum [2, 3], true)
      else if s.countedIn [2, 3] = 0 then (s.usableSum [0, 1], true)
      else (min (s.usableSum [0, 1]) (s.usableSum [2, 3]), false)

/-- The reserved supply S = floor(P × (100 − r) / 100) (R133). -/
def reservedSupply (p r : Nat) : Nat := p * (100 - r) / 100

/-- The thermal ceiling T = floor(T_base × f / 100) (R133). -/
def thermalCeiling (base f : Nat) : Nat := base * f / 100

/-- The charged base draws summed over the blades. -/
def State.baseDraw (s : State) : Nat := s.pau.blades.toList.foldl (fun acc b => acc + b.base) 0

/-- Committed draw D (R135). -/
def State.committed (s : State) : Nat := s.baseDraw + s.sumAll (Port.draw s.plu.inUse)

/-- Projected draw: D less the draws of the ports on their way off (R135). -/
def State.projected (s : State) : Nat :=
  s.baseDraw + s.sumAll (fun p => if p.departing then 0 else p.draw s.plu.inUse)

/-- Headroom H = A − projected draw, signed (R135). -/
def State.headroom (s : State) : Int := (s.pbu.available : Int) - (s.projected : Int)

/-- Some port of an UP blade is in SHED with cause POWER (R95). -/
def State.shedForPower (s : State) : Bool :=
  (indices 8).any (fun b => decide ((s.blade b).state = .up) &&
    (s.pau.ports.get b).toList.any (fun p => decide (p.state = .shed) && decide (p.cause = .power)))

/-- The port power check for an added draw: not in HOLD, projected draw with it at most A, the power wait
list empty, and no port SHED for power on an UP blade (R95). -/
def State.powerFits (s : State) (added : Int) : Bool :=
  !s.pbu.hold && decide ((s.projected : Int) + added ≤ (s.pbu.available : Int)) && s.pbu.waitList.isEmpty &&
    !s.shedForPower

/-- The blades in WAIT_POWER: the blade power wait, in ascending slot order (R138). DEDUCED, log entry 61. -/
def State.bladeWait (s : State) : List Slot := (indices 8).filter (fun b => decide ((s.blade b).state = .waitPower))

/-- The blade power check of a blade that leaves SETTLING (R86). -/
def State.bladeFits (s : State) : Bool :=
  s.bladeWait.isEmpty && !s.pbu.hold && decide ((s.plu.inUse.defaultBase : Int) ≤ s.headroom)

end Sys2Proof.Machine
end

