-- ==== Sys2Proof/Machine/Formats.lean ====
section
/-! DEFINITION. The byte layouts of Chapter 11: what each status item writes and where (Tables 11.2-3 to
11.5-1), the event record and the packing of its data words (Tables 9.4-1 and 11.5-2), and the blade link
messages with their CRC (R63, R176). -/

namespace Sys2Proof.Machine

/-! ### Status items -/

/-- One byte of a small figure. -/
def le1 (n : Nat) : List Byte := leBytes 1 n

/-- The alarm bits of status page line 34 (Table 11.2-3). -/
def Pbu.alarms (p : Pbu) : Nat :=
  flagNat p.redundancyLost + 2 * flagNat p.powerCritical + 4 * flagNat p.hold + 8 * flagNat p.holdoffAt.isSome +
    16 * flagNat p.restorePending

/-- Licence figures at the offsets of the licence summary, bytes 0 to 23 (Table 11.4-2). -/
def State.licenceFigureBytes (s : State) : List Byte :=
  let e := s.lu.entitlementInUse .portUnits
  leBytes 2 s.lu.portUnits.entitlement ++ leBytes 2 (s.holdings .portUnits) ++ leBytes 2 e ++
  leBytes 2 s.lu.xdPorts.entitlement ++ leBytes 2 (s.holdings .xdPorts) ++ leBytes 2 (s.lu.entitlementInUse .xdPorts) ++
  leBytes 4 s.lu.portUnits.floor ++ leBytes 4 s.lu.xdPorts.floor ++
  leBytes 2 (s.commonPool e) ++ leBytes 2 (twos 16 (s.commonFree e))

/-- The licence flags (Table 11.4-3). -/
def Lu.flagBit (l : Lu) (b : Slot) : Bool :=
  if b = 0 then l.portUnits.reinstated else if b = 1 then l.portUnits.floorFault
  else if b = 2 then l.xdPorts.reinstated else if b = 3 then l.xdPorts.floorFault else false

/-- The five bytes of a slot in the licence summary (Table 11.4-2). -/
def State.summarySlotBytes (s : State) (b : Slot) : List Byte :=
  let e := s.lu.entitlementInUse .portUnits
  leBytes 2 (packFigures [(9, s.effReserve e b), (6, (s.lu.queues.get b).length), (1, flagNat (s.lu.flagBit b))]) ++
  leBytes 1 (s.slotUnits b) ++ leBytes 2 (twos 16 (s.lu.counters.get b))

/-- The licence summary, line 8 of the licence page (R122). -/
def State.summaryBytes (s : State) : List Byte :=
  s.licenceFigureBytes ++ (indices 8).flatMap s.summarySlotBytes

/-- A port record's 24 part-owned bytes (Table 11.3-3). The granted XD flag is 0 when no configuration is granted: DESIGN CHOICE, log
entry 106. -/
def Port.recordBytes (t : Tunables) (p : Port) : List Byte :=
  le1 p.state.code ++ le1 p.cause.code ++ le1 p.leaving.code ++ [flagByte p.desired] ++ le1 p.priority.1 ++
  le1 ((p.granted.map (fun c => c.speed.number)).getD 0) ++ [flagByte ((p.granted.map (·.xd)).getD false)] ++
  le1 (opticCode p.optic) ++ leBytes 2 p.units ++ le1 p.xdUnits ++ [0#8] ++ leBytes 4 (p.draw t) ++
  leBytes 2 p.lastSeq ++ List.replicate 6 0#8

/-- The zone control line's bytes 16 to 63 (Table 11.3-1). -/
def Ziu.controlBytes (z : Ziu) : List Byte :=
  le1 z.zone.code ++ le1 z.result.code ++ [0#8, 0#8] ++ leBytes 4 z.detail ++ leBytes 4 z.epoch ++ leBytes 2 z.accepted ++
  leBytes 2 z.stagedCount ++ leBytes 2 z.liveZones ++ [0#8, 0#8] ++ leBytes 4 z.liveMembers ++ List.replicate 24 0#8

/-- A token slot's bytes 40 to 63 (Table 11.4-1). -/
def TokenSlot.statusBytes (t : TokenSlot) : List Byte :=
  le1 t.state.code ++ le1 t.result.code ++ [0#8, 0#8] ++ leBytes 4 t.detail ++ leBytes 2 t.resultSeq ++ leBytes 2 t.busySeq ++
  leBytes 2 t.feature ++ leBytes 2 t.units ++ leBytes 4 t.tokenSeq ++ List.replicate 4 0#8

/-- The budget figures of status page line 34 (Table 11.2-3). -/
def State.budgetBytes (s : State) : List Byte :=
  leBytes 4 s.pbu.supply ++ leBytes 4 s.pbu.reserved ++ leBytes 4 s.pbu.ceiling ++ leBytes 4 s.pbu.available ++
  leBytes 4 s.committed ++ leBytes 4 s.projected ++ leBytes 4 (twos 32 s.headroom) ++ le1 s.pbu.derate ++ le1 s.pbu.alarms ++
  [0#8, 0#8] ++ leBytes 2 s.pbu.waitList.length ++ le1 s.bladeWait.length

/-- A PSU record of status page line 36 (Table 11.2-4). -/
def State.psuBytes (s : State) (i : Bay) : List Byte :=
  let p := s.pbu.psus.get i
  le1 p.state.code ++ [flagByte p.counted, flagByte (s.pins.lowLine.get i), flagByte p.expired] ++
  leBytes 4 (p.capacity.getD 0) ++ leBytes 4 (s.usableOf i) ++ List.replicate 4 0#8

/-- A rotor record (Table 11.2-4). -/
def RotorRec.bytes (r : RotorRec) : List Byte :=
  le1 r.state.code ++ [0#8] ++ leBytes 2 r.lastCount ++ leBytes 2 r.speed ++ leBytes 2 r.expected

/-- A blade thermal record (Table 11.2-4). DESIGN CHOICE, log entry 85. -/
def BladeTemp.bytes (b : BladeTemp) : List Byte :=
  le1 b.thermal.code ++ [flagByte b.fresh] ++ leBytes 1 (twos 8 (b.inlet.getD 0)) ++ leBytes 1 (twos 8 (b.hotspot.getD 0)) ++
  leBytes 2 (twos 16 b.input) ++ le1 b.demand ++
  le1 (packFigures [(1, flagNat (b.latches.get 0)), (1, flagNat (b.latches.get 1)), (1, flagNat (b.latches.get 2)),
    (1, flagNat (b.latches.get 3))])

/-- A blade's figures without the link error count (Table 11.2-4). -/
def Blade.bytes (b : Blade) : List Byte :=
  le1 b.state.code ++ le1 (b.portCount.getD 0) ++ le1 b.cause.code ++ [0#8] ++ leBytes 2 b.base

/-- The values in use that the PBU reports: offsets 0 to 7 and 16 to 29 of line 2 (R145, Table 11.2-2). -/
def Tunables.budgetMask (t : Tunables) : List (Option Byte) :=
  overlay
    (maskAt 0 (le1 t.redundancy.code ++ le1 t.reserve ++ [0#8, 0#8] ++ leBytes 4 t.thermalBase))
    (maskAt 16 (t.speedDraw.toList.flatMap (leBytes 2) ++ leBytes 2 t.xdDraw ++ leBytes 2 t.margin ++ le1 t.holdoff ++
      le1 t.grace))

/-- The values in use that the PLU reports: offsets 8 to 15 and 30 to 57 of line 2 (R172). -/
def Tunables.policyMask (t : Tunables) : List (Option Byte) :=
  overlay
    (maskAt 8 (t.derate.toList.flatMap le1 ++ [0#8, 0#8, 0#8]))
    (maskAt 30 (leBytes 2 t.defaultBase ++ t.curve.toList.flatMap (fun b => leBytes 1 (twos 8 b.temp) ++ le1 b.duty) ++
      le1 t.minDuty ++ leBytes 1 (twos 8 t.warn) ++ leBytes 1 (twos 8 t.crit) ++ le1 t.inletOffset ++ leBytes 2 t.ratedSpeed ++
      le1 t.coCount ++ [0#8] ++ leBytes 2 t.coTime ++ t.weights.toList.flatMap le1))

/-- The layout fields at offsets 8 to 28 of line 0 (Table 11.2-1). -/
def Layout.baseBytes (l : Layout) : List Byte :=
  leBytes 4 l.stage ++ leBytes 4 l.live ++ leBytes 4 l.ports ++ leBytes 4 l.licence ++ leBytes 4 l.ring ++ le1 l.capCode

/-- The reserves at the offsets of line 1. -/
def Layout.reserveBytes (l : Layout) : List Byte := l.reserves.toList.flatMap (leBytes 2)

/-- The ring header's part-owned bytes 8 to 63 (Table 11.5-1). -/
def Evu.headerBytes (e : Evu) (capacity : Nat) : List Byte :=
  leBytes 2 e.producer ++ leBytes 2 e.consumer ++ leBytes 2 capacity ++ leBytes 2 ((e.sequence + 1) % 65536) ++
  leBytes 4 e.lostTotal ++ leBytes 4 e.pending ++ List.replicate 40 0#8

/-- The number of lines the zero-fill of arming writes (R169). -/
def Layout.fillLines (l : Layout) : Nat := 4096 + 4096 + 192 + 64 + 1 + ringCapacity l.capCode / 2

/-- The line number the zero-fill writes at a place of its order: stage window, live window, port table,
licence page, ring header and ring slots (R169). -/
def Layout.fillLine (l : Layout) (k : Nat) : Nat :=
  if k < 4096 then l.stage / 64 + k
  else if k < 8192 then l.live / 64 + (k - 4096)
  else if k < 8384 then l.ports / 64 + (k - 8192)
  else if k < 8448 then l.licence / 64 + (k - 8384)
  else l.ring / 64 + (k - 8448)

/-- What a status item writes now: its line number and masked bytes, or none while its region has no place
(R40, R42, R102, R104, R113, R122, R128, R145, R152, R155, R158, R161, R172). -/
def render (s : State) (item : StatusItem) : Option (Nat × List (Option Byte)) :=
  let armedLayout := if s.armed then s.plu.layout else none
  match item with
  | .controlLine => armedLayout.map (fun l => (l.stage / 64, maskAt 16 s.ziu.controlBytes))
  | .portRecord p => armedLayout.map (fun l =>
      (l.ports / 64 + portNumber p / 2, maskAt (32 * (portNumber p % 2) + 8) ((s.port p).recordBytes s.plu.inUse)))
  | .bladeFigures b => some (40, maskAt (8 * b.1) (s.blade b).bytes)
  | .bladeErrors b => some (40, maskAt (8 * b.1 + 6) (leBytes 2 (s.link b).errors))
  | .tokenSlot k => armedLayout.map (fun l => (l.licence / 64 + k.1, maskAt 40 (s.lu.slots.get k).statusBytes))
  | .licenceSummary => armedLayout.map (fun l => (l.licence / 64 + 8, maskAt 0 s.summaryBytes))
  | .licenceFigures => some (41, maskAt 0 (s.licenceFigureBytes ++
      le1 (packFigures ((indices 4).map (fun i => (1, flagNat (s.lu.flagBit ⟨i.1, by omega⟩)))))))
  | .budgetFigures => some (34, maskAt 0 s.budgetBytes)
  | .psuRecord i => some (36, maskAt (16 * i.1) (s.psuBytes i))
  | .budgetTunables => some (35, s.plu.inUse.budgetMask)
  | .rotorRecord r => some (37 + r.1 / 8, maskAt (8 * (r.1 % 8)) (s.ftu.rotors.get r).bytes)
  | .trayState t => some (38, maskAt (32 + t.1) (le1 (s.ftu.trays.get t).code))
  | .lostFigures => some (38, maskAt 38 (le1 s.ftu.lost ++ le1 s.ftu.derate))
  | .zoneDuties => some (38, maskAt 40 (le1 (s.ftu.zones.get 0).target ++ le1 (s.ftu.zones.get 0).driven ++
      le1 (s.ftu.zones.get 1).target ++ le1 (s.ftu.zones.get 1).driven))
  | .bladeThermal b => some (39, maskAt (8 * b.1) (s.ftu.temps.get b).bytes)
  | .partState => some (32, maskAt 0 (le1 s.plu.part.code ++ le1 s.plu.result.code ++ leBytes 2 s.plu.detail ++
      leBytes 2 s.plu.armSeq))
  | .partIdentity => some (32, maskAt 6 ([1#8, 0#8] ++ leBytes 8 Config.deviceSerial.toNat))
  | .uptime => some (32, maskAt 16 (leBytes 4 s.plu.uptime))
  | .frozenLayout => armedLayout.map (fun l =>
      (33, overlay (maskAt 8 l.baseBytes) (maskAt 32 l.reserveBytes)))
  | .policyTunables => some (35, s.plu.inUse.policyMask)
  | .layoutBack line => armedLayout.map (fun l =>
      if line = 0 then (0, maskAt 8 (l.baseBytes ++ List.replicate 35 0#8))
      else (1, maskAt 0 (l.reserveBytes ++ List.replicate 48 0#8)))
  | .zeroFill k => s.placed.map (fun l => (l.fillLine k, List.replicate 64 (some 0#8)))
  | .eventRecord slot record => armedLayout.map (fun l =>
      (l.ring / 64 + 1 + slot / 2, maskAt (32 * (slot % 2)) record))
  | .ringHeader => armedLayout.map (fun l => (l.ring / 64, maskAt 8 (s.evu.headerBytes (ringCapacity l.capCode))))

/-! ### Event records (Table 11.5-1) -/

/-- The 32 bytes of an event record. -/
def recordBytes (seq time : Nat) (e : Event) : List Byte :=
  leBytes 2 seq ++ leBytes 6 time ++ le1 e.kind.code ++ le1 e.severity.code ++ leBytes 2 e.source ++ leBytes 2 e.code ++
  leBytes 6 e.word0 ++ leBytes 6 e.word1 ++ leBytes 6 e.word2

/-! ### Blade link messages (R63, R176) -/

/-- One bit of the CRC: generator x^16 + x^12 + x^5 + 1, most significant bit first (R63). -/
def crcBit (crc : BitVec 16) : BitVec 16 := if crc.msb then (crc <<< 1) ^^^ 0x1021#16 else crc <<< 1

/-- One byte of the CRC. -/
def crcByte (crc : BitVec 16) (b : Byte) : BitVec 16 :=
  let x := crc ^^^ (b.zeroExtend 16 <<< 8)
  crcBit (crcBit (crcBit (crcBit (crcBit (crcBit (crcBit (crcBit x)))))))

/-- The CRC-16 over bytes in transmission order, initial value 0xFFFF, no reflection, no inversion. -/
def crc16 (bytes : List Byte) : BitVec 16 := bytes.foldl crcByte 0xFFFF#16

/-- A message on the wire: header, body, and the CRC more significant byte first (R176). -/
def wireMessage (type slot tag : Byte) (body : List Byte) : List Byte :=
  let covered := [type, slot] ++ leBytes 2 body.length ++ [tag] ++ body
  let crc := crc16 covered
  covered ++ [(crc >>> 8).truncate 8, crc.truncate 8]

/-- The bytes of a message from the part on the link of a slot (Table 11.7-1). -/
def PartMessage.wire (slot : Slot) : PartMessage → List Byte
  | .welcome e => wireMessage 129#8 (byteOf slot.1) 0#8 (leBytes 4 e)
  | .fetchData d => wireMessage 130#8 (byteOf slot.1) (byteOf d.tag.1)
      (leBytes 4 d.epoch ++ le1 d.status.code ++ le1 d.lines.length ++ [0#8, 0#8] ++ d.lines.flatten)
  | .order tag o => wireMessage 131#8 (byteOf slot.1) (byteOf tag.1)
      (le1 o.port.1 ++ le1 o.action.code ++ le1 o.config.speed.number ++ [flagByte o.config.xd])
  | .epoch e => wireMessage 132#8 (byteOf slot.1) 0#8 (leBytes 4 e)

/-- Why a message fails reception (Table 4.2-1). -/
inductive ReceptionFailure where
  | crc
  | badType
  | badLength
  | badSlot
  | badField
  deriving DecidableEq, Repr

/-- The body length of a message type that an engine sends, none for any other type (Table 11.7-1). -/
def engineBodyLength (type : Nat) : Option Nat :=
  if type = 1 then some 6 else if type = 2 then some 3 else if type = 3 then some 2 else if type = 4 then some 2
  else if type = 5 then some 1 else if type = 6 then some 4 else if type = 7 then some 0 else none

/-- A message that an engine sends, with its fields as Table 11.7-1 lays them out and the header fields its use reads. -/
inductive EngineMessage where
  | hello (hdrSlot hdrTag rev bodySlot ports : Byte) (baseDraw : BitVec 16)
  | fetch (tag : FetchTag) (first : BitVec 16) (count : Byte)
  | status (inlet hotspot : Byte)
  | portNote (hdrTag port opticClass : Byte)
  | orderAck (tag : Byte) (result : OrderResult)
  | epochAck (epoch : BitVec 32)
  | reset
  deriving DecidableEq, Repr

/-- The bytes of an engine's message on the link of a slot; fields without a use are 0 (Table 11.7-1, R174, R176). -/
def EngineMessage.wire (link : Slot) : EngineMessage → List Byte
  | .hello hdrSlot hdrTag rev bodySlot ports base =>
    wireMessage 1#8 hdrSlot hdrTag ([rev, bodySlot, ports, 0#8] ++ leBytes 2 base.toNat)
  | .fetch tag first count => wireMessage 2#8 (byteOf link.1) (byteOf tag.1) (leBytes 2 first.toNat ++ [count])
  | .status inlet hotspot => wireMessage 3#8 (byteOf link.1) 0#8 [inlet, hotspot]
  | .portNote hdrTag port opticClass => wireMessage 4#8 (byteOf link.1) hdrTag [port, opticClass]
  | .orderAck tag result => wireMessage 5#8 (byteOf link.1) tag (le1 (OrderResult.code result))
  | .epochAck epoch => wireMessage 6#8 (byteOf link.1) 0#8 (leBytes 4 epoch.toNat)
  | .reset => wireMessage 7#8 (byteOf link.1) 0#8 []

/-- The message that received bytes spell by their type, none for a type that no engine sends (Table 11.7-1, R174). -/
def EngineMessage.ofBytes (raw : List Byte) : Option EngineMessage :=
  let tag := raw.getD 4 0#8
  let body (i : Nat) : Byte := raw.getD (5 + i) 0#8
  let field (i w : Nat) : Nat := leNat ((raw.drop (5 + i)).take w)
  match (raw.getD 0 0#8).toNat with
  | 1 => some (.hello (raw.getD 1 0#8) tag (body 0) (body 1) (body 2) (BitVec.ofNat 16 (field 4 2)))
  | 2 => some (.fetch (Fin.ofNat 4 tag.toNat) (BitVec.ofNat 16 (field 0 2)) (body 2))
  | 3 => some (.status (body 0) (body 1))
  | 4 => some (.portNote tag (body 0) (body 1))
  | 5 => some (.orderAck tag (OrderResult.ofCode (body 0).toNat))
  | 6 => some (.epochAck (BitVec.ofNat 32 (field 0 4)))
  | 7 => some .reset
  | _ => none

/-- The command that a message on the link of a slot is. -/
def EngineMessage.command (link : Slot) : EngineMessage → Instr
  | .hello hdrSlot hdrTag rev bodySlot ports base => .hello link hdrSlot hdrTag rev bodySlot ports base
  | .fetch tag first count => .fetch link tag first count
  | .status inlet hotspot => .status link inlet hotspot
  | .portNote hdrTag port opticClass => .portNote link hdrTag port opticClass
  | .orderAck tag result => .orderAck link tag result
  | .epochAck epoch => .epochAck link epoch
  | .reset => .reset link

/-- The reception checks of R63 on the received bytes of a message, in the order of Table 4.2-1: the first
that fails, or none for a valid message. A byte count that is not that of the length field fails check 3. DESIGN CHOICE, log entry 40. -/
def receptionFailure (link : Slot) (raw : List Byte) : Option ReceptionFailure :=
  let covered := raw.take (raw.length - 2)
  let crc := crc16 covered
  if raw.length < 7 ∨ raw.drop (raw.length - 2) ≠ [(crc >>> 8).truncate 8, crc.truncate 8] then some .crc
  else
    let type := (raw.getD 0 0#8).toNat
    match engineBodyLength type with
    | none => some .badType
    | some n =>
      if leNat ((raw.drop 2).take 2) ≠ n ∨ raw.length ≠ n + 7 then some .badLength
      else if type ≠ 1 ∧ (raw.getD 1 0#8).toNat ≠ link.1 then some .badSlot
      else if type = 2 ∧ 3 < (raw.getD 4 0#8).toNat then some .badField
      else if type = 5 ∧ 1 < (raw.getD 5 0#8).toNat then some .badField
      else none

end Sys2Proof.Machine
end

