-- ==== Sys2Proof/Machine/Present.lean ====
section
/-! DEFINITION. How requesters present accesses to the TMC: when presentations are accepted (R48, R61, R62), the
deferred scrubs (R51), the idle timer (R60) and the waiting counts of an idle class (R57). -/

namespace Sys2Proof.Machine

/-- The TMC accepts presentations: initialised, not told of a HOLD that still stands, and not in
SELF_REFRESH (R48, R61, R62). -/
def Tmc.accepting (t : Tmc) : Bool := t.initDone && !t.holdTold && decide (t.power ≠ .selfRefresh)

/-- The access belongs to the blade fetch class (Table 3.4-1). -/
def AccessKind.isFetch : AccessKind → Bool
  | .fetch _ _ _ => true
  | _ => false

/-- The access belongs to the TBP class. -/
def AccessKind.isTbp : AccessKind → Bool
  | .busRead _ _ => true
  | .busWrite _ _ _ _ => true
  | _ => false

/-- The place of an access in the internal rotation; the token read stands in the validator's (R57, R115). -/
def AccessKind.place : AccessKind → Option InternalPlace
  | .swqHead => some .swq
  | .validator _ => some .validator
  | .token _ => some .validator
  | .resync _ _ => some .resync
  | _ => none

/-- The access belongs to the internal class. -/
def AccessKind.isInternal (k : AccessKind) : Bool := k.place.isSome

/-- A deferred scrub is eligible: the part is ARMED and its line is no longer closed to write-back (R51). -/
def scrubEligible (s : State) (e : Bank × Nat) : Bool := s.armed && !bankClosed s e.1

/-- The eligible deferred scrubs, oldest first; none is presented while presentations are not accepted (R61). -/
def eligibleScrubs (s : State) : List (Bank × Nat) :=
  if s.tmc.accepting then s.tmc.deferred.filter (scrubEligible s) else []

/-- The deferred scrub list's entry that an access performs (R51). -/
def AccessKind.scrub : AccessKind → Option (Bank × Nat)
  | .deferredScrub b k => some (b, k)
  | _ => none

/-- The entry has its access presented or in progress. -/
def Tmc.scrubAsked (t : Tmc) (e : Bank × Nat) : Bool :=
  t.presented.any (fun a => decide (a.kind.scrub = some e)) ||
    (t.inProgress.map (fun p => decide (p.access.kind.scrub = some e))).getD false

/-- The accesses of the eligible entries that have none yet, oldest first (R51, R56). -/
def freshScrubs (s : State) : List Access :=
  match s.plu.layout with
  | some l => ((eligibleScrubs s).filter (fun e => !s.tmc.scrubAsked e)).map
      (fun e => ⟨.deferredScrub e.1 e.2, l.bankLine e.1 e.2 / 64⟩)
  | none => []

/-- A presented access may stay presented: it is no deferred scrub, or one whose entry is still eligible (R51, R61). -/
def scrubStays (s : State) (a : Access) : Bool :=
  match a.kind.scrub with
  | some e => (eligibleScrubs s).contains e
  | none => true

/-- The deferred scrubs at the end of a command: one that is no longer eligible, or that a HOLD withdraws, leaves what is
presented, and one that has become eligible is presented behind it, which leaves POWER_DOWN (R51, R60, R61). DESIGN CHOICE, log entry 14. -/
def scrubRest (s : State) : State :=
  let fresh := freshScrubs s
  s.setTmc { s.tmc with
    presented := s.tmc.presented.filter (scrubStays s) ++ fresh
    power := if s.tmc.power = .powerDown ∧ fresh ≠ [] then .active else s.tmc.power }

/-- Bring up to date what follows from what is presented: the idle timer (R60), and the waiting counts of classes with
nothing presented (R57). DEDUCED, log entry 20. -/
def tmcRest (s : State) : State :=
  let t := s.tmc
  let idle := t.initDone && decide (t.power = .active) && t.presented.isEmpty && t.inProgress.isNone && decide (t.debt = 0)
  s.setTmc { t with
    idleAt := if idle then some (t.idleAt.getD (s.now + usec 1)) else none
    tbpWait := if t.presented.any (fun a => a.kind.isTbp) then t.tbpWait else 0
    internalWait := if t.presented.any (fun a => a.kind.isInternal) then t.internalWait else 0 }

/-- Present an access. It leaves POWER_DOWN (R60); while presentations are not accepted the access stays
with its requester (R48, R61). DESIGN CHOICE, log entry 21. -/
def present (s : State) (a : Access) : State :=
  let t := s.tmc
  if t.accepting then
    tmcRest (s.setTmc { t with
      presented := t.presented ++ [a]
      power := if t.power = .powerDown then .active else t.power })
  else s.setTmc { t with parked := t.parked ++ [a] }

/-- Present several accesses in order. -/
def presentAll (s : State) (as : List Access) : State := as.foldl present s

/-- Issue the SWQ's head entry when it has not been issued (R40). -/
def swqIssue (s : State) : State :=
  match s.swq.entries with
  | [] => s
  | e :: rest =>
    if e.issued || !s.tmc.accepting then s
    else present (s.setSwq { s.swq with entries := { e with issued := true } :: rest }) ⟨.swqHead, e.line⟩

end Sys2Proof.Machine
end

