-- ==== Sys2Proof/Machine/Swq.lean ====
section
/-! DEFINITION. The Status Write Queue and the intake of events: entries and merging (R40, R41), the writes
and events that wait in the units (R42), drain reports (R43), handing events to the EVU (R160), lost events
(R164), and the publication of what a command has changed. -/

namespace Sys2Proof.Machine

/-! ### Entries -/

/-- The number of places of the SWQ (R40). -/
def swqPlaces : Nat := 64

/-- Merge a status write into the waiting entry for its line, which keeps its place (R41). -/
def mergeEntry (line : Nat) (bytes : List (Option Byte)) : List SwqEntry → Option (List SwqEntry)
  | [] => none
  | e :: rest =>
    if e.line = line && !e.issued then some ({ e with bytes := overlay e.bytes bytes } :: rest)
    else (mergeEntry line bytes rest).map (e :: ·)

/-- The place of a unit in the cyclic order of R42. -/
def UnitId.index : UnitId → Fin 7
  | .ziu => 0
  | .pau => 1
  | .lu => 2
  | .pbu => 3
  | .ftu => 4
  | .evu => 5
  | .plu => 6

/-- The units in the cyclic order of R42. -/
def allUnits : List UnitId := [.ziu, .pau, .lu, .pbu, .ftu, .evu, .plu]

def WaitItem.isWrite : WaitItem → Bool
  | .write _ => true
  | .event _ => false

/-- What waits in a unit. -/
def Swq.waits (q : Swq) (u : UnitId) : List WaitItem := q.waiting.get u.index

def Swq.setWaits (q : Swq) (u : UnitId) (l : List WaitItem) : Swq := { q with waiting := Vector.put q.waiting u.index l }

/-- A unit has a status write waiting for a place. -/
def Swq.unitWaits (q : Swq) (u : UnitId) : Bool := (q.waits u).any WaitItem.isWrite

/-- The SWQ takes a status write: by merging, or by a new entry at the tail. A new entry needs a free place,
and one that no waiting unit has a claim to unless the place was granted (R41, R42). DESIGN CHOICE, log entry 37. -/
def takeWrite (granted : Bool) (q : Swq) (line : Nat) (bytes : List (Option Byte)) : Option Swq :=
  match mergeEntry line bytes q.entries with
  | some es => some { q with entries := es }
  | none =>
    if q.entries.length < swqPlaces && (granted || !allUnits.any q.unitWaits) then
      some { q with entries := q.entries ++ [⟨q.nextId, line, bytes, false, false, false⟩], nextId := q.nextId + 1 }
    else none

/-- Enqueue the zero-fill from a place of its order for as long as the SWQ takes it; the rest waits in the
PLU (R169). -/
def fillFrom : (fuel : Nat) → State → Nat → State
  | 0, s, k => s.setSwq (s.swq.setWaits .plu (s.swq.waits .plu ++ [.write (.zeroFill k)]))
  | fuel + 1, s, k =>
    match render s (.zeroFill k) with
    | none => s
    | some (line, bytes) =>
      match takeWrite false s.swq line bytes with
      | some q => fillFrom fuel (swqIssue (s.setSwq q)) (k + 1)
      | none => s.setSwq (s.swq.setWaits .plu (s.swq.waits .plu ++ [.write (.zeroFill k)]))

/-- A unit enqueues a status write with its present content, or holds it while there is no place. A write that
already waits is offered later with the latest content (R42). -/
def statusWrite (s : State) (u : UnitId) (item : StatusItem) : State :=
  match item with
  | .zeroFill k => fillFrom swqPlaces s k
  | _ =>
    if (s.swq.waits u).contains (.write item) then s
    else match render s item with
      | none => s
      | some (line, bytes) =>
        match takeWrite false s.swq line bytes with
        | some q => swqIssue (s.setSwq q)
        | none => s.setSwq (s.swq.setWaits u (s.swq.waits u ++ [.write item]))

/-! ### Drain reports (R43) -/

/-- The EVU asks for a drain report on its record; with no entry in the queue it is given at once. -/
def askDrainEvu (s : State) (sev : Severity) : State :=
  if s.swq.entries.isEmpty then s.setEvu { s.evu with phase := .drained sev }
  else (s.setSwq { s.swq with entries := s.swq.entries.map (fun e => { e with evuMark := true }) }).setEvu
    { s.evu with phase := .draining sev }

/-- The PLU asks for a drain report on the zero-fill. -/
def askDrainPlu (s : State) : State :=
  if s.swq.entries.isEmpty then s.setPlu { s.plu with fill := .drained }
  else (s.setSwq { s.swq with entries := s.swq.entries.map (fun e => { e with pluMark := true }) }).setPlu
    { s.plu with fill := .draining }

/-- Give the drain reports whose last marked entry has completed. -/
def giveDrains (s : State) : State :=
  let s1 := match s.evu.phase with
    | .draining sev =>
      if s.swq.entries.any (fun e => e.evuMark) then s else s.setEvu { s.evu with phase := .drained sev }
    | _ => s
  if decide (s1.plu.fill = .draining) && !s1.swq.entries.any (fun e => e.pluMark) then
    s1.setPlu { s1.plu with fill := .drained }
  else s1

/-! ### Taking events -/

/-- The largest 32-bit count. -/
def max32 : Nat := 4294967295

/-- Count a dropped event: both figures rise and stop at 4,294,967,295 (R164). -/
def Evu.drop (e : Evu) : Evu := { e with pending := min max32 (e.pending + 1), lostTotal := min max32 (e.lostTotal + 1) }

/-- Hand an event to the EVU (R160). Before the part is ARMED it is dropped without a sequence; with the intake
full it takes its sequence and is dropped. -/
def handEvent (s : State) (e : Event) : State :=
  if !s.armed then s.setEvu s.evu.drop
  else
    let seq := (s.evu.sequence + 1) % 65536
    let v : Evu := { s.evu with sequence := seq }
    if v.intake.length < 32 then s.setEvu { v with intake := v.intake ++ [⟨seq, s.timestamp, e⟩] }
    else s.setEvu v.drop

/-- Create a RING_LOST when drops are pending and the EVU is free to (R164). -/
def evuRest (s : State) : State :=
  if s.armed && !s.pins.warm && decide (s.evu.phase = .idle) && s.evu.ringLost.isNone && decide (0 < s.evu.pending) then
    let seq := (s.evu.sequence + 1) % 65536
    s.setEvu { s.evu with sequence := seq, ringLost := some ⟨seq, s.timestamp, false⟩ }
  else s

/-- Hand over the events at the front of what waits in a unit. -/
def releaseEvents (u : UnitId) : List WaitItem → State → State
  | .event e :: rest, s => releaseEvents u rest (handEvent s e)
  | items, s => s.setSwq (s.swq.setWaits u items)

/-! ### Publication -/

/-- The port records that differ between two states, each in every field of R92 or in the draw charged; all of
them when the part has become ARMED (R102). DESIGN CHOICE, log entry 72. -/
def changedPorts (o n : State) : List PortRef :=
  (indices 8).flatMap (fun b =>
    (((o.pau.ports.get b).toList.zip (n.pau.ports.get b).toList).zip (indices 48)).filterMap (fun e =>
      if n.armed && (!o.armed || decide (e.1.1 ≠ e.1.2) || decide (e.1.1.draw o.plu.inUse ≠ e.1.2.draw n.plu.inUse))
      then some ⟨b, e.2⟩ else none))

/-- The written content of a status item differs between two states. -/
def itemDiffers (o n : State) (item : StatusItem) : Bool := decide (render o item ≠ render n item)

/-- The blade items to be written: the figures when they have changed, with the link error count when the blade
state has (R104). -/
def changedBlades (o n : State) : List StatusItem :=
  (indices 8).flatMap (fun b =>
    (if itemDiffers o n (.bladeFigures b) then [StatusItem.bladeFigures b] else []) ++
    (if (o.blade b).state ≠ (n.blade b).state then [StatusItem.bladeErrors b] else []))

/-- The status items with changed figures, each with its unit, in the unit order of R42. -/
def changedItems (o n : State) : List (UnitId × StatusItem) :=
  let pick (u : UnitId) (l : List StatusItem) := (l.filter (itemDiffers o n)).map (fun i => (u, i))
  pick .ziu [.controlLine] ++
  (changedPorts o n).map (fun p => (.pau, .portRecord p)) ++ (changedBlades o n).map (fun i => (.pau, i)) ++
  pick .lu ((indices 8).map .tokenSlot ++ [.licenceSummary, .licenceFigures]) ++
  pick .pbu ((indices 4).map .psuRecord ++ [.budgetFigures, .budgetTunables]) ++
  pick .ftu ((indices 12).map .rotorRecord ++ (indices 6).map .trayState ++ [.lostFigures, .zoneDuties] ++
    (indices 8).map .bladeThermal) ++
  pick .plu [.partState, .uptime, .frozenLayout, .policyTunables, .layoutBack 0, .layoutBack 1]

/-- The unit that writes a status item. -/
def StatusItem.owner : StatusItem → UnitId
  | .controlLine => .ziu
  | .portRecord _ => .pau
  | .bladeFigures _ => .pau
  | .bladeErrors _ => .pau
  | .tokenSlot _ => .lu
  | .licenceSummary => .lu
  | .licenceFigures => .lu
  | .budgetFigures => .pbu
  | .psuRecord _ => .pbu
  | .budgetTunables => .pbu
  | .rotorRecord _ => .ftu
  | .trayState _ => .ftu
  | .lostFigures => .ftu
  | .zoneDuties => .ftu
  | .bladeThermal _ => .ftu
  | .eventRecord _ _ => .evu
  | .ringHeader => .evu
  | _ => .plu

/-- Hand on a raised event: behind its unit's status writes of this command while one of them waits, and behind
the unit's events that wait (R42, R160). DEDUCED, log entry 36. -/
def handRaised (written : List (UnitId × StatusItem)) (s : State) (r : Raised) : State :=
  match r.owner with
  | none => handEvent s r.event
  | some u =>
    if (s.swq.waits u).any (fun i => !i.isWrite) ||
        written.any (fun p => decide (p.1 = u) && (s.swq.waits u).contains (.write p.2)) then
      s.setSwq (s.swq.setWaits u (s.swq.waits u ++ [.event r.event]))
    else handEvent s r.event

/-- The status writes of a command: those of changed figures, then those it asks for although nothing has changed. -/
def writtenItems (o : State) (w : Work) : List (UnitId × StatusItem) :=
  let changed := changedItems o w.st
  changed ++ (w.rewrites.map (fun i => (i.owner, i))).filter (fun p => !changed.contains p)

/-- Enqueue the status writes of a command, then hand on its events, then write the ring header if the events
have changed it (R42, R160, R161). DESIGN CHOICE, log entry 35. DESIGN CHOICE, log entry 94. -/
def publishState (o : State) (w : Work) : State :=
  let written := writtenItems o w
  let s1 := written.foldl (fun s p => statusWrite s p.1 p.2) w.st
  let s2 := evuRest (w.events.foldl (handRaised written) s1)
  tmcRest (scrubRest (if itemDiffers o s2 .ringHeader then statusWrite s2 .evu .ringHeader else s2))

/-- The state after a command: the state its work has reached, with the SWQ, the TMC and the EVU as publication
leaves them. -/
def publish (o : State) (w : Work) : State :=
  { w.st with swq := (publishState o w).swq, tmc := (publishState o w).tmc, evu := (publishState o w).evu }

/-- The outcome of a command. -/
def finish (o : State) (w : Work) : Host.Outcome State Fault Refusal := .next (publish o w)

/-- A command that acts when its occasion is given, and otherwise changes nothing: an event that cannot have come
about leaves the part as it is. DESIGN CHOICE, log entry 2. -/
def act (occasion : Bool) (s : State) (op : Work → Work) : Host.Outcome State Fault Refusal :=
  if occasion then finish s (op (Work.start s)) else .next s

end Sys2Proof.Machine
end

