-- ==== Sys2Proof/Machine/EventRecords.lean ====
section
/-! DEFINITION. The events the units raise: kind, severity, source, code and data words, as Tables 9.4-1,
11.5-2 and the event code list of Section 11.5 give them. -/

namespace Sys2Proof.Machine

/-- The occasions of Table 7.1-4, in row order. -/
inductive PsuOccasion where
  | settling
  | online
  | inputLost
  | graceExpired
  | unpowered
  | empty
  | faulted
  | lowLineOn
  | lowLineOff
  deriving DecidableEq, Repr

def PsuOccasion.code : PsuOccasion → Nat
  | .settling => 0
  | .online => 1
  | .inputLost => 2
  | .graceExpired => 3
  | .unpowered => 4
  | .empty => 5
  | .faulted => 6
  | .lowLineOn => 7
  | .lowLineOff => 8

def PsuOccasion.severity : PsuOccasion → Severity
  | .settling => .info
  | .online => .info
  | .faulted => .critical
  | .lowLineOff => .info
  | _ => .warn

/-- A PSU event (R128): the bay's record as it stands after the change, and its former state. C_i is 0 where
the record then has no capacity, at entry to SETTLING and to EMPTY: DESIGN CHOICE, log entry 107. -/
def psuEvent (s : State) (i : Bay) (occasion : PsuOccasion) (former : PsuState) : Event :=
  let p := s.pbu.psus.get i
  ⟨.psu, occasion.severity, i.1, occasion.code, packFigures [(8, former.code), (8, p.state.code)],
    packFigures [(24, p.capacity.getD 0)], packFigures [(8, flagNat (s.pins.lowLine.get i)), (8, flagNat p.counted)]⟩

/-- A rotor FAN event (R152, Table 8.3-2 rows 0 to 2): entry to SLOW or STALLED, or return to OK. -/
def rotorEvent (s : State) (r : Rotor) (former : RotorState) : Event :=
  let x := s.ftu.rotors.get r
  let row := if x.state = .slow then 0 else if x.state = .stalled then 1 else 2
  ⟨.fan, if row = 2 then .info else .warn, r.1, row,
    packFigures [(8, former.code), (8, x.state.code), (8, (trayOf r).1)], packFigures [(16, x.speed), (16, x.expected)],
    packFigures [(8, s.ftu.lost), (8, s.ftu.derate)]⟩

/-- A tray FAN event (R152, rows 3 to 5): entry to DEGRADED, FAILED or OK. -/
def trayEvent (s : State) (t : Tray) (former : TrayState) : Event :=
  let x := s.ftu.trays.get t
  let row := if x = .degraded then 3 else if x = .failed then 4 else 5
  ⟨.fan, if row = 3 then .warn else if row = 4 then .critical else .info, t.1, row,
    packFigures [(8, former.code), (8, x.code), (8, (zoneOfTray t).1)], packFigures [(8, s.ftu.lost)],
    packFigures [(8, s.ftu.derate)]⟩

/-- A blade FAN event (R155, Table 8.4-2): the code is 16 plus the row. -/
def bladeFanEvent (s : State) (b : Slot) (row : Nat) (former : ThermalState) : Event :=
  let x := s.ftu.temps.get b
  ⟨.fan, if row = 1 then .critical else if row = 2 ∨ row = 5 then .info else .warn, b.1, 16 + row,
    packFigures [(8, former.code), (8, x.thermal.code), (8, flagNat x.fresh)], packFigures [(16, twos 16 x.input)],
    packFigures [(8, twos 8 (x.inlet.getD 0)), (8, twos 8 (x.hotspot.getD 0))]⟩

/-- The severity of a BLADE event by the new state (Table 5.4-2). -/
def BladeState.severity : BladeState → Severity
  | .waitPower => .warn
  | .lost => .warn
  | .faulted => .critical
  | _ => .info

/-- A BLADE event (R104). -/
def bladeEvent (s : State) (b : Slot) (former : BladeState) : Event :=
  let x := s.blade b
  ⟨.blade, x.state.severity, b.1, x.state.code, packFigures [(8, former.code), (8, x.cause.code)],
    packFigures [(16, x.portCount.getD 0)], packFigures [(24, x.base)]⟩

/-- A PORT event (R103); an FE_REFUSED event also carries the refused order's action. -/
def portEvent (s : State) (p : PortRef) (cause : PortCause) (severity : Severity) (action : Nat) : Event :=
  let x := s.port p
  ⟨.port, severity, portNumber p, cause.code, packFigures [(8, x.state.code), (8, action)],
    packFigures [(16, x.lastSeq), (16, x.units)], packFigures [(24, x.draw s.plu.inUse)]⟩

/-- The occasions of Table 7.7-1, in row order. -/
inductive BudgetOccasion where
  | holdDeclared
  | holdEnded
  | redundancyRaised
  | redundancyCleared
  | criticalRaised
  | criticalCleared
  | shed
  deriving DecidableEq, Repr

def BudgetOccasion.code : BudgetOccasion → Nat
  | .holdDeclared => 0
  | .holdEnded => 1
  | .redundancyRaised => 2
  | .redundancyCleared => 3
  | .criticalRaised => 4
  | .criticalCleared => 5
  | .shed => 6

def BudgetOccasion.severity : BudgetOccasion → Severity
  | .holdDeclared => .critical
  | .criticalRaised => .critical
  | .redundancyRaised => .warn
  | .shed => .warn
  | _ => .info

/-- A BUDGET event (R145); the source holds the counted PSUs in bits 0 to 3 and the ports selected above. -/
def budgetEvent (s : State) (occasion : BudgetOccasion) (selected : Nat) : Event :=
  ⟨.budget, occasion.severity, packFigures [(4, s.countedIn (indices 4)), (12, selected)], occasion.code,
    packFigures [(24, s.pbu.available), (24, s.pbu.supply)], packFigures [(24, s.projected), (24, twos 24 s.headroom)], 0⟩

/-- The severity of a ZONE event for a result (Table 1.9-1). -/
def zoneSeverity (r : CommitResult) (detail : Nat) : Severity :=
  match r with
  | .noChange => .info
  | .committed => .info
  | .aborted => if detail = 0 then .info else .warn
  | _ => .warn

/-- A ZONE event for a result: the last accepted sequence, the result and its detail (R28). -/
def zoneEvent (z : Ziu) : Event :=
  ⟨.zone, zoneSeverity z.result z.detail, 0, z.result.code, packFigures [(16, z.accepted)], packFigures [(32, z.detail)], 0⟩

/-- The ZONE event of a flip (code 32). -/
def flipEvent (z : Ziu) : Event :=
  ⟨.zone, .info, 0, 32, packFigures [(32, z.epoch)], packFigures [(16, z.liveZones)], packFigures [(8, z.ackSet.length)]⟩

/-- The ZONE event of an acknowledgement timeout (code 33). -/
def ackTimeoutEvent (z : Ziu) (forced : Nat) : Event :=
  ⟨.zone, .warn, 0, 33, packFigures [(32, z.epoch)], packFigures [(8, forced)], 0⟩

/-- The severity of a LICENSE event (Table 6.8-1). -/
def TokenResult.severity : TokenResult → Severity
  | .reinstated => .info
  | .applied => .info
  | .nvFault => .critical
  | _ => .warn

/-- A LICENSE event for a slot's result, or for BUSY with the busy sequence (R122). DESIGN CHOICE, log entry 98. -/
def licenseEvent (k : TokenIx) (t : TokenSlot) (result : TokenResult) (seq : Nat) : Event :=
  ⟨.license, result.severity, k.1, result.code, packFigures [(32, t.detail)], packFigures [(8, t.feature), (16, t.units)],
    packFigures [(32, t.tokenSeq), (16, seq)]⟩

/-- A MEMORY event of the TMC for an error counter (R54): code 0 CORRECTED, 1 UNCORRECTABLE, 2 POISONED_WRITE. -/
def memoryReport (code : Nat) (c : ErrorCounter) : Event :=
  ⟨.memory, if code = 0 then .info else .warn, 0, code, packFigures [(32, c.count)], packFigures [(32, c.first)],
    packFigures [(32, c.last)]⟩

/-- A MEMORY event of the ZIU: MERGE_COPY (code 3, R9) or RESYNC_COPY (code 4, R24), with the bank read. -/
def zoneMemoryEvent (code : Nat) (bank : Bank) (line : Nat) : Event :=
  ⟨.memory, .warn, bank.1, code, packFigures [(16, line)], 0, 0⟩

/-- The reasons of LINK events in code order (Table 11.1-1). -/
inductive LinkReason where
  | badType
  | badLength
  | badSlot
  | badField
  | badHello
  | fetchTagReuse
  | unknownOrderTag
  | badNote
  deriving DecidableEq, Repr

def LinkReason.code : LinkReason → Nat
  | .badType => 0
  | .badLength => 1
  | .badSlot => 2
  | .badField => 3
  | .badHello => 4
  | .fetchTagReuse => 5
  | .unknownOrderTag => 6
  | .badNote => 7

/-- A LINK event (R64): the message type and the header tag. -/
def linkEvent (b : Slot) (reason : LinkReason) (type tag : Nat) : Event :=
  ⟨.link, .warn, b.1, reason.code, packFigures [(8, type)], packFigures [(8, tag)], 0⟩

/-- A BUS_PROTOCOL event for a request with an outstanding tag (R30). -/
def busProtocolEvent (tag : BusTag) (isWrite : Bool) (addr len : Nat) : Event :=
  ⟨.busProtocol, .warn, tag.1, 0, packFigures [(8, flagNat isWrite), (8, len)], packFigures [(32, addr)], 0⟩

/-- The RING_LOST event with the figures of the full check it passes (R164). -/
def ringLostEvent (beforeArm : Bool) (pending total : Nat) : Event :=
  ⟨.ringLost, .warn, 0, if beforeArm then 0 else 1, packFigures [(32, pending)], packFigures [(32, total)], 0⟩

end Sys2Proof.Machine
end

