-- ==== Sys2Proof/Machine/Transmit.lean ====
section
/-! DEFINITION. The transmitter of a blade link: which ready message it takes (R72), where an order is placed
when it is taken (R78), and handing an order to the BLC (R77). -/

namespace Sys2Proof.Machine

/-- The lowest free order tag. -/
def Link.freeOrderTag (l : Link) : Option OrderTag := (indices 8).find? (fun t => (l.orders.get t).isNone)

/-- The queue's head is ready: the link is UP, no WELCOME waits, and an order tag is free (R78). -/
def Link.orderReady (l : Link) : Bool :=
  decide (l.state = .up) && l.welcome.isNone && !l.queue.isEmpty && l.freeOrderTag.isSome

/-- Take the queue's head: it goes to the lowest free tag and into transmission (R78). DEDUCED, log entry 38. -/
def Link.takeOrder (l : Link) : Link :=
  match l.queue, l.freeOrderTag with
  | o :: rest, some t =>
    { l with queue := rest, orders := Vector.put l.orders t (some ⟨o, none⟩), dataRun := 0, sending := some ⟨.order t o, true⟩ }
  | _, _ => l

/-- Take the earliest built FETCH_DATA. -/
def Link.takeData (l : Link) : Link :=
  match l.ready with
  | d :: rest => { l with ready := rest, dataRun := l.dataRun + 1, sending := some ⟨.fetchData d, true⟩ }
  | [] => l

/-- The link sends messages: it is waiting for HELLO or UP (R72). -/
def LinkState.sends : LinkState → Bool
  | .firstWait => true
  | .returnWait => true
  | .up => true
  | _ => false

/-- A free transmitter takes the next ready message: WELCOME, the EPOCH notice, an order after four FETCH_DATA,
the earliest FETCH_DATA, an order (R72). -/
def Link.pump (l : Link) : Link :=
  if l.sending.isSome || !l.state.sends then l
  else match l.welcome with
    | some e => { l with welcome := none, sending := some ⟨.welcome e, true⟩ }
    | none => match l.notice with
      | some e => { l with notice := none, sending := some ⟨.epoch e, true⟩ }
      | none =>
        if l.orderReady && decide (4 ≤ l.dataRun) then l.takeOrder
        else if l.ready.isEmpty then (if l.orderReady then l.takeOrder else l)
        else l.takeData

/-- Let the transmitter of a slot's link take its next message. -/
def pumpLink (s : State) (b : Slot) : State := s.setLink b (s.link b).pump

/-- Queue a built FETCH_DATA on a link. -/
def queueData (s : State) (b : Slot) (d : FetchData) : State :=
  pumpLink (s.setLink b { s.link b with ready := (s.link b).ready ++ [d] }) b

/-- Hand an order to the BLC: it joins the queue of an UP link, and is abandoned at once on any other (R77). -/
def handOrder (s : State) (b : Slot) (o : Order) : State :=
  if (s.link b).state = .up then pumpLink (s.setLink b { s.link b with queue := (s.link b).queue ++ [o] }) b else s

/-- The end of a transmission: a live FETCH_DATA frees its tag unless it is an OVERRUN answer (R73, R75), and a
live ORDER that still waits for its answer starts its 250 ms deadline (R78). -/
def Link.sent (l : Link) (now : Nat) : Link :=
  match l.sending with
  | some ⟨.fetchData d, true⟩ =>
    if d.status = .overrun then { l with sending := none }
    else { l with sending := none, fetches := Vector.put l.fetches d.tag none }
  | some ⟨.order t _, true⟩ =>
    { l with sending := none, orders := Vector.put l.orders t ((l.orders.get t).map (fun x => { x with deadline := some (now + msec 250) })) }
  | _ => { l with sending := none }

end Sys2Proof.Machine
end

