-- ==== Sys2Proof/Machine/Zone.lean ====
section
/-! DEFINITION. The Zone Image Unit's shared operations: results and ZONE events (R10, R28), the resync pass
(R23 to R25), the end of AWAIT_ACK (R18, R19, R22), the flip (R17), the end of a validation (R15, R16), and the
checks of a staged image (R14, R15). -/

namespace Sys2Proof.Machine

/-- Change the ZIU. -/
def Work.setZiu (w : Work) (z : Ziu) : Work := w.map (fun s => s.setZiu z)

/-- Write a last result with its detail and sequence, and raise its ZONE event; PENDING has none (R28). -/
def zoneResult (w : Work) (r : CommitResult) (detail seq : Nat) : Work :=
  let z := { w.st.ziu with result := r, detail := detail, accepted := seq }
  if r = .pending then w.setZiu z else (w.setZiu z).raise .ziu (zoneEvent z)

/-- Turn every dirty map entry in one state into another (R8). -/
def turnLines (a b : LineState) (d : List (Nat × LineState)) : List (Nat × LineState) :=
  d.map (fun e => if e.2 = a then (e.1, b) else e)

/-! ### Resync -/

/-- The first RESYNC line at or after a position; error-held lines ahead of the position are tried again (R26). -/
def Ziu.nextResync (z : Ziu) (position : Nat) : Option Nat :=
  (z.dirty.find? (fun e => decide (position ≤ e.1) && decide (e.2 = .resync ∨ e.2 = .errorHeld))).map (·.1)

/-- The end of a resync pass (R25). -/
def resyncPassEnd (w : Work) : Work :=
  let z := w.st.ziu
  let held := z.errorHeldCount
  let w := w.setZiu { z with zone := .idle, copying := none, resyncPos := 4096 }
  if z.aborting then zoneResult w .aborted held z.started
  else if held = 0 then zoneResult w .committed 0 z.started
  else zoneResult w .committedWithErrors held z.started

/-- The resync engine goes on from its position: it asks for the copy of the next RESYNC line, or the pass ends
(R23, R25). A copy in progress is left alone. -/
def resyncAdvance (w : Work) : Work :=
  let z := w.st.ziu
  if z.zone = .resyncing ∧ z.copying = none then
    match z.nextResync z.resyncPos, w.st.plu.layout with
    | some line, some l =>
      (w.setZiu { z with resyncPos := line, copying := some line }).map (fun s =>
        present s ⟨.resync line (l.bankLine z.liveBank line / 64), l.bankLine z.stageBank line / 64⟩)
    | _, _ => resyncPassEnd w
  else w

/-- Begin a resync pass at line 1 (R19, R26). -/
def startResync (w : Work) : Work :=
  resyncAdvance (w.setZiu { w.st.ziu with zone := .resyncing, resyncPos := 1, copying := none })

/-! ### Acknowledgement -/

/-- AWAIT_ACK ends as soon as the acknowledgement set is empty and no fetch is in flight against the old bank,
which is the stage bank (R19). -/
def testAwait (w : Work) : Work :=
  let z := w.st.ziu
  if z.zone = .awaitAck ∧ z.ackSet = [] ∧ z.inFlight.get z.stageBank = 0 then
    startResync (w.setZiu { z with ackAt := none })
  else w

/-- The ZIU without a blade in its acknowledgement set; the timer stops when the set is empty (R18, R20). -/
def Ziu.without (z : Ziu) (b : Slot) : Ziu :=
  let left := z.ackSet.filter (fun x => decide (x ≠ b))
  { z with ackSet := left, ackAt := if left = [] then none else z.ackAt }

/-- A blade leaves the acknowledgement set (R18). The timer stops with the last of them, however it left. DEDUCED, log entry 41. -/
def leaveAckSet (w : Work) (b : Slot) : Work :=
  if w.st.ziu.ackSet.contains b then testAwait (w.setZiu (w.st.ziu.without b)) else w

/-- A bank's in-flight fetch count falls by 1 (R22). -/
def dropInFlight (w : Work) (b : Bank) : Work :=
  let z := w.st.ziu
  testAwait (w.setZiu { z with inFlight := Vector.put z.inFlight b (z.inFlight.get b - 1) })

/-! ### Validation and the flip -/

/-- Drop the validator reads that still wait to be presented; a read already presented is carried out and
discarded when it completes (R16). DESIGN CHOICE, log entry 33. -/
def withdrawValidator (s : State) : State :=
  let keep (a : Access) : Bool := match a.kind with
    | .validator _ => false
    | _ => true
  s.setTmc { s.tmc with parked := s.tmc.parked.filter keep }

/-- End a validation: the zone state returns to IDLE and its reads are discarded (R15, R16, R26, R27). -/
def endValidation (w : Work) : Work :=
  (w.setZiu { w.st.ziu with zone := .idle, validator := none }).map withdrawValidator

/-- A validation fails with a result; the last accepted sequence is the COMMIT's (R15). DEDUCED, log entry 30. -/
def validationFails (w : Work) (r : CommitResult) (detail : Nat) : Work :=
  zoneResult (endValidation w) r detail w.st.ziu.started

/-- The slots whose link is UP. -/
def upSlots (s : State) : List Slot := (indices 8).filter (fun b => decide ((s.link b).state = .up))

/-- Queue an EPOCH notice on a link; a later notice replaces one that waits (R81). -/
def queueNotice (s : State) (epoch : Nat) (b : Slot) : State :=
  pumpLink (s.setLink b { s.link b with notice := some epoch }) b

/-- The flip (R17): swap flag and epoch change together, STAGED lines become RESYNC, the blades that are UP owe
an acknowledgement and are sent an EPOCH notice, and the timer starts at 500 ms. -/
def flip (w : Work) (zones members : Nat) : Work :=
  let z := w.st.ziu
  let blades := upSlots w.st
  let z' := { z with
    swap := !z.swap, epoch := z.epoch + 1, dirty := turnLines .staged .resync z.dirty, zone := .awaitAck
    ackSet := blades, ackAt := some (w.st.now + msec 500), liveZones := zones, liveMembers := members
    validator := none, aborting := false }
  let w1 := (w.setZiu z').raise .ziu (flipEvent z')
  testAwait (w1.map (fun s => blades.foldl (fun s b => queueNotice s z'.epoch b) s))

/-! ### Checks of a staged image -/

/-- The eight directory entries of a directory line as read (Table 11.3-2). -/
def lineEntries (bytes : List Byte) : List DirEntry :=
  (List.range 8).map (fun i =>
    let e := bytes.drop (8 * i)
    ⟨leNat (e.take 2), leNat ((e.drop 2).take 2), leNat ((e.drop 4).take 2)⟩)

/-- Entries with their indices. -/
def numbered (l : List DirEntry) : List (DirEntry × Nat) := l.zip (List.range l.length)

/-- Two ranges of member entries share an entry. -/
def DirEntry.meets (a b : DirEntry) : Bool := decide (a.start < b.start + b.count) && decide (b.start < a.start + a.count)

/-- The lowest index whose entry stands in a relation to an earlier one. -/
def firstClash (rel : DirEntry → DirEntry → Bool) (l : List DirEntry) : Option Nat :=
  ((numbered l).find? (fun e => (l.take e.2).any (fun a => rel a e.1))).map (·.2)

/-- The directory checks 1 to 5 of Table 1.4-1: the failure and its detail, or none. DEDUCED, log entry 34. -/
def directoryFailure (declared : Nat) (entries : List DirEntry) : Option (CommitResult × Nat) :=
  if 1024 < declared then some (.count, declared)
  else
    let used := entries.take declared
    match (numbered entries).find? (fun e => if e.2 < declared then decide (e.1.zoneId = 0) else decide (e.1.zoneId ≠ 0)) with
    | some e => some (.directory, e.2)
    | none => match firstClash (fun a b => decide (a.zoneId = b.zoneId)) used with
      | some j => some (.duplicate, j)
      | none =>
        match (numbered used).find? (fun e =>
          decide (e.1.count < 1) || decide (256 < e.1.count) || decide (15868 < e.1.start + e.1.count)) with
        | some e => some (.range, e.2)
        | none => match firstClash DirEntry.meets used with
          | some j => some (.overlap, j)
          | none => none

/-- A member entry is valid: a PORT entry with slot 0 to 7, port 0 to 47 and name 0, or a NODE entry with a
name other than 0 (R15). -/
def memberValid (bytes : List Byte) : Bool :=
  let kind := leNat (bytes.take 1)
  let name := leNat ((bytes.drop 8).take 8)
  if kind = 1 then
    decide (leNat ((bytes.drop 1).take 1) ≤ 7) && decide (leNat ((bytes.drop 2).take 1) ≤ 47) && decide (name = 0)
  else decide (kind = 2) && decide (name ≠ 0)

/-- The bank line of a member entry (R13). -/
def memberLine (m : Nat) : Nat := 129 + m / 4

/-- The first member entry of a range in a member line that fails check 6. -/
def memberFailure (e : DirEntry) (line : Nat) (bytes : List Byte) : Option Nat :=
  ((List.range 4).map (fun i => 4 * (line - 129) + i)).find? (fun m =>
    decide (e.start ≤ m) && decide (m < e.start + e.count) && !memberValid ((bytes.drop (16 * (m % 4))).take 16))

/-- Present the validator's read of a bank line of the stage bank (R13). -/
def presentValidator (w : Work) (run line : Nat) : Work :=
  match w.st.plu.layout with
  | some l => w.map (fun s => present s ⟨.validator run, l.bankLine w.st.ziu.stageBank line / 64⟩)
  | none => w

/-- The sum of the member counts of the image's zones (R10). -/
def memberTotal (l : List DirEntry) : Nat := l.foldl (fun acc e => acc + e.count) 0

/-- The validator goes on to the range of a directory entry, or validation succeeds and the flip follows (R15). -/
def validateRange (w : Work) (v : Validator) (i : Nat) : Work :=
  let used := v.entries.take w.st.ziu.declared
  match used[i]? with
  | none => flip w w.st.ziu.declared (memberTotal used)
  | some e =>
    let line := memberLine e.start
    presentValidator (w.setZiu { w.st.ziu with validator := some { v with line := line, range := some i } }) v.run line

/-- A validator read has delivered its line without an uncorrectable error: the directory pass or the member
pass advances (R13 to R15). -/
def validatorAdvance (w : Work) (v : Validator) (bytes : List Byte) : Work :=
  match v.range with
  | none =>
    let entries := v.entries ++ lineEntries bytes
    if v.line < 128 then
      presentValidator (w.setZiu { w.st.ziu with validator := some { v with line := v.line + 1, entries := entries } })
        v.run (v.line + 1)
    else match directoryFailure w.st.ziu.declared entries with
      | some (r, d) => validationFails w r d
      | none => validateRange w { v with entries := entries } 0
  | some i =>
    match v.entries[i]? with
    | none => validateRange w v (i + 1)
    | some e => match memberFailure e v.line bytes with
      | some m => validationFails w .member m
      | none =>
        if v.line < memberLine (e.start + e.count - 1) then
          presentValidator (w.setZiu { w.st.ziu with validator := some { v with line := v.line + 1 } }) v.run (v.line + 1)
        else validateRange w v (i + 1)

end Sys2Proof.Machine
end

