-- ==== Sys2Proof/Machine/Arbiter.lean ====
section
/-! DEFINITION. The Table Memory Controller's line operations with the error-correcting code (R47 to R55) and
the arbiter's choice at a grant (R56 to R58). A granted access is carried out whole at its grant; the completion
commands deliver what it gave. -/

namespace Sys2Proof.Machine

/-! ### Words and their check codes -/

/-- The condition of word `i` of a line. -/
def Tmc.mark (t : Tmc) (line i : Nat) : WordMark := sparseGet .clean t.marks (8 * line + i)

def Tmc.setMark (t : Tmc) (line i : Nat) (m : WordMark) : Tmc := { t with marks := sparsePut .clean (8 * line + i) m t.marks }

/-- A word in which one more bit, or two, have gone wrong; the code corrects one wrong bit and detects two (R47). -/
def WordMark.disturb (m : WordMark) (double : Bool) : WordMark :=
  match m with
  | .clean => if double then .twoWrong else .oneWrong
  | .oneWrong => .twoWrong
  | .twoWrong => .twoWrong
  | .poison => .poison

/-- The wrong bits that have come about in a line since it was last accessed. DESIGN CHOICE, log entry 11. -/
def Tmc.applyFlips (t : Tmc) (line : Nat) (flips : List BitFlip) : Tmc :=
  flips.foldl (fun t f => t.setMark line f.word.1 ((t.mark line f.word.1).disturb f.double)) t

/-- The word cannot be corrected: two wrong bits or the poison code (Section 3.3). -/
def WordMark.bad : WordMark → Bool
  | .twoWrong => true
  | .poison => true
  | _ => false

/-- The line has an uncorrectable word (R49). -/
def Tmc.lineBad (t : Tmc) (line : Nat) : Bool := (List.range 8).any (fun i => (t.mark line i).bad)

/-- The number of words of a line with one wrong bit. -/
def Tmc.correctable (t : Tmc) (line : Nat) : Nat := ((List.range 8).filter (fun i => decide (t.mark line i = .oneWrong))).length

/-- The number of words of a line that are found with one wrong bit and stood clean before the access: their bit has come about since
(R51). DEDUCED, log entry 13. -/
def Tmc.freshlyWrong (before found : Tmc) (line : Nat) : Nat :=
  ((List.range 8).filter (fun i => decide (found.mark line i = .oneWrong) && decide (before.mark line i = .clean))).length

/-- Count occurrences at a line, keeping the first and last byte offset of the period (R54). DESIGN CHOICE, log entry 19. -/
def ErrorCounter.add (c : ErrorCounter) (n line : Nat) : ErrorCounter :=
  if n = 0 then c
  else ⟨min max32 (c.count + n), if c.count = 0 then 64 * line else c.first, 64 * line⟩

/-- A write-back: corrected words get fresh codes, uncorrectable ones the poison code (R50). -/
def Tmc.writeBack (t : Tmc) (line : Nat) : Tmc :=
  (List.range 8).foldl (fun t i => match t.mark line i with
    | .oneWrong => t.setMark line i .clean
    | .twoWrong => t.setMark line i .poison
    | _ => t) t

/-- Add an entry to the deferred scrub list, unless it is listed or the list holds 16 (R51). -/
def Tmc.defer (t : Tmc) (e : Bank × Nat) : Tmc :=
  if t.deferred.contains e || decide (16 ≤ t.deferred.length) then t else { t with deferred := t.deferred ++ [e] }

/-! ### Line operations -/

/-- What a line operation leaves: the state, the line's data with every single-bit error put right, and whether
the line was uncorrectable. -/
structure LineResult where
  st   : State
  data : List Byte
  bad  : Bool

/-- The follow-up of a read that found corrected words: write back at once when the line is open, otherwise
list it for a deferred scrub (R50, R51). DEDUCED, log entry 13. -/
def scrubRead (s : State) (line : Nat) : State :=
  match bankLineOf s line with
  | some (b, k) => if bankClosed s b then s.setTmc (s.tmc.defer (b, k)) else s.setTmc (s.tmc.writeBack line)
  | none => s.setTmc (s.tmc.writeBack line)

/-- A read of a line by any requester but the scrubs (R49, R50). -/
def lineRead (s : State) (line : Nat) (flips : List BitFlip) : LineResult :=
  let t := s.tmc.applyFlips line flips
  let n := t.correctable line
  let s1 := s.setTmc { t with corrected := t.corrected.add n line }
  ⟨if n = 0 then s1 else scrubRead s1 line, t.mem.readBytes (64 * line) 64, t.lineBad line⟩

/-- The patrol read: a corrected line is scrubbed, an uncorrectable one is counted and not written (R55). DESIGN CHOICE, log entry 81. -/
def patrolRead (s : State) (line : Nat) (flips : List BitFlip) : LineResult :=
  let t := s.tmc.applyFlips line flips
  let n := t.correctable line
  let bad := t.lineBad line
  let s1 := s.setTmc { t with
    corrected := t.corrected.add n line, uncorrectable := t.uncorrectable.add (if bad then 1 else 0) line }
  ⟨if n = 0 || bad then s1 else scrubRead s1 line, t.mem.readBytes (64 * line) 64, bad⟩

/-- A deferred scrub of a line: a word that still has its wrong bit is not counted a second time (R51), one whose bit has come about
since is counted as on any read (R49, R54); a corrected line is written back, and an uncorrectable one is counted and not written
(R51). DEDUCED, log entry 13. -/
def deferredRead (s : State) (line : Nat) (flips : List BitFlip) : LineResult :=
  let t := s.tmc.applyFlips line flips
  let bad := t.lineBad line
  let t1 := { t with
    corrected := t.corrected.add (s.tmc.freshlyWrong t line) line, uncorrectable := t.uncorrectable.add (if bad then 1 else 0) line }
  ⟨s.setTmc (if bad then t1 else t1.writeBack line), t.mem.readBytes (64 * line) 64, bad⟩

/-- The enabled bytes of word `i` of a masked write. -/
def wordMask (bytes : List (Option Byte)) (i : Nat) : List (Option Byte) := (bytes.drop (8 * i)).take 8

/-- The word is enabled in all 8 bytes. -/
def wordFull (bytes : List (Option Byte)) (i : Nat) : Bool := (wordMask bytes i).all (·.isSome)

/-- A masked write of a line: a plain write when all 64 bytes are enabled, otherwise a read-modify-write that
corrects single errors and keeps the poison code on words it cannot renew (R52). -/
def lineWrite (s : State) (line : Nat) (bytes : List (Option Byte)) (flips : List BitFlip) : State :=
  let t := s.tmc.applyFlips line flips
  let kept := (List.range 8).filter (fun i => !wordFull bytes i)
  let fixed := (kept.filter (fun i => decide (t.mark line i = .oneWrong))).length
  let poisoned := kept.any (fun i => (t.mark line i).bad)
  let t1 := (List.range 8).foldl (fun t i =>
    t.setMark line i (if wordFull bytes i then .clean else if (t.mark line i).bad then .poison else .clean)) t
  s.setTmc { t1 with
    mem := t1.mem.writeMasked (64 * line) bytes
    corrected := t1.corrected.add fixed line
    poisonedWrite := t1.poisonedWrite.add (if poisoned then 1 else 0) line }

/-! ### Carrying out a granted access -/

/-- Record that line `index` of a bus read has been read. -/
def BusJob.take (j : BusJob) (index : Nat) (data : List Byte) (bad : Bool) : BusJob :=
  { j with got := j.got.set index data, poisoned := j.poisoned || bad }

/-- Change the bus job of a number. -/
def Tmc.changeJob (t : Tmc) (id : Nat) (f : BusJob → BusJob) : Tmc :=
  { t with jobs := t.jobs.map (fun j => if j.id = id then f j else j) }

/-- Carry out a copy-first merge: the live line is copied to the stage line unless it is uncorrectable, and the
write lands on it (R9). The flag says that the copy failed. -/
def mergeWrite (s : State) (line live : Nat) (bytes : List (Option Byte)) (flips : List BitFlip) : State × Bool :=
  let r := lineRead s live flips
  if r.bad then (lineWrite r.st line bytes [], true)
  else (lineWrite (lineWrite r.st line (r.data.map some) []) line bytes [], false)

/-- Carry out a resync copy: nothing is written when the live line is uncorrectable (R23, R24). -/
def copyLine (s : State) (line live : Nat) (flips : List BitFlip) : State × Bool :=
  let r := lineRead s live flips
  if r.bad then (r.st, true) else (lineWrite r.st line (r.data.map some) [], false)

/-- Carry out a granted access whole; the result stands with the access in progress, in the fetch slot or in
the bus job. -/
def carryOut (s : State) (a : Access) (flips : List BitFlip) : LineResult :=
  match a.kind with
  | .fetch b tag _ =>
    let r := lineRead s a.line flips
    match (r.st.link b).fetches.get tag with
    | some f =>
      let l := r.st.link b
      let f' := { f with got := f.got ++ [r.data], failed := f.failed || r.bad }
      ⟨r.st.setLink b { l with fetches := Vector.put l.fetches tag (some f') }, [], r.bad⟩
    | none => r
  | .abandoned _ => lineRead s a.line flips
  | .busRead job i =>
    let r := lineRead s a.line flips
    ⟨r.st.setTmc (r.st.tmc.changeJob job (fun j => j.take i r.data r.bad)), [], r.bad⟩
  | .busWrite job _ bytes merge =>
    match merge with
    | none => ⟨lineWrite s a.line bytes flips, [], false⟩
    | some live =>
      let r := mergeWrite s a.line live bytes flips
      let failed := ((bankLineOf s a.line).map (·.2)).toList
      if r.2 then ⟨r.1.setTmc (r.1.tmc.changeJob job (fun j => { j with mergeErrors := j.mergeErrors ++ failed })), [], true⟩
      else ⟨r.1, [], false⟩
  | .swqHead =>
    match s.swq.entries with
    | e :: _ => ⟨lineWrite s a.line e.bytes flips, [], false⟩
    | [] => ⟨s, [], false⟩
  | .validator _ => lineRead s a.line flips
  | .token _ => lineRead s a.line flips
  | .resync _ live => let r := copyLine s a.line live flips; ⟨r.1, [], r.2⟩
  | .deferredScrub _ _ => deferredRead s a.line flips
  | .patrol => patrolRead s a.line flips

/-! ### The arbiter -/

/-- The physical lines an access touches: its own, and the live line that a copy reads. -/
def Access.lines (a : Access) : List Nat :=
  match a.kind with
  | .resync _ live => [a.line, live]
  | .busWrite _ _ _ (some live) => [a.line, live]
  | _ => [a.line]

/-- Two accesses touch a common line. -/
def Access.clashes (a b : Access) : Bool := a.lines.any (fun x => b.lines.contains x)

/-- The presented accesses that wait behind no earlier access to the same line, in order (R58). -/
def eligibleFrom : (before after : List Access) → List Access
  | _, [] => []
  | before, a :: rest =>
    if before.any (fun b => a.clashes b) then eligibleFrom (before ++ [a]) rest
    else a :: eligibleFrom (before ++ [a]) rest

def Tmc.eligible (t : Tmc) : List Access := eligibleFrom [] t.presented

/-- The slot and tag of a fetch read. -/
def Access.slot (a : Access) : Option Slot :=
  match a.kind with
  | .fetch b _ _ => some b
  | _ => none

/-- The first fetch read presented for a slot: its fetches are served in order of acceptance (R57). -/
def Tmc.firstFetch (t : Tmc) (b : Slot) : Option Access := t.presented.find? (fun a => decide (a.slot = some b))

/-- The slots in rotation after the one last granted. -/
def rotation (last : Slot) : List Slot := (indices 8).map (fun i => last + 1 + i)

/-- The blade fetch read to grant: the next slot in rotation whose first read is eligible (R57). DEDUCED, log entry 16. -/
def Tmc.pickFetch (t : Tmc) : Option Access :=
  (rotation t.lastSlot).findSome? (fun b =>
    match t.firstFetch b with
    | some a => if t.eligible.contains a then some a else none
    | none => none)

/-- The places of the internal rotation after the one last served (R57). -/
def InternalPlace.after : InternalPlace → List InternalPlace
  | .swq => [.validator, .resync, .swq]
  | .validator => [.resync, .swq, .validator]
  | .resync => [.swq, .validator, .resync]

/-- The eligible access of a place; in the validator's place the validator's read comes first and the token read
at the next turn (R115). DEDUCED, log entry 55. -/
def Tmc.pickPlace (t : Tmc) (p : InternalPlace) : Option Access :=
  let here := t.eligible.filter (fun a => decide (a.kind.place = some p))
  let isToken (a : Access) : Bool := match a.kind with
    | .token _ => true
    | _ => false
  let tokens := here.filter isToken
  let others := here.filter (fun a => !isToken a)
  if t.tokenNext then (tokens ++ others).head? else (others ++ tokens).head?

/-- The internal access to grant, by rotation (R57). -/
def Tmc.pickInternal (t : Tmc) : Option Access := t.lastInternal.after.findSome? t.pickPlace

/-- The oldest eligible TBP access. -/
def Tmc.pickTbp (t : Tmc) : Option Access := t.eligible.find? (fun a => a.kind.isTbp)

/-- The oldest eligible deferred scrub, by its place in the list, or else the patrol read (R51, Table 3.4-2 row 8). -/
def Tmc.pickScrub (t : Tmc) : Option Access :=
  (t.deferred.findSome? (fun e => t.eligible.find? (fun a => decide (a.kind.scrub = some e)))).or
    (t.eligible.find? (fun a => decide (a.kind = .patrol)))

/-- What the arbiter does at a grant. -/
inductive Choice where
  | refresh
  | access (a : Access)
  | nothing
  deriving DecidableEq, Repr

/-- The first row of the service order that has something to grant (Table 3.4-2). -/
def choose (s : State) : Choice :=
  let t := s.tmc
  if 8 ≤ t.debt then .refresh
  else
    let due := if t.tbpWait = 3 then t.pickTbp else none
    let due := due.or (if 6 ≤ t.internalWait then t.pickInternal else none)
    match ((due.or t.pickFetch).or t.pickTbp).or t.pickInternal with
    | some a => .access a
    | none =>
      if 0 < t.debt then .refresh
      else match t.pickScrub with
        | some a => .access a
        | none => .nothing

/-- Count the grant of an access for the classes that had an eligible access presented, and move the rotations
(R57). -/
def Tmc.countGrant (t : Tmc) (a : Access) : Tmc :=
  let tbp := if a.kind.isTbp then 0 else if t.eligible.any (fun x => x.kind.isTbp) then min 3 (t.tbpWait + 1) else t.tbpWait
  let internal := if a.kind.isInternal then 0
    else if t.eligible.any (fun x => x.kind.isInternal) then min 7 (t.internalWait + 1) else t.internalWait
  { t with
    tbpWait := tbp, internalWait := internal
    lastSlot := a.slot.getD t.lastSlot
    lastInternal := a.kind.place.getD t.lastInternal
    tokenNext := match a.kind with
      | .validator _ => t.presented.any (fun x => match x.kind with
          | .token _ => true
          | _ => false)
      | .token _ => false
      | _ => t.tokenNext
    presented := t.presented.erase a }

/-- Two accesses belong to one request: lines of one fetch or of one bus job. -/
def AccessKind.sameRequest : AccessKind → AccessKind → Bool
  | .fetch b t _, .fetch b' t' _ => decide (b = b' ∧ t = t')
  | .busRead j _, .busRead j' _ => decide (j = j')
  | .busWrite j _ _ _, .busWrite j' _ _ _ => decide (j = j')
  | _, _ => false

/-- The access in progress is the last of its request, so a completion command ends it. -/
def Tmc.isLast (t : Tmc) (k : AccessKind) : Bool := !t.presented.any (fun a => k.sameRequest a.kind)

/-- The channel is free for a grant: nothing in progress, or an access that other lines of its request still
follow. -/
def Tmc.channelFree (t : Tmc) : Bool :=
  match t.inProgress with
  | none => true
  | some p => !t.isLast p.access.kind

/-- Free the channel at the end of an access. -/
def clearChannel (s : State) : State := tmcRest (s.setTmc { s.tmc with inProgress := none })

/-- Grant an access: it is carried out whole, and its completion is reported by a later command (R56). DESIGN CHOICE, log entry 15. -/
def grantAccess (s : State) (a : Access) (flips : List BitFlip) : State :=
  let r := carryOut (s.setTmc (s.tmc.countGrant a)) a flips
  tmcRest (r.st.setTmc { r.st.tmc with inProgress := some ⟨a, r.data, r.bad⟩ })

/-- One grant of the arbiter, made while the TMC is ACTIVE (Section 3.5) and the channel is free; none when the
access lies outside table memory. During the clear its writes stand in the place of accesses, so only an urgent
refresh is issued (R48, R59). DEDUCED, log entry 17. -/
def grantOnce (s : State) (flips : List BitFlip) : Option State :=
  if !s.tmc.initDone then
    some (if 8 ≤ s.tmc.debt then s.setTmc { s.tmc with debt := s.tmc.debt - 1 } else s)
  else if decide (s.tmc.power ≠ .active) || !s.tmc.channelFree then some s
  else
    let s := s.setTmc { s.tmc with inProgress := none }
    match choose s with
    | .refresh => some (tmcRest (s.setTmc { s.tmc with debt := s.tmc.debt - 1 }))
    | .access a => if a.line < memoryLines s.tmc.density then some (grantAccess s a flips) else none
    | .nothing => some (tmcRest s)

end Sys2Proof.Machine
end

