-- ==== Sys2Proof/Machine/Links.lean ====
section
/-! DEFINITION. What starts and stops a blade link: abandonment of a link's work (R69, R76), the start and stop
requests (R65), and the bookkeeping of a loss (R69, R70). -/

namespace Sys2Proof.Machine

/-- The abandoned read of a fetch that is in progress becomes a read whose data is discarded (R58, R76). -/
def abandonInProgress (s : State) (b : Slot) : Option InProgress :=
  s.tmc.inProgress.map (fun p =>
    match p.access.kind with
    | .fetch b' tag _ =>
      if b' = b then
        match ((s.link b).fetches.get tag).bind (·.bound) with
        | some (bank, _) => { p with access := { p.access with kind := .abandoned bank } }
        | none => p
      else p
    | _ => p)

/-- The fetch tag of a slot whose read is in progress. -/
def fetchInProgress (s : State) (b : Slot) : Option FetchTag :=
  match s.tmc.inProgress with
  | some p => match p.access.kind with
    | .fetch b' tag _ => if b' = b then some tag else none
    | _ => none
  | none => none

/-- The banks of the bound fetches of a slot that have no read in progress: their in-flight counts fall at once
when the fetches are abandoned (R22, R76). -/
def abandonedNow (s : State) (b : Slot) : List Bank :=
  (indices 4).filterMap (fun tag =>
    if fetchInProgress s b = some tag then none
    else ((s.link b).fetches.get tag).bind (fun f => f.bound.map (·.1)))

/-- The access is a read of a fetch of the slot. -/
def Access.ofSlot (b : Slot) (a : Access) : Bool := decide (a.slot = some b)

/-- A link with no work left in it; a message in transmission is completed, but ends nothing (R69, R72). -/
def Link.emptied (l : Link) : Link :=
  { l with
    keepAt := none, fetches := Vector.replicate 4 none, ready := [], queue := [], orders := Vector.replicate 8 none
    notice := none, welcome := none, dataRun := 0, sending := l.sending.map (fun m => { m with live := false }) }

/-- Abandon the work of a link (R69): its fetches, orders, notice and unsent messages go, its ungranted reads are
withdrawn, and the blade leaves the acknowledgement set. DEDUCED, log entry 42. -/
def abandonLink (w : Work) (b : Slot) : Work :=
  let s := w.st
  let banks := abandonedNow s b
  let s1 := s.setTmc { s.tmc with
    presented := s.tmc.presented.filter (fun a => !a.ofSlot b)
    parked := s.tmc.parked.filter (fun a => !a.ofSlot b)
    inProgress := abandonInProgress s b }
  let w1 : Work := { w with st := s1.setLink b (s1.link b).emptied }
  leaveAckSet (banks.foldl dropInFlight w1) b

/-- Start the link of a slot: from DOWN it enters WAIT_HELLO as a first wait (R65). -/
def startLink (s : State) (b : Slot) : State :=
  let l := s.link b
  if l.state = .down then s.setLink b { l.emptied with state := .firstWait, helloAt := some (s.now + sec 10) } else s

/-- A link that has entered DOWN: every timer is stopped and the loss history is empty (R65, R70). -/
def Link.downed (l : Link) : Link :=
  { l with state := .down, helloAt := none, keepAt := none, holdoffAt := none, losses := [] }

/-- Stop the link of a slot: it enters DOWN, with its work abandoned (R65). -/
def stopLink (w : Work) (b : Slot) : Work :=
  if (w.st.link b).state = .down then w
  else (abandonLink w b).map (fun s => s.setLink b (s.link b).downed)

/-- A loss now is the third within 60 s (R70). DEDUCED, log entry 43. -/
def Link.repeatedLoss (l : Link) (now : Nat) : Bool :=
  match l.losses with
  | [older, _] => decide (now < older + sec 60)
  | _ => false

/-- The loss history with a new loss: the two most recent times (R70). -/
def recordLoss (losses : List Nat) (now : Nat) : List Nat :=
  match losses with
  | [_, newer] => [newer, now]
  | l => l ++ [now]

/-- The link's side of a loss: DOWN on a repeated loss, otherwise LOST with the loss recorded and the holdoff
started at 1 s (R69, R70). -/
def Link.lose (l : Link) (now : Nat) : Link :=
  if l.repeatedLoss now then l.downed
  else { l with
    state := .lost, helloAt := none, keepAt := none, holdoffAt := some (now + sec 1), losses := recordLoss l.losses now }

/-- Count a message of a link, up to 65,535 (R64). -/
def countLinkError (s : State) (b : Slot) : State :=
  s.setLink b { s.link b with errors := min 65535 ((s.link b).errors + 1) }

end Sys2Proof.Machine
end

