-- ==== Sys2Proof/Machine/Ports.lean ====
section
/-! DEFINITION. The fabric ports (Chapter 5): the licence queues and the power wait list that hold them (R108,
R137), charging and admission (R95, R96), reconfiguration (R97), leaving and restoring (R98), order
acknowledgements (R99), requests (R93, R94), and taking ports out of service (R92) or out of waiting (R89). -/

namespace Sys2Proof.Machine

/-! ### Small pieces -/

/-- Replace a port record. -/
def Work.setPort (w : Work) (p : PortRef) (x : Port) : Work := w.map (fun s => s.setPort p x)

/-- Raise a PORT event with a cause (R103). -/
def raisePort (w : Work) (p : PortRef) (cause : PortCause) (sev : Severity) (action : Nat) : Work :=
  w.raise .pau (portEvent w.st p cause sev action)

/-- The blade of a slot is UP. -/
def State.up (s : State) (b : Slot) : Bool := decide ((s.blade b).state = .up)

/-- The blade of a slot is HOT (R154). -/
def State.hot (s : State) (b : Slot) : Bool := decide ((s.ftu.temps.get b).thermal = .hot)

/-- Hand an order for a port to the BLC with a configuration (R77). -/
def orderPort (w : Work) (p : PortRef) (action : OrderAction) (c : PortConfig) : Work :=
  w.map (fun s => handOrder s p.slot ⟨p.port, action, c⟩)

/-- The ports of a slot with their indices, ascending. -/
def State.portList (s : State) (b : Slot) : List (PortRef × Port) :=
  (indices 48).map (fun i => (⟨b, i⟩ : PortRef)) |>.zip (s.pau.ports.get b).toList

/-- A release has freed PORT_UNITS and draw as the port's former record held them: a grant round and the restore
process become due (R109, R142). -/
def released (w : Work) (before : Port) : Work :=
  let w := if 0 < before.units then w.dueGrant else w
  if 0 < before.draw w.st.plu.inUse then w.dueRestore else w

/-! ### Licence queues and the power wait list -/

/-- The licence queue of a slot. -/
def State.queue (s : State) (b : Slot) : List LicenceEntry := s.lu.queues.get b

def State.setQueue (s : State) (b : Slot) (q : List LicenceEntry) : State :=
  s.setLu { s.lu with queues := Vector.put s.lu.queues b q }

/-- The port joins the tail of its blade's licence queue and becomes WAIT_LICENSE (R95, R108). -/
def joinLicence (w : Work) (p : PortRef) (units : Nat) : Work :=
  (w.setPort p { w.st.port p with state := .waitLicense }).map (fun s => s.setQueue p.slot (s.queue p.slot ++ [⟨p.port, units⟩]))

/-- The port leaves its licence queue; from the head this makes a grant round due (R108). -/
def leaveLicence (w : Work) (p : PortRef) : Work :=
  let q := w.st.queue p.slot
  let w1 := w.map (fun s => s.setQueue p.slot (q.filter (fun e => decide (e.port ≠ p.port))))
  if (q.head?.map (·.port)) = some p.port then w1.dueGrant else w1

/-- An entry stands before another: higher priority, or the same and an earlier entry number (R137). -/
def PowerWait.before (a b : PowerWait) : Bool :=
  decide (b.priority < a.priority) || (decide (a.priority = b.priority) && decide (a.number < b.number))

/-- Insert an entry at its place (R137). -/
def insertWait (e : PowerWait) : List PowerWait → List PowerWait
  | [] => [e]
  | x :: rest => if e.before x then e :: x :: rest else x :: insertWait e rest

/-- The port joins the power wait list and becomes WAIT_POWER (R95, R137). DESIGN CHOICE, log entry 63. -/
def joinPower (w : Work) (p : PortRef) : Work :=
  let x := w.st.port p
  (w.setPort p { x with state := .waitPower }).map (fun s => s.setPbu { s.pbu with
    waitList := insertWait ⟨p, x.priority, s.pbu.nextEntry⟩ s.pbu.waitList, nextEntry := s.pbu.nextEntry + 1 })

/-- The port leaves the power wait list (R137). -/
def leavePower (w : Work) (p : PortRef) : Work :=
  w.map (fun s => s.setPbu { s.pbu with waitList := s.pbu.waitList.filter (fun e => decide (e.port ≠ p)) })

/-- The port moves to the place of its new priority and keeps its entry number (R94, R137). -/
def reposition (w : Work) (p : PortRef) : Work :=
  match w.st.pbu.waitList.find? (fun e => decide (e.port = p)) with
  | none => w
  | some e => (leavePower w p).map (fun s => s.setPbu { s.pbu with
      waitList := insertWait { e with priority := (s.port p).priority } s.pbu.waitList })

/-- A waiting port leaves its queue or list. -/
def leaveWait (w : Work) (p : PortRef) : Work :=
  match (w.st.port p).state with
  | .waitLicense => leaveLicence w p
  | .waitPower => leavePower w p
  | _ => w

/-! ### Entering and leaving states -/

/-- The port becomes OFFLINE with a cause; what it held is released (Table 5.2-1). -/
def toOffline (w : Work) (p : PortRef) (cause : PortCause) : Work :=
  let x := w.st.port p
  released (w.setPort p { x with state := .offline, cause := cause, leaving := .clear, granted := none }) x

/-- The port enters SHED, keeping its units; a PORT event reports it (R99, R101, R103). -/
def toShed (w : Work) (p : PortRef) (cause : PortCause) : Work :=
  let x := w.st.port p
  let w1 := w.setPort p { x with state := .shed, cause := cause, leaving := .clear }
  raisePort (if 0 < x.draw w.st.plu.inUse then w1.dueRestore else w1) p cause .warn 0

/-- The port enters GOING_DOWN with a cause, its leaving flag clear, and its DISABLE is handed to the BLC. R98 gives
the DISABLE of a shed or thermal leave the granted configuration; that a DISABLE of R94 or R99 carries it too is a DESIGN CHOICE, log
entry 104. -/
def toGoingDown (w : Work) (p : PortRef) (cause : PortCause) : Work :=
  let x := w.st.port p
  let w1 := w.setPort p { x with state := .goingDown, cause := cause, leaving := .clear }
  match x.granted with
  | some c => orderPort w1 p .disable c
  | none => w1

/-- The port enters GOING_UP with a granted configuration and an order; its cause becomes NONE (R92, R95). -/
def toGoingUp (w : Work) (p : PortRef) (c : PortConfig) (action : OrderAction) : Work :=
  orderPort (w.setPort p { w.st.port p with state := .goingUp, cause := .none, granted := some c }) p action c

/-- A refusal: the cause stands in the record except in GOING_DOWN and SHED, and a PORT event reports it (R92). -/
def refusePort (w : Work) (p : PortRef) (cause : PortCause) : Work :=
  let x := w.st.port p
  let w1 := if x.state = .goingDown ∨ x.state = .shed then w else w.setPort p { x with cause := cause }
  raisePort w1 p cause .warn 0

/-- Charge a port with its requested configuration: GOING_UP with an ENABLE, or SHED with cause THERMAL on a HOT
blade (R95). -/
def chargePort (w : Work) (p : PortRef) (c : PortConfig) : Work :=
  if w.st.hot p.slot then toShed (w.setPort p { w.st.port p with granted := some c }) p .thermal
  else toGoingUp w p c .enable

/-! ### Admission (R95, R96) -/

/-- The port becomes OFFLINE for want of an XD_PORTS unit, with a PORT event (R95, R96). -/
def refuseXd (w : Work) (p : PortRef) : Work :=
  raisePort (w.setPort p { w.st.port p with state := .offline, cause := .noXdLicense }) p .noXdLicense .warn 0

/-- The outcome of the licence and power checks (R95). -/
def decideAdmission (w : Work) (p : PortRef) (c : PortConfig) (licence power : Bool) : Work :=
  if licence then (if power then chargePort w p c else joinPower w p) else joinLicence w p c.units

/-- Admission of a port from OFFLINE (R95). -/
def admitPort (w : Work) (p : PortRef) : Work :=
  let s := w.st
  match (s.port p).request with
  | none => w
  | some c =>
    if c.xd && !s.xdFree then refuseXd w p
    else decideAdmission w p c ((s.queue p.slot).isEmpty && s.licenceFits p.slot c.units)
      (s.powerFits (portDraw s.plu.inUse c (s.port p).optic))

/-- A port that has left a queue or list is completed with the outcome of its checks (R96). DEDUCED, log entry 91. -/
def completeMove (w : Work) (p : PortRef) (licence power : Bool) : Work :=
  match (w.st.port p).request with
  | none => w
  | some c => if c.xd && !w.st.xdFree then refuseXd w p else decideAdmission w p c licence power

/-! ### Reconfiguration (R97) -/

/-- Apply a reconfiguration: charge and release the differences, and hand a RECONFIG. -/
def applyReconfig (w : Work) (p : PortRef) (old new : PortConfig) : Work :=
  let t := w.st.plu.inUse
  let o := (w.st.port p).optic
  let w1 := toGoingUp w p new .reconfig
  let w2 := if new.units < old.units then w1.dueGrant else w1
  if portDraw t new o < portDraw t old o then w2.dueRestore else w2

/-- Reconfigure an ONLINE port (R97): at once when neither units nor draw increase, otherwise when the queue is
empty, the added units and an added XD unit fit and the added draw fits; else it is refused with SPEED_HELD. -/
def reconfigure (w : Work) (p : PortRef) (old new : PortConfig) : Work :=
  let s := w.st
  let o := (s.port p).optic
  let before := portDraw s.plu.inUse old o
  let after := portDraw s.plu.inUse new o
  if new.units ≤ old.units ∧ new.xdUnits ≤ old.xdUnits ∧ after ≤ before then applyReconfig w p old new
  else if (s.queue p.slot).isEmpty && (decide (new.units ≤ old.units) || s.licenceFits p.slot (new.units - old.units)) &&
      (decide (new.xdUnits ≤ old.xdUnits) || s.xdFree) && s.powerFits ((after : Int) - (before : Int)) then
    applyReconfig w p old new
  else refusePort w p .speedHeld

/-- An ONLINE port's requested configuration is evaluated: a change is a reconfiguration (R94, R97, R99). -/
def evaluateOnline (w : Work) (p : PortRef) : Work :=
  match (w.st.port p).granted, (w.st.port p).request with
  | some g, some c => if c = g then w else reconfigure w p g c
  | _, _ => w

/-! ### Shed, thermal leave and restore (R98) -/

/-- The causes of a leave. -/
inductive LeaveCause where
  | power
  | thermal
  deriving DecidableEq, Repr

def LeaveCause.cause : LeaveCause → PortCause
  | .power => .power
  | .thermal => .thermal

def LeaveCause.flag : LeaveCause → Leaving
  | .power => .power
  | .thermal => .thermal

/-- The cause a leaving flag carries. -/
def Leaving.cause : Leaving → PortCause
  | .clear => .none
  | .power => .power
  | .thermal => .thermal

/-- A selected port goes off: ONLINE to GOING_DOWN with a DISABLE, GOING_UP by its leaving flag (R98). -/
def leavePort (w : Work) (p : PortRef) (c : LeaveCause) : Work :=
  match (w.st.port p).state with
  | .online => toGoingDown w p c.cause
  | .goingUp => w.setPort p { w.st.port p with leaving := c.flag }
  | _ => w

/-- What entry to HOT does to one port of the blade (R98). -/
def heatPort (w : Work) (p : PortRef) : Work :=
  let x := w.st.port p
  match x.state with
  | .online => leavePort w p .thermal
  | .goingUp => leavePort w p .thermal
  | .goingDown => if x.cause = .power then w.setPort p { x with cause := .thermal } else w
  | .shed => if x.cause = .power then w.setPort p { x with cause := .thermal } else w
  | _ => w

/-- The ports of a slot, ascending. -/
def portsOf (b : Slot) : List PortRef := (indices 48).map (fun i => ⟨b, i⟩)

/-- A blade enters HOT: its ports leave, and its POWER causes become THERMAL (R98, R141). DESIGN CHOICE, log entry 89. -/
def heatBlade (w : Work) (b : Slot) : Work := (portsOf b).foldl heatPort w

/-- The restore process takes a port out of SHED (R98). -/
def restorePort (w : Work) (p : PortRef) : Work :=
  match (w.st.port p).granted with
  | some c => raisePort (toGoingUp w p c .enable) p .none .info 0
  | none => w

/-! ### Order acknowledgements (R99) -/

/-- A completed DISABLE (Table 5.2-3 rows 6 to 9). `again` is false where reconciliation makes the admission
itself (R101). -/
def disableDone (w : Work) (p : PortRef) (again : Bool) : Work :=
  let x := w.st.port p
  if !x.desired then toOffline w p .request
  else match x.cause with
    | .power => toShed w p .power
    | .thermal => toShed w p .thermal
    | .request => if again then admitPort (toOffline w p .request) p else toOffline w p .request
    | c => toOffline w p c

/-- ENABLE or RECONFIG answered DONE (Table 5.2-3 rows 1 to 3). DESIGN CHOICE, log entry 82. -/
def enableDone (w : Work) (p : PortRef) : Work :=
  let x := w.st.port p
  if !x.desired then toGoingDown w p .request
  else if x.leaving ≠ .clear then toGoingDown w p x.leaving.cause
  else evaluateOnline (w.setPort p { x with state := .online }) p

/-- An order acknowledgement decides the port's next state (Table 5.2-3). DESIGN CHOICE, log entry 48. -/
def acknowledge (w : Work) (p : PortRef) (action : OrderAction) (result : OrderResult) : Work :=
  match (w.st.port p).state, action, result with
  | .goingUp, .enable, .done => enableDone w p
  | .goingUp, .reconfig, .done => enableDone w p
  | .goingUp, .enable, .refused => raisePort (toOffline w p .feRefused) p .feRefused .warn OrderAction.enable.code
  | .goingUp, .reconfig, .refused => raisePort (toGoingDown w p .feRefused) p .feRefused .warn OrderAction.reconfig.code
  | .goingDown, .disable, .done => disableDone w p true
  | .goingDown, .disable, .refused => raisePort (disableDone w p true) p .feRefused .warn OrderAction.disable.code
  | _, _, _ => w

/-! ### Request words (R93, R94) -/

/-- A port request word as written (Table 11.3-3). -/
structure RequestWord where
  mode     : Nat
  speed    : Nat
  xd       : Nat
  priority : Nat
  sequence : Nat
  deriving DecidableEq, Repr

def RequestWord.ofBits (v : BitVec 64) : RequestWord :=
  ⟨(v.extractLsb' 0 8).toNat, (v.extractLsb' 8 8).toNat, (v.extractLsb' 16 8).toNat, (v.extractLsb' 24 8).toNat,
    (v.extractLsb' 32 16).toNat⟩

/-- The configuration of a well-formed ON word (R93). -/
def RequestWord.config (r : RequestWord) : Option (PortConfig × Fin 8) :=
  match SpeedClass.ofNumber r.speed with
  | none => none
  | some c => if r.xd ≤ 1 then (if h : r.priority < 8 then some (⟨c, decide (r.xd = 1)⟩, ⟨r.priority, h⟩) else none) else none

/-- What a request word asks for: turn on, turn off, or a malformed word (R93). -/
inductive RequestForm where
  | on (c : PortConfig) (priority : Fin 8)
  | off
  | invalid
  deriving DecidableEq, Repr

def RequestWord.form (r : RequestWord) : RequestForm :=
  if r.mode = 0 then .off
  else if r.mode = 1 then (match r.config with
    | some (c, q) => .on c q
    | none => .invalid)
  else .invalid

/-- Evaluate OFF for a port of an UP blade (Table 5.2-2). -/
def evaluateOff (w : Work) (p : PortRef) : Work :=
  match (w.st.port p).state with
  | .offline => w
  | .waitLicense => toOffline (leaveWait w p) p .request
  | .waitPower => toOffline (leaveWait w p) p .request
  | .goingUp => w
  | .online => toGoingDown w p .request
  | .goingDown => w
  | .shed => toOffline w p .request

/-- Evaluate ON for a port of an UP blade; `waited` is the configuration it asked for before (Table 5.2-2). DEDUCED, log entry 49. -/
def evaluateOn (w : Work) (p : PortRef) (waited : Option PortConfig) : Work :=
  let x := w.st.port p
  match x.state with
  | .offline => admitPort w p
  | .waitLicense =>
    if x.request = waited then w else admitPort ((leaveWait w p).setPort p { x with state := .offline }) p
  | .waitPower =>
    if x.request = waited then reposition w p else admitPort ((leaveWait w p).setPort p { x with state := .offline }) p
  | .goingUp => w
  | .online => evaluateOnline w p
  | .goingDown => w
  | .shed => if x.request = x.granted then w else refusePort w p .speedHeld

/-- The port index is at or beyond the blade's known port count (R93). -/
def State.beyondCount (s : State) (p : PortRef) : Bool :=
  match (s.blade p.slot).portCount with
  | some n => decide (n ≤ p.port.1)
  | none => false

/-- A stored request is carried on: no such port, blade not UP, or evaluation (R93 steps 3 to 5). -/
def carryRequest (w : Work) (p : PortRef) (on : Bool) (waited : Option PortConfig) : Work :=
  let x := w.st.port p
  if w.st.beyondCount p then raisePort (w.setPort p { x with cause := .noSuchPort }) p .noSuchPort .warn 0
  else if !w.st.up p.slot then
    (if x.state = .offline then w.setPort p { x with cause := .bladeDown }
     else if x.state = .shed ∧ on = false then toOffline w p .request else w)
  else if on then evaluateOn w p waited else evaluateOff w p

/-- A well-formed ON word with a new sequence (R93). DESIGN CHOICE, log entry 97. -/
def requestOn (w : Work) (p : PortRef) (c : PortConfig) (priority : Fin 8) (sequence : Nat) : Work :=
  let x := w.st.port p
  carryRequest (w.setPort p { x with lastSeq := sequence, desired := true, request := some c, priority := priority }) p true x.request

/-- A well-formed OFF word with a new sequence (R93). -/
def requestOff (w : Work) (p : PortRef) (sequence : Nat) : Work :=
  let x := w.st.port p
  carryRequest (w.setPort p { x with lastSeq := sequence, desired := false }) p false x.request

/-- A malformed word with a new sequence is refused with BAD_REQUEST (R93). -/
def requestInvalid (w : Work) (p : PortRef) (sequence : Nat) : Work :=
  refusePort (w.setPort p { w.st.port p with lastSeq := sequence }) p .badRequest

/-! ### A blade's ports as a whole -/

/-- A port goes out of service (R92): it leaves its queue or list, releases what it holds, and becomes OFFLINE with
cause BLADE_DOWN. -/
def outOfService (w : Work) (p : PortRef) : Work :=
  if (w.st.port p).state = .offline then w else toOffline (leaveWait w p) p .bladeDown

/-- Every port of a blade goes out of service, in port order (R92). -/
def bladeOutOfService (w : Work) (b : Slot) : Work := (portsOf b).foldl outOfService w

/-- A waiting port of a LOST blade becomes OFFLINE with cause BLADE_DOWN (R89). -/
def stopWaiting (w : Work) (p : PortRef) : Work :=
  match (w.st.port p).state with
  | .waitLicense => toOffline (leaveWait w p) p .bladeDown
  | .waitPower => toOffline (leaveWait w p) p .bladeDown
  | _ => w

def bladeStopsWaiting (w : Work) (b : Slot) : Work := (portsOf b).foldl stopWaiting w

/-! ### Reconciliation (R101) -/

/-- A port at or beyond the new port count (R101 step 1, first case). -/
def reconcileBeyond (w : Work) (p : PortRef) : Work :=
  let x := w.st.port p
  let w1 := if x.state = .offline then w else toOffline (leaveWait w p) p (if x.desired then .noSuchPort else .request)
  if x.desired then
    raisePort (w1.setPort p { w1.st.port p with cause := .noSuchPort }) p .noSuchPort .warn 0
  else w1

/-- Step 1 for a port below the port count: the record is matched to an engine whose ports are all off. -/
def reconcileStep (w : Work) (p : PortRef) : Work :=
  let x := w.st.port p
  match x.state with
  | .goingDown => disableDone w p false
  | .shed => w
  | .goingUp =>
    if x.leaving ≠ .clear then (if x.desired then toShed w p x.leaving.cause else toOffline w p .request)
    else if !x.desired then toOffline w p .request
    else (match x.granted with
      | some c => orderPort w p .enable c
      | none => w)
  | .online =>
    if x.leaving ≠ .clear then (if x.desired then toShed w p x.leaving.cause else toOffline w p .request)
    else if !x.desired then toOffline w p .request
    else (match x.granted with
      | some c => toGoingUp w p c .enable
      | none => w)
  | _ => w

/-- Resolve one port of a blade that has come UP (R101). DEDUCED, log entry 51. -/
def reconcilePort (w : Work) (p : PortRef) : Work :=
  if w.st.beyondCount p then reconcileBeyond w p
  else
    let w1 := reconcileStep w p
    if (w1.st.port p).state = .offline ∧ (w1.st.port p).desired = true then admitPort w1 p else w1

/-- Resolve the ports of a blade in ascending order (R101). -/
def reconcile (w : Work) (b : Slot) : Work := (portsOf b).foldl reconcilePort w

end Sys2Proof.Machine
end

