-- ==== Sys2Proof/Machine/Licence.lean ====
section
/-! DEFINITION. The License Unit: grant rounds (R109 to R112), the token digest and the token checks (R116 to
R118), and the results, the floor cells and the programming of floors (R119 to R122). -/

namespace Sys2Proof.Machine

/-! ### Grant rounds -/

/-- Grant the head of a slot's licence queue: it leaves the queue and the PAU completes it (R112). DEDUCED, log entry 56. -/
def grantHead (w : Work) (b : Slot) (e : LicenceEntry) : Work :=
  let w1 := w.map (fun s => s.setQueue b (s.queue b).tail)
  let p : PortRef := ⟨b, e.port⟩
  let s := w1.st
  let x := s.port p
  completeMove w1 p true (match x.request with
    | some c => s.powerFits (portDraw s.plu.inUse c x.optic)
    | none => false)

/-- One slot of a reserve pass: its head is granted when its own reserve has room (R110). -/
def reserveStep (acc : Work × Bool) (b : Slot) : Work × Bool :=
  match (acc.1.st.queue b).head? with
  | some e =>
    if e.units ≤ acc.1.st.unusedReserve (acc.1.st.lu.entitlementInUse .portUnits) b then (grantHead acc.1 b e, true) else acc
  | none => acc

/-- A reserve pass over the slots in ascending order, and whether it granted any head (R110). -/
def reservePass (w : Work) : Work × Bool := (indices 8).foldl reserveStep (w, false)

/-- The weight in use of a slot. -/
def State.weight (s : State) (b : Slot) : Nat := weightOf (s.plu.inUse.weights.get b)

/-- The slot is a candidate of a weighted selection (R111). -/
def State.candidate (s : State) (b : Slot) : Bool :=
  match (s.queue b).head? with
  | some e => decide (0 < s.weight b) && s.licenceFits b e.units
  | none => false

/-- A selection counter stops at either end of 16 bits (R111). -/
def clampCounter (i : Int) : Int := max (-32768) (min 32767 i)

/-- The slot with the largest counter among some, the lowest on a tie. -/
def largestCounter (c : Vector Int 8) : List Slot → Option Slot
  | [] => none
  | b :: rest => match largestCounter c rest with
    | none => some b
    | some b' => if c.get b < c.get b' then some b' else some b

/-- A weighted selection: the changed counters and the chosen slot, or none without a candidate (R111). -/
def weightedSelection (s : State) : Option (Vector Int 8 × Slot) :=
  let cands := (indices 8).filter s.candidate
  let raised := cands.foldl (fun c b => Vector.put c b (clampCounter (c.get b + (s.weight b : Int)))) s.lu.counters
  match largestCounter raised cands with
  | none => none
  | some b =>
    let sum := cands.foldl (fun acc x => acc + s.weight x) 0
    some (Vector.put raised b (clampCounter (raised.get b - (sum : Int))), b)

/-- The passes and selections of a round, at most as many as there are entries (R109). -/
def roundFrom : (fuel : Nat) → Work → Work
  | 0, w => w
  | fuel + 1, w =>
    let r := reservePass w
    if r.2 then roundFrom fuel r.1
    else match weightedSelection w.st with
      | none => w
      | some (counters, b) =>
        let w1 := w.map (fun s => s.setLu { s.lu with counters := counters })
        match (w1.st.queue b).head? with
        | some e => roundFrom fuel (grantHead w1 b e)
        | none => w1

/-- The number of entries in the eight licence queues. -/
def State.queued (s : State) : Nat := s.lu.queues.toList.foldl (fun acc q => acc + q.length) 0

/-- A grant round (R109). Triggers that arise inside it start no second round. -/
def grantRound (w : Work) : Work := { roundFrom (w.st.queued + 1) w with grantDue := false }

/-! ### Tokens -/

/-- A token as read from its slot's line (Table 11.4-1). -/
structure Token where
  feature  : Nat
  units    : Nat
  sequence : Nat
  serial   : Nat
  check    : Nat
  deriving DecidableEq, Repr

def Token.ofLine (bytes : List Byte) : Token :=
  ⟨leNat (bytes.take 2), leNat ((bytes.drop 2).take 2), leNat ((bytes.drop 4).take 4), leNat ((bytes.drop 8).take 8),
    leNat ((bytes.drop 16).take 8)⟩

/-- One round of the digest: exclusive-or with a word, multiply, rotate left by 23 (R116 step 3). -/
def digestStep (running word : BitVec 64) : BitVec 64 :=
  ((running ^^^ word) * 6364136223846793005#64).rotateLeft 23

/-- The token digest over a device key and serial (R116). -/
def digestWith (k0 k1 serial : BitVec 64) (t : Token) : BitVec 64 :=
  let first := BitVec.ofNat 64 (t.feature * 2 ^ 48 + t.units * 2 ^ 16)
  digestStep (digestStep k0 first) (BitVec.ofNat 64 t.sequence) ^^^ k1 ^^^ serial

/-- The token digest of this part. DESIGN CHOICE, log entry 7. -/
def tokenDigest (t : Token) : BitVec 64 := digestWith Config.deviceKey0 Config.deviceKey1 Config.deviceSerial t

/-- What the checks of a token come to (Table 6.6-1, R119, R120). -/
inductive TokenVerdict where
  | fails (result : TokenResult) (detail : Nat)
  | reinstated (f : Feature)
  | programs (f : Feature)
  deriving DecidableEq, Repr

/-- Checks 4a to 5 of a token whose feature, serial and check value are right. -/
def judgeSequence (s : State) (f : Feature) (t : Token) : TokenVerdict :=
  let x := s.lu.feature f
  if t.sequence < x.floor then .fails .stale x.floor
  else if t.sequence = x.floor ∧ x.reinstated = true then .fails .alreadyApplied x.floor
  else if 0 < s.shortfall f t.units then .fails .inUse (s.shortfall f t.units)
  else if t.sequence = x.floor then .reinstated f
  else .programs f

/-- The checks of Table 6.6-1 in order. -/
def judgeToken (s : State) (t : Token) : TokenVerdict :=
  match Feature.ofCode t.feature with
  | none => .fails .badFeature t.feature
  | some f =>
    if t.serial ≠ Config.deviceSerial.toNat then .fails .badSerial 0
    else if t.check ≠ (tokenDigest t).toNat then .fails .badCheck 0
    else judgeSequence s f t

/-- Change a token slot. -/
def setSlot (w : Work) (k : TokenIx) (x : TokenSlot) : Work :=
  w.map (fun s => s.setLu { s.lu with slots := Vector.put s.lu.slots k x })

/-- A slot's submission ends with a result: the slot is DONE and a LICENSE event reports it (R113, R122). -/
def tokenDone (w : Work) (k : TokenIx) (result : TokenResult) (detail : Nat) : Work :=
  let x := w.st.lu.slots.get k
  let x' := { x with state := .done, result := result, detail := detail, resultSeq := x.current }
  (setSlot w k x').raise .lu (licenseEvent k x' result x.current)

/-- A grant round follows when the PORT_UNITS entitlement in use for checks has risen (R109). -/
def grantOnRise (before : Nat) (w : Work) : Work :=
  if before < w.st.lu.entitlementInUse .portUnits then w.dueGrant else w

/-- A feature takes a token's units as its entitlement and sets its reinstated flag (R119, R120). -/
def entitle (w : Work) (f : Feature) (units : Nat) : Work :=
  w.map (fun s => s.setLu (s.lu.setFeature f { s.lu.feature f with entitlement := units, reinstated := true }))

/-- Act on the verdict of a token's checks (R117, R119, R120). The program takes 4 ms. -/
def actOnToken (w : Work) (k : TokenIx) (t : Token) : Work :=
  let w1 := setSlot w k { w.st.lu.slots.get k with feature := t.feature, units := t.units, tokenSeq := t.sequence }
  match judgeToken w.st t with
  | .fails r d => tokenDone w1 k r d
  | .reinstated f =>
    grantOnRise (w.st.lu.entitlementInUse .portUnits) (tokenDone (entitle w1 f t.units) k .reinstated t.units)
  | .programs f =>
    (setSlot w1 k { w1.st.lu.slots.get k with state := .programming }).map (fun s =>
      s.setLu { s.lu with program := some ⟨k, f, t.units, t.sequence, s.now + msec 4⟩ })

/-! ### Floor cells (R121) -/

/-- The cell holds a floor. -/
def NvCell.holdsFloor (c : NvCell) (floor : Nat) : Bool := c.valid && decide (c.value = floor)

/-- The cell a program writes: the one that does not hold F, and cell 1 when both do. DEDUCED, log entry 54. -/
def FeatureState.programCell (x : FeatureState) : Fin 2 :=
  if (x.cells.get 1).holdsFloor x.floor && !(x.cells.get 0).holdsFloor x.floor then 0 else 1

/-- The floor read at power-on reset: the larger of the values whose cells pass their check, or 4,294,967,295 with
a floor fault. -/
def readFloor (cells : Vector NvCell 2) : Nat × Bool :=
  match (cells.get 0).valid, (cells.get 1).valid with
  | true, true => (max (cells.get 0).value (cells.get 1).value, false)
  | true, false => ((cells.get 0).value, false)
  | false, true => ((cells.get 1).value, false)
  | false, false => (max32, true)

/-- Write a program's sequence into its cell, valid or void. -/
def writeCell (l : Lu) (p : Program) (valid : Bool) : Lu :=
  let x := l.feature p.feature
  l.setFeature p.feature { x with cells := Vector.put x.cells x.programCell ⟨p.seq, valid⟩ }

/-- The end of a program (R120, R121): applied when the read-back matches, otherwise NV_FAULT with the cell void. -/
def programDone (w : Work) (p : Program) (verified : Bool) : Work :=
  let before := w.st.lu.entitlementInUse .portUnits
  let w1 := w.map (fun s => s.setLu { writeCell s.lu p verified with program := none })
  let x := w1.st.lu.feature p.feature
  if verified then
    let w2 := w1.map (fun s => s.setLu (s.lu.setFeature p.feature { x with floor := p.seq }))
    grantOnRise before (tokenDone (entitle w2 p.feature p.units) p.slot .applied p.units)
  else grantOnRise before (tokenDone w1 p.slot .nvFault x.floor)

end Sys2Proof.Machine
end

