-- ==== Sys2Proof/Machine/Blades.lean ====
section
/-! DEFINITION. The blades (Section 5.1): the moves between blade states with their BLADE events (R86 to R91,
R104), and the blade's side of the losses that the BLC reports. -/

namespace Sys2Proof.Machine

/-- Replace a blade record. -/
def Work.setBlade (w : Work) (b : Slot) (x : Blade) : Work := w.map (fun s => s.setBlade b x)

/-- The state a blade record shows on the BLADE_PWR_EN output (R84). DEDUCED, log entry 47. -/
def BladeState.powered : BladeState → Bool
  | .powering => true
  | .up => true
  | .lost => true
  | _ => false

/-- A blade changes state: its power enable follows the state (R84) and a BLADE event reports the change (R104). DEDUCED, log entry 46. -/
def moveBlade (w : Work) (b : Slot) (x : Blade) : Work :=
  let former := (w.st.blade b).state
  let w1 := w.setBlade b { x with powerEn := x.state.powered }
  if x.state = former then w1 else w1.raise .pau (bladeEvent w1.st b former)

/-- A blade enters POWERING: power on, the default base draw charged, its link started (R87). -/
def powerBlade (w : Work) (b : Slot) : Work :=
  let x := w.st.blade b
  (moveBlade w b { x with state := .powering, base := w.st.plu.inUse.defaultBase, debounced := false }).map (fun s => startLink s b)

/-- The blade power check of a blade that leaves SETTLING (R86). -/
def bladePowerCheck (w : Work) (b : Slot) : Work :=
  if w.st.bladeFits then powerBlade w b
  else moveBlade w b { w.st.blade b with state := .waitPower, debounced := false }

/-- The release of a blade's charged base draw (R90, R91, R142). -/
def releaseBase (w : Work) (base : Nat) : Work := if 0 < base then w.dueRestore else w

/-- A blade enters FAULTED (R90): power off, link stopped, base draw 0, ports out of service. -/
def faultBlade (w : Work) (b : Slot) (cause : BladeCause) : Work :=
  let x := w.st.blade b
  let w1 := stopLink (w.setBlade b { x with powerEn := false }) b
  let w2 := moveBlade w1 b { w1.st.blade b with state := .faulted, cause := cause, base := 0 }
  bladeOutOfService (releaseBase w2 x.base) b

/-- An UP blade's link is lost, or a LOST blade's return wait has run out (R89). -/
def bladeLost (w : Work) (b : Slot) (cause : BladeCause) : Work :=
  bladeStopsWaiting (moveBlade w b { w.st.blade b with state := .lost, cause := cause }) b

/-- A loss of a link with its cause: the BLC abandons the link's work, records the loss and reports it to the PAU
(R69, R70, R89, R90). -/
def loseLink (w : Work) (b : Slot) (cause : BladeCause) : Work :=
  let w1 := abandonLink w b
  let repeated := (w1.st.link b).repeatedLoss w1.st.now
  let w2 := w1.map (fun s => s.setLink b ((s.link b).lose s.now))
  if repeated then faultBlade w2 b .repeatedLoss else bladeLost w2 b cause

/-- The optic class of every port of a slot becomes unknown (R91). -/
def forgetOptics (s : State) (b : Slot) : State :=
  s.setPau { s.pau with
    ports := Vector.put s.pau.ports b ((s.pau.ports.get b).map (fun p => { p with optic := none })) }

/-- A blade enters ABSENT, whatever state it is in (R91). -/
def removeBlade (w : Work) (b : Slot) : Work :=
  let x := w.st.blade b
  let w1 := if x.state.powered then stopLink (w.setBlade b { x with powerEn := false }) b else w
  let w2 := moveBlade w1 b { w1.st.blade b with
    state := .absent, debounceAt := none, debounced := false, portCount := none, base := 0, cause := .removed }
  (bladeOutOfService (releaseBase w2 x.base) b).map (fun s => forgetOptics s b)

/-- A blade is made UP by an accepted HELLO: its record and charge (R88 steps 1 and 2). -/
def bladeUp (w : Work) (b : Slot) (ports base : Nat) : Work :=
  let x := w.st.blade b
  let w1 := moveBlade w b { x with
    state := .up, portCount := some ports, cause := .none, base := clampNat 0 8000 base }
  if clampNat 0 8000 base < x.base then w1.dueRestore else w1

end Sys2Proof.Machine
end

