-- ==== Sys2Proof/Machine/Budget.lean ====
section
/-! DEFINITION. The Power Budget Unit: the budget computation with its shed selection (R131 to R133, R139,
R140), the restore process and its triggers (R142 to R144), HOLD (R129, R130), the PSU records (R125 to R128),
and the order in which the consequences of one event follow (R109, R139, R144). -/

namespace Sys2Proof.Machine

/-- Change the PBU. -/
def Work.setPbu (w : Work) (x : Pbu) : Work := w.map (fun s => s.setPbu x)

/-- Raise a BUDGET event (R145). -/
def raiseBudget (w : Work) (o : BudgetOccasion) (selected : Nat) : Work := w.raise .pbu (budgetEvent w.st o selected)

/-! ### Shed selection (R139) -/

/-- The port is a candidate: ONLINE or GOING_UP without the leaving flag. -/
def Port.sheddable (p : Port) : Bool := (decide (p.state = .online) || decide (p.state = .goingUp)) && decide (p.leaving = .clear)

/-- The candidate ports on UP blades, by slot descending, then port descending; the ports of a blade still being
reconciled are none. -/
def shedCandidates (s : State) (reconciling : Option Slot) : List (PortRef × Port) :=
  (indices 8).reverse.flatMap (fun b =>
    if s.up b && decide (reconciling ≠ some b) then (s.portList b).reverse.filter (fun e => e.2.sheddable) else [])

/-- The candidates in shed order: by priority ascending, then as listed. -/
def shedOrder (cands : List (PortRef × Port)) : List (PortRef × Port) :=
  (indices 8).flatMap (fun q => cands.filter (fun e => decide (e.2.priority = q)))

/-- Select candidates in turn until the projected draw is at most A; the number selected and the projected draw
reached (R139). -/
def selectShed (available : Nat) : List (PortRef × Port) → (projected selected : Nat) → Work → Work × Nat × Nat
  | [], projected, selected, w => (w, selected, projected)
  | (p, x) :: rest, projected, selected, w =>
    if projected ≤ available then (w, selected, projected)
    else selectShed available rest (projected - x.draw w.st.plu.inUse) (selected + 1) (leavePort w p .power)

/-- POWER_CRITICAL is raised or cleared, with a BUDGET event for a change (R140). -/
def setCritical (w : Work) (critical : Bool) : Work :=
  if w.st.pbu.powerCritical = critical then w
  else raiseBudget (w.setPbu { w.st.pbu with powerCritical := critical }) (if critical then .criticalRaised else .criticalCleared) 0

/-- The shed selection and its BUDGET event; POWER_CRITICAL is raised when the candidates run out, and cleared when the
selection has brought projected draw down to A (R139, R140). DESIGN CHOICE, log entry 99. -/
def shedSelection (reconciling : Option Slot) (w : Work) : Work :=
  let a := w.st.pbu.available
  let r := selectShed a (shedOrder (shedCandidates w.st reconciling)) w.st.projected 0 w
  setCritical (if 0 < r.2.1 then raiseBudget r.1 .shed r.2.1 else r.1) (decide (a < r.2.2))

/-! ### The budget computation (R131 to R133) -/

/-- The figures P, S, T and A and the REDUNDANCY_LOST alarm computed afresh; a rise of A starts the restore holdoff
from its full length (R142). -/
def computeFigures (s : State) : Pbu :=
  let (p, lost) := s.supplyOf
  let reserved := reservedSupply p s.plu.inUse.reserve
  let ceiling := thermalCeiling s.plu.inUse.thermalBase s.pbu.derate
  let available := min reserved ceiling
  { s.pbu with
    supply := p, reserved := reserved, ceiling := ceiling, available := available, redundancyLost := lost
    holdoffAt := if s.pbu.available < available then some (s.now + sec s.plu.inUse.holdoff) else s.pbu.holdoffAt }

/-- A budget computation outside HOLD: the figures, a change of REDUNDANCY_LOST, and the shed selection or the
clearing of POWER_CRITICAL. `ended` says that HOLD has just ended (R130, R131, R132, R139, R140). DESIGN CHOICE, log entry 99. -/
def computeBudget (reconciling : Option Slot) (ended : Bool) (w : Work) : Work :=
  let before := w.st.pbu
  let w1 := w.setPbu (computeFigures w.st)
  let w2 := if ended then raiseBudget w1 .holdEnded 0 else w1
  let lost := w1.st.pbu.redundancyLost
  let w3 := if lost ≠ before.redundancyLost then
      raiseBudget w2 (if lost then .redundancyRaised else .redundancyCleared) 0 else w2
  if w3.st.pbu.available < w3.st.projected then shedSelection reconciling w3 else setCritical w3 false

/-- The budget after a change of an input: computed afresh outside HOLD, frozen in HOLD (R130, R131). -/
def budgetStep (reconciling : Option Slot) (w : Work) : Work :=
  if w.st.pbu.hold then w else computeBudget reconciling false w

/-! ### Restore (R142 to R144) -/

/-- Step 1: waiting blades, in ascending slot order. The flag says that every candidate has fitted. -/
def restoreBlades : List Slot → Work → Work × Bool
  | [], w => (w, true)
  | b :: rest, w =>
    if ((w.st.plu.inUse.defaultBase + w.st.plu.inUse.margin : Nat) : Int) ≤ w.st.headroom then restoreBlades rest (powerBlade w b)
    else (w, false)

/-- The ports in SHED on UP blades that are not HOT, by priority descending, then slot and port ascending. -/
def restoreOrder (s : State) : List PortRef :=
  let shed := (indices 8).flatMap (fun b =>
    if s.up b && !s.hot b then (s.portList b).filter (fun e => decide (e.2.state = .shed)) else [])
  (indices 8).reverse.flatMap (fun q => (shed.filter (fun e => decide (e.2.priority = q))).map (·.1))

/-- Step 2: shed ports. -/
def restoreShed : List PortRef → Work → Work × Bool
  | [], w => (w, true)
  | p :: rest, w =>
    let x := w.st.port p
    let draw := match x.granted with
      | some c => portDraw w.st.plu.inUse c x.optic
      | none => 0
    if ((draw + w.st.plu.inUse.margin : Nat) : Int) ≤ w.st.headroom then restoreShed rest (restorePort w p) else (w, false)

/-- Step 3: waiting ports, passing over HOT blades. The power is tested, then the licence. -/
def restoreWaiting : List PowerWait → Work → Work
  | [], w => w
  | e :: rest, w =>
    let s := w.st
    let x := s.port e.port
    if s.hot e.port.slot then restoreWaiting rest w
    else
      let draw := match x.request with
        | some c => portDraw s.plu.inUse c x.optic
        | none => 0
      let units := match x.request with
        | some c => c.units
        | none => 0
      if ((draw + s.plu.inUse.margin : Nat) : Int) ≤ s.headroom then
        let fits := (s.queue e.port.slot).isEmpty && s.licenceFits e.port.slot units
        restoreWaiting rest (completeMove (leavePower w e.port) e.port fits true)
      else w

/-- The restore process (R143). -/
def restoreProcess (w : Work) : Work :=
  let r1 := restoreBlades w.st.bladeWait w
  if r1.2 then
    let r2 := restoreShed (restoreOrder r1.1.st) r1.1
    if r2.2 then restoreWaiting r2.1.st.pbu.waitList r2.1 else r2.1
  else r1.1

/-- A restore that falls due: marked pending in HOLD, absorbed while the holdoff runs, otherwise run (R142). DESIGN CHOICE, log entry 90. -/
def restoreDueNow (w : Work) : Work :=
  if w.st.pbu.hold then w.setPbu { w.st.pbu with restorePending := true }
  else if w.st.pbu.holdoffAt.isSome then w
  else restoreProcess w

/-! ### The consequences of one event -/

/-- A grant round when one has become due. -/
def grantIfDue (w : Work) : Work := if w.grantDue then grantRound w else w

/-- The restore process when it has become due; the changes it makes start no second one (R144). -/
def restoreIfDue (w : Work) : Work := if w.restoreDue then { restoreDueNow w with restoreDue := false, grantDue := false } else w

/-- What follows an event once it is complete: the budget, then the grant round, then the restore process (R109,
R131, R144). DESIGN CHOICE, log entry 45. -/
def settle (w : Work) : Work := restoreIfDue (grantIfDue (budgetStep none w))

/-! ### HOLD (R129, R130) -/

/-- The condition of HOLD: no PSU ONLINE and at least one INPUT_LOST. -/
def State.holdCondition (s : State) : Bool :=
  (indices 4).all (fun i => decide ((s.pbu.psus.get i).state ≠ .online)) &&
    (indices 4).any (fun i => decide ((s.pbu.psus.get i).state = .inputLost))

/-- Answer RETRY to a request the TBP holds (R36). -/
def retryTag (s : State) (tag : BusTag) : State :=
  s.setTbp { s.tbp with slots := Vector.put s.tbp.slots tag ⟨none, some ⟨.retry, []⟩⟩ }

/-- The TBP hears of HOLD: every request accepted and not yet handed to the TMC is answered RETRY (R36). DESIGN CHOICE, log entry 80. -/
def tbpHold (s : State) : State :=
  let tags := s.tbp.heldReads.map (·.tag) ++ s.tbp.heldWrites.map (·.tag)
  tags.foldl retryTag (s.setTbp { s.tbp with heldReads := [], heldWrites := [] })

/-- The TMC hears of HOLD: no presentation is accepted from now on, and a patrol read not yet granted is withdrawn
(R61). Before initialisation is complete it hears of HOLD at completion (R129). -/
def tmcHold (s : State) : State :=
  if !s.tmc.initDone then s
  else
    let isPatrol (a : Access) : Bool := decide (a.kind = .patrol)
    tmcRest (s.setTmc { s.tmc with
      holdTold := true
      power := if s.tmc.power = .powerDown then .active else s.tmc.power
      patrolHeld := s.tmc.patrolHeld || s.tmc.presented.any isPatrol
      presented := s.tmc.presented.filter (fun a => !isPatrol a) })

/-- Accept presentations again: the requesters present what waits with them, the patrol its read, the SWQ its head
(R62). -/
def resumePresentations (s : State) : State :=
  if !s.tmc.accepting then s
  else
    let waiting := s.tmc.parked
    let s1 := presentAll (s.setTmc { s.tmc with parked := [] }) waiting
    let s2 := if s1.tmc.patrolHeld then
        present (s1.setTmc { s1.tmc with patrolHeld := false }) ⟨.patrol, s1.tmc.patrolLine⟩ else s1
    swqIssue s2

/-- The TMC hears of the end of HOLD: in SELF_REFRESH it begins the exit; before that it accepts presentations again
at once (R62). -/
def tmcHoldEnd (s : State) : State :=
  let s1 := s.setTmc { s.tmc with
    holdTold := false, exiting := s.tmc.exiting || (s.tmc.holdTold && decide (s.tmc.power = .selfRefresh)) }
  resumePresentations (tmcRest s1)

/-- HOLD is declared (R129). -/
def declareHold (w : Work) : Work :=
  raiseBudget (w.map (fun s => tmcHold (tbpHold (s.setPbu { s.pbu with hold := true })))) .holdDeclared 0

/-- HOLD ends: the budget is computed again, and a pending restore becomes due unless A has risen (R130). DEDUCED, log entry 58. DESIGN CHOICE, log entry 84. -/
def endHold (w : Work) : Work :=
  let frozen := w.st.pbu.available
  let w1 := w.map (fun s => tmcHoldEnd (s.setPbu { s.pbu with hold := false }))
  let w2 := computeBudget none true w1
  if frozen < w2.st.pbu.available then w2
  else if w2.st.pbu.restorePending && w2.st.pbu.holdoffAt.isNone then
    (w2.setPbu { w2.st.pbu with restorePending := false }).dueRestore
  else w2

/-- After a change of PSU state: HOLD is tested first, and outside HOLD the budget is computed (R129, R131). -/
def afterPsu (w : Work) : Work :=
  let c := w.st.holdCondition
  if c && !w.st.pbu.hold then declareHold w
  else if !c && w.st.pbu.hold then restoreIfDue (grantIfDue (endHold w))
  else settle w

/-! ### PSU records (R124 to R128) -/

/-- Replace a PSU record. -/
def setPsu (w : Work) (i : Bay) (x : Psu) : Work := w.map (fun s => s.setPbu { s.pbu with psus := Vector.put s.pbu.psus i x })

/-- The occasion of an entry to a state (Table 7.1-4). -/
def entryOccasion : PsuState → PsuOccasion
  | .empty => .empty
  | .settling => .settling
  | .online => .online
  | .inputLost => .inputLost
  | .faulted => .faulted
  | .unpowered => .unpowered

/-- A PSU enters a state with its PSU event. A pull during SETTLING raises none (R128). The grace timer runs in
INPUT_LOST alone, and the expired mark is clear on each entry to it and outside it (R127). DESIGN CHOICE, log entry 57. -/
def movePsu (w : Work) (i : Bay) (x : Psu) (st : PsuState) : Work :=
  let former := (w.st.pbu.psus.get i).state
  let grace := w.st.plu.inUse.grace
  let x1 : Psu := { x with
    state := st
    graceAt := if st = .inputLost ∧ 0 < grace then some (w.st.now + msec grace) else none
    expired := decide (st = .inputLost) && decide (grace = 0) }
  let w1 := setPsu w i x1
  let w2 := if former = .settling ∧ st = .empty then w1 else w1.raise .pbu (psuEvent w1.st i (entryOccasion st) former)
  if st = .inputLost ∧ grace = 0 then w2.raise .pbu (psuEvent w2.st i .graceExpired .inputLost) else w2

/-- The transitions of a settled PSU on an edge of POWER_GOOD or AC_OK, with the levels after the edge (Table 7.1-3).
None: the state stays. -/
inductive PsuEdge where
  | pgRise
  | pgFall
  | acRise
  | acFall
  deriving DecidableEq, Repr

def psuNext (st : PsuState) (e : PsuEdge) (powerGood acOk : Bool) : Option PsuState :=
  match st, e with
  | .online, .acFall => some .inputLost
  | .online, .pgFall => some (if acOk then .faulted else .unpowered)
  | .inputLost, .acRise => some .online
  | .inputLost, .pgFall => some .unpowered
  | .faulted, .pgRise => some .online
  | .faulted, .acFall => some .unpowered
  | .unpowered, .pgRise => if acOk then some .online else none
  | .unpowered, .acRise => if powerGood then some .online else none
  | _, _ => none

/-- A settled PSU follows an edge of its lines (R126). -/
def psuEdge (w : Work) (i : Bay) (e : PsuEdge) : Work :=
  let x := w.st.pbu.psus.get i
  match psuNext x.state e (w.st.pins.powerGood.get i) (w.st.pins.acOk.get i) with
  | some st => afterPsu (movePsu w i x st)
  | none => w

end Sys2Proof.Machine
end

