-- ==== Sys2Proof/Machine/Fans.lean ====
section
/-! DEFINITION. The Fan and Thermal Unit: the measurement window and the judgement of rotors (R146 to R149), trays,
lost rotors and the derate factor (R150 to R152), blade temperatures, thermal states and latches (R153 to R156),
and the target and driven duties of the zones (R157, R158). -/

namespace Sys2Proof.Machine

/-- Change the FTU. -/
def Work.setFtu (w : Work) (x : Ftu) : Work := w.map (fun s => s.setFtu x)

/-! ### Rotors, trays and lost rotors -/

/-- A rotor enters a state: its streaks are 0, and the spin-up timer runs in SPINUP alone, from 8 s (R147, R148). -/
def RotorRec.enter (r : RotorRec) (st : RotorState) (now : Nat) : RotorRec :=
  { r with
    state := st, spinupAt := if st = .spinup then some (now + sec 8) else none, low := 0, zero := 0, good := 0, running := 0 }

/-- STALLED or ABSENT (R151). -/
def RotorState.lost : RotorState → Bool
  | .stalled => true
  | .absent => true
  | _ => false

/-- SLOW, STALLED or ABSENT (R150). -/
def RotorState.failing (st : RotorState) : Bool := st.lost || decide (st = .slow)

/-- The state of a tray from its two rotors (Table 8.3-1). -/
def trayFrom (a b : RotorState) : TrayState :=
  if a.lost && b.lost then .failed else if a.failing || b.failing then .degraded else .ok

/-- The tray state that the rotors give. -/
def Ftu.trayNow (f : Ftu) (t : Tray) : TrayState := trayFrom (f.rotors.get (rotorA t)).state (f.rotors.get (rotorB t)).state

/-- The lost-rotor count L (R151). -/
def Ftu.lostNow (f : Ftu) : Nat := ((indices 12).filter (fun r => (f.rotors.get r).state.lost)).length

/-- The derate factor for a lost-rotor count: the table has entries for 0, 1, 2, 3 and 4 or more (R151). -/
def derateFor (t : Tunables) (lost : Nat) : Nat := t.derate.toList.getD (min 4 lost) 0

/-- The trays, L and f that follow from the rotors and the derate table in use. -/
def Ftu.derived (f : Ftu) (t : Tunables) : Ftu :=
  { f with trays := Vector.mapIx f.trays (fun i _ => f.trayNow i), lost := f.lostNow, derate := derateFor t f.lostNow }

/-- The rotors whose change raises an event: into SLOW or STALLED, or back to OK from either (Table 8.3-2). -/
def rotorReports (former now : RotorState) : Bool :=
  decide (former ≠ now) && (decide (now = .slow) || decide (now = .stalled) ||
    (decide (now = .ok) && (decide (former = .slow) || decide (former = .stalled))))

/-- After changes of rotor states or of the derate table: trays, L and f follow, the events are raised, and f is
handed to the PBU (R150 to R152). DESIGN CHOICE, log entry 86. -/
def fanConsequences (w : Work) (before : Ftu) : Work :=
  let w1 := w.setFtu (w.st.ftu.derived w.st.plu.inUse)
  let w2 := (indices 12).foldl (fun w r =>
    let former := (before.rotors.get r).state
    if rotorReports former (w.st.ftu.rotors.get r).state then w.raise .ftu (rotorEvent w.st r former) else w) w1
  let w3 := (indices 6).foldl (fun w t =>
    if before.trays.get t ≠ w.st.ftu.trays.get t then w.raise .ftu (trayEvent w.st t (before.trays.get t)) else w) w2
  w3.setPbu { w3.st.pbu with derate := w3.st.ftu.derate }

/-! ### Zone duty (R157, R158) -/

/-- A blade counts as present for the fan zones in every state but ABSENT (R153). -/
def State.seated (s : State) (b : Slot) : Bool := decide ((s.blade b).state ≠ .absent)

/-- The slots of a zone that hold a present blade. -/
def State.zoneBlades (s : State) (z : FanZone) : List Slot := (indices 8).filter (fun b => decide (zoneOfSlot b = z) && s.seated b)

/-- The target duty of a zone (R157). -/
def State.targetDuty (s : State) (z : FanZone) : Nat :=
  let blades := s.zoneBlades z
  if !s.armed || (indices 6).any (fun t => decide (zoneOfTray t = z) && decide (s.ftu.trays.get t ≠ .ok)) ||
      blades.any (fun b => !(s.ftu.temps.get b).fresh) then 100
  else blades.foldl (fun acc b => max acc (s.ftu.temps.get b).demand) s.plu.inUse.minDuty

/-- A duty step of 20 points or more: the rotors of the zone in OK or SPINUP enter or restart SPINUP (R148). -/
def dutyStep (now : Nat) (f : Ftu) (z : FanZone) : Ftu :=
  { f with rotors := Vector.mapIx f.rotors (fun r x =>
      if zoneOfRotor r = z ∧ (x.state = .ok ∨ x.state = .spinup) then x.enter .spinup now else x) }

/-- A zone takes its target; a driven duty below it rises at once (R157, R158). -/
def zoneStep (s : State) (z : FanZone) : State :=
  let x := s.ftu.zones.get z
  let target := s.targetDuty z
  let driven := max x.driven target
  let f := { s.ftu with zones := Vector.put s.ftu.zones z { x with target := target, driven := driven } }
  s.setFtu (if x.driven + 20 ≤ target then dutyStep s.now f z else f)

/-- Compute both targets afresh (R157). -/
def targetStep (w : Work) : Work := w.map (fun s => (indices 2).foldl zoneStep s)

/-- The fall of a zone's driven duty at a window end: at most 5 points towards the target; the new window's lowest
duty begins at the duty now driven (R146, R158). -/
def FanZoneRec.fall (x : FanZoneRec) : FanZoneRec :=
  let driven := if x.target < x.driven then x.driven - min 5 (x.driven - x.target) else x.driven
  { x with driven := driven, lowest := driven }

/-! ### The window end (R146, R149) -/

/-- The expected minimum for a rated speed and a lowest duty (R146). -/
def expectedMinimum (rated duty : Nat) : Nat := rated * duty * 70 / 10000

/-- Record a window's count (R146). -/
def RotorRec.record (r : RotorRec) (expected : Nat) : RotorRec :=
  { r with lastCount := r.count, speed := r.count * 30, expected := expected, count := 0 }

/-- Add the recorded window to the streaks (R149). -/
def RotorRec.addWindow (r : RotorRec) : RotorRec :=
  let low := decide (r.speed < r.expected) || decide (r.lastCount = 0)
  { r with
    low := if low then r.low + 1 else 0
    zero := if r.lastCount = 0 then r.zero + 1 else 0
    good := if low then 0 else r.good + 1
    running := if r.state = .stalled ∧ 0 < r.lastCount then r.running + 1 else 0 }

/-- The state a rotor moves to once its window has been added (Table 8.2-1). -/
def RotorRec.judged (r : RotorRec) : RotorState :=
  match r.state with
  | .ok => if 2 ≤ r.zero then .stalled else if 3 ≤ r.low then .slow else .ok
  | .slow => if 2 ≤ r.zero then .stalled else if 3 ≤ r.good then .ok else .slow
  | .stalled => if 3 ≤ r.good then .ok else if 3 ≤ r.running then .slow else .stalled
  | st => st

/-- Judge a rotor in OK, SLOW or STALLED at a window end (R149). -/
def RotorRec.judge (r : RotorRec) (now : Nat) : RotorRec :=
  match r.state with
  | .absent => r
  | .spinup => r
  | _ =>
    let x := r.addWindow
    if x.judged = x.state then x else x.enter x.judged now

/-- The end of a measurement window (R146, R149, R158); every rotor's record is written, also an unchanged one (R152). DEDUCED, log entry 67. -/
def windowEnd (w : Work) : Work :=
  let before := w.st.ftu
  let rated := w.st.plu.inUse.ratedSpeed
  let rotors := Vector.mapIx before.rotors (fun r x =>
    (x.record (expectedMinimum rated (before.zones.get (zoneOfRotor r)).lowest)).judge w.st.now)
  let w1 := fanConsequences (w.setFtu { before with rotors := rotors, windowAt := before.windowAt + sec 1 }) before
  let w2 := targetStep w1
  (w2.setFtu { w2.st.ftu with zones := w2.st.ftu.zones.map FanZoneRec.fall }).rewrite ((indices 12).map .rotorRecord)

/-! ### Blade temperatures (R153 to R156) -/

/-- The new thermal state for a curve input (Table 8.4-1). -/
def thermalNext (st : ThermalState) (input warn crit : Int) : ThermalState :=
  match st with
  | .normal => if crit ≤ input then .hot else if warn ≤ input then .warm else .normal
  | .warm => if crit ≤ input then .hot else if warn - 3 < input then .warm else .normal
  | .hot => if crit - 3 < input then .hot else if warn - 3 < input then .warm else .normal

/-- A latch for a curve input (R156). -/
def latchNext (latched : Bool) (input t : Int) : Bool := decide (t ≤ input) || (latched && decide (t - 2 ≤ input))

/-- The demand: the largest duty among the latched breakpoints (R156). -/
def demandOf (curve : Vector Breakpoint 4) (latches : Vector Bool 4) : Nat :=
  (indices 4).foldl (fun acc i => if latches.get i then max acc (curve.get i).duty else acc) 0

/-- The curve input of a fresh temperature: max(hotspot, inlet + inlet offset) (R153). -/
def BladeTemp.curveInput (b : BladeTemp) (offset : Nat) : Int := max (b.hotspot.getD 0) (b.inlet.getD 0 + (offset : Int))

/-- Compute the curve input of a fresh record, then the latches and the demand. A breakpoint changed while the
temperature was not fresh is decided afresh (R153, R156). -/
def BladeTemp.compute (b : BladeTemp) (t : Tunables) : BladeTemp :=
  let input := b.curveInput t.inletOffset
  let latches := Vector.mapIx b.latches (fun i l => latchNext (l && !b.stale.get i) input (t.curve.get i).temp)
  { b with input := input, latches := latches, stale := Vector.replicate 4 false, demand := demandOf t.curve latches }

/-- Replace a blade thermal record. -/
def setTemp (w : Work) (b : Slot) (x : BladeTemp) : Work := w.map (fun s => s.setFtu { s.ftu with temps := Vector.put s.ftu.temps b x })

/-- The row of Table 8.4-2 for a change of thermal state. -/
def thermalRow (former now : ThermalState) : Nat :=
  match now with
  | .hot => 1
  | .normal => 2
  | .warm => if former = .hot then 3 else 0

/-- Evaluate the thermal state of a fresh blade and hand on its change (R154, R155). -/
def thermalStep (w : Work) (b : Slot) : Work :=
  let x := w.st.ftu.temps.get b
  let st := thermalNext x.thermal x.input w.st.plu.inUse.warn w.st.plu.inUse.crit
  if st = x.thermal then w
  else
    let w1 := setTemp w b { x with thermal := st }
    let w2 := w1.raise .ftu (bladeFanEvent w1.st b (thermalRow x.thermal st) x.thermal)
    if st = .hot then heatBlade w2 b else if x.thermal = .hot then w2.dueRestore else w2

/-- Set a blade's freshness. A change is reported when the temperature has been fresh since the blade last entered
ABSENT (R155). DEDUCED, log entry 66. -/
def freshStep (w : Work) (b : Slot) (fresh : Bool) : Work :=
  let x := w.st.ftu.temps.get b
  if fresh = x.fresh then w
  else
    let w1 := setTemp w b { x with fresh := fresh, wasFresh := x.wasFresh || fresh }
    if x.wasFresh then w1.raise .ftu (bladeFanEvent w1.st b (if fresh then 5 else 4) x.thermal) else w1

/-- A reading as the BLC hands it on: outside −40 to 125 it is 127 (R82). -/
def handedReading (b : Byte) : Int := if signedByte b < -40 ∨ 125 < signedByte b then 127 else signedByte b

/-- Readings are delivered (R153, R154): they are stored, the freshness timer starts at 3 s, and a fresh temperature
is evaluated. DESIGN CHOICE, log entry 93. -/
def deliverStatus (w : Work) (b : Slot) (inlet hotspot : Int) : Work :=
  let x := w.st.ftu.temps.get b
  let fresh := decide (inlet ≠ 127) && decide (hotspot ≠ 127)
  let x1 := { x with inlet := some inlet, hotspot := some hotspot, taken := w.st.now, freshAt := some (w.st.now + sec 3) }
  if fresh then thermalStep (freshStep (setTemp w b (x1.compute w.st.plu.inUse)) b true) b
  else freshStep (setTemp w b x1) b false

/-- A blade entering ABSENT returns its thermal record to the reset values (R153). -/
def forgetTemp (w : Work) (b : Slot) : Work := setTemp w b .reset

/-! ### Changes of the FTU's tunables (R154, R156) -/

/-- The breakpoints that differ between two curves. -/
def changedBreakpoints (o n : Vector Breakpoint 4) : Vector Bool 4 :=
  Vector.mapIx (Vector.replicate 4 false) (fun i _ => decide (o.get i ≠ n.get i))

/-- One blade after a change of the curve, warn, crit or the inlet offset: the changed breakpoints are decided afresh,
at once when the temperature is fresh, otherwise when it next becomes so. DEDUCED, log entry 65. -/
def tempTunables (old new : Tunables) (w : Work) (b : Slot) : Work :=
  let x := w.st.ftu.temps.get b
  let changed := changedBreakpoints old.curve new.curve
  let x1 := { x with stale := Vector.mapIx x.stale (fun i st => st || changed.get i) }
  if x.fresh then thermalStep (setTemp w b (x1.compute new)) b else setTemp w b x1

/-- The FTU after a change of tunables: temperatures when their tunables changed, and f when the derate table did
(R151, R154, R156). -/
def ftuTunables (old new : Tunables) (w : Work) : Work :=
  let w1 := if old.curve ≠ new.curve ∨ old.warn ≠ new.warn ∨ old.crit ≠ new.crit ∨ old.inletOffset ≠ new.inletOffset then
      (indices 8).foldl (tempTunables old new) w else w
  if old.derate ≠ new.derate then fanConsequences w1 w1.st.ftu else w1

end Sys2Proof.Machine
end

