-- ==== Sys2Proof/Machine/Policy.lean ====
section
/-! DEFINITION. What the policy block steers: the tunable copy and the units that a changed value in use reaches
(R136, R171), the attention state and the coalescing timer (R166), the watched words that wait for their owners
(R38), and the part's entry to ARMING and ARMED (R168 to R170). -/

namespace Sys2Proof.Machine

/-! ### Watched words -/

/-- Act on the first handed word of an owner (R38): a stale word is dropped without effect, a word that asks for
another command of its owner is left in place. -/
def onWord (s : State) (mine : WatchedWord → Bool) (stale fits : Handed → Bool) (op : Handed → Work → Work) :
    Host.Outcome State Fault Refusal :=
  match s.tbp.handed.find? (fun h => mine h.word) with
  | none => .next s
  | some h =>
    let s1 := s.setTbp { s.tbp with handed := s.tbp.handed.erase h }
    if stale h then .next s1
    else if fits h then finish s1 (op h (Work.start s1))
    else .next s

/-- Byte 0 of a word: its command, mode or action. -/
def wordCode (v : BitVec 64) : Nat := (v.extractLsb' 0 8).toNat

/-- Bytes 2 and 3 of a word: the sequence of a zone command, submit or policy control word. -/
def wordSequence (v : BitVec 64) : Nat := (v.extractLsb' 16 16).toNat

/-! ### Attention (R166) -/

/-- The unconsumed count (R161). -/
def Evu.unconsumed (e : Evu) (capacity : Nat) : Nat := (e.producer + capacity - e.consumer) % capacity

/-- The ring capacity as frozen. -/
def State.capacity (s : State) : Nat := (s.plu.layout.map (fun l => ringCapacity l.capCode)).getD 256

/-- The attention state becomes ASSERTED and the timer idle. -/
def Evu.assert (e : Evu) : Evu := { e with asserted := true, coalesceAt := none }

/-- A record has been written: in DEASSERTED it asserts by count or severity, or starts the idle timer (R166). That a
coalesce time of 0 asserts only where the timer is idle, and leaves a timer that runs under an earlier time, is a DESIGN CHOICE, log entry
105. -/
def Evu.recordWritten (e : Evu) (capacity : Nat) (t : Tunables) (sev : Severity) (now : Nat) : Evu :=
  if e.asserted then e
  else if t.coCount ≤ e.unconsumed capacity ∨ sev = .critical then e.assert
  else if e.coalesceAt.isSome then e
  else if t.coTime = 0 then e.assert
  else { e with coalesceAt := some (now + usec t.coTime) }

/-- A changed coalesce count at or below the unconsumed count asserts (R166). -/
def coalesceChanged (old new : Tunables) (w : Work) : Work :=
  let e := w.st.evu
  if old.coCount ≠ new.coCount ∧ w.st.armed = true ∧ e.asserted = false ∧ new.coCount ≤ e.unconsumed w.st.capacity then
    w.map (fun s => s.setEvu e.assert)
  else w

/-! ### Tunables (R171, R136) -/

/-- The blades in POWERING follow the default base draw (R87). -/
def powerBases (base : Nat) (s : State) : State :=
  s.setPau { s.pau with blades := s.pau.blades.map (fun b => if b.state = .powering then { b with base := base } else b) }

/-- The values in use change: each changed value is handed to the unit that uses it, and what follows is settled. A
lower D is a release of draw (R136, R142); a changed weight starts a grant round (R109). DEDUCED, log entry 62. -/
def changeTunables (new : Tunables) (w : Work) : Work :=
  let old := w.st.plu.inUse
  if new = old then w
  else
    let committed := w.st.committed
    let w1 := w.map (fun s => s.setPlu { s.plu with inUse := new })
    let w2 := if old.defaultBase ≠ new.defaultBase then w1.map (powerBases new.defaultBase) else w1
    let w3 := if w2.st.committed < committed then w2.dueRestore else w2
    let w4 := if old.weights ≠ new.weights then w3.dueGrant else w3
    settle (coalesceChanged old new (targetStep (ftuTunables old new w4)))

/-- Enabled bytes that fall in policy lines 0 to 31 enter the PLU's copy, and the tunables follow (R168, R171). -/
def enterCopy (w : Work) (addr : Nat) (masks : List (List (Option Byte))) : Work :=
  if addr < 2048 then
    let copy := w.st.plu.copy.writeMasked addr masks.flatten
    changeTunables (Tunables.ofCopy copy) (w.map (fun s => s.setPlu { s.plu with copy := copy }))
  else w

/-! ### Arming (R168, R169) -/

/-- Write an arm result with its detail and sequence (R168). -/
def armResult (w : Work) (r : ArmResult) (detail seq : Nat) : Work :=
  w.map (fun s => s.setPlu { s.plu with result := r, detail := detail, armSeq := seq })

/-- The layout is frozen and the part enters ARMING; the checks are made, and either the part enters ARM_FAILED with
the layout discarded, or the zero-fill is enqueued (R168, R169). DEDUCED, log entry 64. DESIGN CHOICE, log entry 95. -/
def beginArming (w : Work) (seq : Nat) : Work :=
  let l := Layout.ofCopy w.st.plu.copy
  match l.check (memoryBytes w.st.tmc.density) with
  | some (r, d) => armResult (w.map (fun s => s.setPlu { s.plu with part := .armFailed, layout := none })) r d seq
  | none =>
    (armResult (w.map (fun s => s.setPlu { s.plu with part := .arming, layout := some l, fill := .filling, started := seq })) .inProgress 0 seq).rewrite
      [.zeroFill 0]

/-- The ARM command in each part state (R168). DESIGN CHOICE, log entry 95. -/
def armCommand (w : Work) (seq : Nat) : Work :=
  match w.st.plu.part with
  | .unconfigured => beginArming w seq
  | .armFailed => beginArming w seq
  | .arming => armResult w .busy 0 seq
  | .armed => armResult w .alreadyArmed 0 seq

/-! ### Entry to ARMED (R170) -/

/-- The TBP at entry to ARMED: the four configured kinds of shadow are zero (R39). -/
def Tbp.onArmed (t : Tbp) : Tbp :=
  { t with
    zoneShadow := 0#64, portShadow := Vector.replicate 8 (Vector.replicate 48 0#64), submitShadow := Vector.replicate 8 0#64
    consumerShadow := 0#64 }

/-- The ZIU at entry to ARMED (R2, R3, R7, R10, R11, R18, R22). -/
def Ziu.onArmed (z : Ziu) : Ziu := { Ziu.reset with epoch := 1, runs := z.runs }

/-- The LU at entry to ARMED (R123). -/
def Lu.onArmed (l : Lu) (reserves : Vector Nat 8) : Lu :=
  { l with
    reserves := reserves, counters := Vector.replicate 8 0, queues := Vector.replicate 8 [], fifo := []
    slots := Vector.replicate 8 .reset }

/-- The PBU's collections at entry to ARMED (R137, R138). -/
def Pbu.onArmed (p : Pbu) : Pbu := { p with waitList := [], nextEntry := 0 }

/-- The EVU at entry to ARMED: indices and sequence 0, and a RING_LOST with code BEFORE_ARM, taken first, when drops
are pending (R161, R164). DEDUCED, log entry 70. DESIGN CHOICE, log entry 87. -/
def Evu.onArmed (e : Evu) (time : Nat) : Evu :=
  let lost := decide (0 < e.pending)
  { e with
    producer := 0, consumer := 0, sequence := if lost then 1 else 0
    ringLost := if lost then some ⟨1, time, true⟩ else none }

/-- Every port record takes the values of power-on reset (R92). -/
def Pau.onArmed (p : Pau) : Pau := { p with ports := Vector.replicate 8 (Vector.replicate 48 .reset) }

/-- The units take their starting points for the armed part, before any blade power check (R137, R170). -/
def armUnits (s : State) : State :=
  let reserves := (s.plu.layout.map (·.reserves)).getD (Vector.replicate 8 0)
  { s with
    tbp := s.tbp.onArmed, ziu := s.ziu.onArmed, pau := s.pau.onArmed, lu := s.lu.onArmed reserves, pbu := s.pbu.onArmed
    evu := s.evu.onArmed s.timestamp
    plu := { s.plu with part := .armed, result := .armed, detail := 0, armSeq := s.plu.started, fill := .idle } }

/-- A settled blade passes to the blade power check (R85). -/
def releaseSettled (w : Work) (b : Slot) : Work :=
  let x := w.st.blade b
  if x.state = .settling ∧ x.debounced = true then bladePowerCheck w b else w

/-- Entry to ARMED (R170): the units' starting points, the budget, the settled blades in slot order, the targets, and
the figures that are written again. DEDUCED, log entry 71. DESIGN CHOICE, log entry 100. DESIGN CHOICE, log entry 102. -/
def enterArmedWork (w : Work) : Work :=
  let w1 := budgetStep none (w.map armUnits)
  let w2 := (indices 8).foldl releaseSettled w1
  (settle (targetStep w2)).rewrite ((indices 4).map .psuRecord ++ [.budgetFigures, .budgetTunables])

end Sys2Proof.Machine
end

