-- ==== Sys2Proof/Machine/Bus.lean ====
section
/-! DEFINITION. The Table Bus Port: the form and the classification of requests (R31, R35), the stripping of
part-owned bytes (R34), reads and the hold behind SWQ entries (R32, R44), and the carrying out of writes: the window
map with the copy-first merge (R6, R8, R9, R16), watched words (R38) and the tunable copy (R171). -/

namespace Sys2Proof.Machine

/-- Change the TBP. -/
def Work.setTbp (w : Work) (x : Tbp) : Work := w.map (fun s => s.setTbp x)

/-! ### Tag slots -/

/-- A tag slot. -/
def State.tagSlot (s : State) (tag : BusTag) : TagSlot := s.tbp.slots.get tag

def State.setTag (s : State) (tag : BusTag) (x : TagSlot) : State := s.setTbp { s.tbp with slots := Vector.put s.tbp.slots tag x }

/-- The request occupies its tag slot (R29). -/
def acceptTag (s : State) (tag : BusTag) (isWrite : Bool) (addr lines : Nat) : State :=
  s.setTag tag ⟨some ⟨isWrite, addr, lines⟩, none⟩

/-- The response is sent and the tag slot is free (R29). DESIGN CHOICE, log entry 23. -/
def respond (s : State) (tag : BusTag) (status : BusStatus) (data : List (List Byte)) : State :=
  s.setTag tag ⟨none, some ⟨status, data⟩⟩

/-! ### Form and classification -/

/-- The form check fails: RANGE (R31). -/
def badForm (s : State) (addr len : Nat) : Bool :=
  !(decide (len = 1) || decide (len = 2) || decide (len = 4)) || decide (addr % 64 ≠ 0) || decide (addr % (64 * len) ≠ 0) ||
    decide (memoryBytes s.tmc.density < addr + 64 * len)

/-- The byte addresses of a request's lines. -/
def lineAddrs (addr lines : Nat) : List Nat := (List.range lines).map (fun i => addr + 64 * i)

/-- A line of the request lies in a configured region. -/
def inConfigured (s : State) (addrs : List Nat) : Bool := addrs.any (fun a => (regionOf s a).configured)

/-- A line of the request lies in the live window. -/
def Region.isLive : Region → Bool
  | .live _ => true
  | _ => false

/-- The bank line of the stage window that a byte address names, if any. -/
def stageLine (s : State) (a : Nat) : Option Nat :=
  match regionOf s a with
  | .stage k => if k = 0 then none else some k
  | _ => none

/-- Line `i` of a WRITE as enabled bytes (Table 11.6-1). DESIGN CHOICE, log entry 77. -/
def lineMask (data : List Byte) (enables : List Bool) (i : Nat) : List (Option Byte) :=
  let bytes := (((data.drop (64 * i)).zip (enables.drop (64 * i))).take 64).map (fun p => if p.2 then some p.1 else none)
  bytes ++ List.replicate (64 - bytes.length) none

/-- Clear the enables of the part-owned bytes of a line (R34). -/
def stripLine (s : State) (a : Nat) (mask : List (Option Byte)) : List (Option Byte) :=
  let r := regionOf s a
  (mask.zip (List.range 64)).map (fun p => if cpOwned s.armed r p.2 then p.1 else none)

/-- The mask enables some byte. -/
def anyEnabled (mask : List (Option Byte)) : Bool := mask.any (·.isSome)

/-- The answer that Table 2.2-1 gives without touching memory, or none when the request is carried out. `enabled`
says that the WRITE enables a byte, `owned` that it enables a CP-owned one. -/
def classify (s : State) (isWrite : Bool) (addrs : List Nat) (enabled owned : Bool) : Option BusStatus :=
  if s.pbu.hold then some .retry
  else if decide (s.plu.part = .arming) && inConfigured s addrs then some .retry
  else if !isWrite then none
  else if addrs.any (fun a => (regionOf s a).isLive) then some .denied
  else if enabled && !owned then some .denied
  else if !enabled then some .ok
  else if decide (s.ziu.zone = .awaitAck) && addrs.any (fun a => (stageLine s a).isSome) then some .retry
  else none

/-! ### Reads -/

/-- Hand a READ to the TMC: one access for each line, in order (R32, R56). -/
def startRead (s : State) (tag : BusTag) (lines : List Nat) : State :=
  let id := s.tmc.nextJob
  let job : BusJob := ⟨id, some tag, false, List.replicate lines.length [], false, 0, []⟩
  presentAll (s.setTmc { s.tmc with jobs := s.tmc.jobs ++ [job], nextJob := id + 1 })
    ((lines.zip (List.range lines.length)).map (fun p => ⟨.busRead id p.2, p.1⟩))

/-- A READ that is carried out: held behind the SWQ entries for its lines present now, or handed on (R44). DESIGN CHOICE, log entry 28. -/
def takeRead (s : State) (tag : BusTag) (addrs : List Nat) : State :=
  let lines := addrs.map (readLine s)
  let awaits := (s.swq.entries.filter (fun e => lines.contains e.line)).map (·.id)
  if awaits.isEmpty then startRead s tag lines
  else s.setTbp { s.tbp with heldReads := s.tbp.heldReads ++ [⟨tag, lines, awaits⟩] }

/-- Hand on the held reads whose awaited entries have all completed, in the order of their acceptance (R44). DESIGN CHOICE, log entry 78. -/
def releaseReads (s : State) : State :=
  let ready := s.tbp.heldReads.filter (fun r => r.awaits.isEmpty)
  ready.foldl (fun s r => startRead s r.tag r.lines)
    (s.setTbp { s.tbp with heldReads := s.tbp.heldReads.filter (fun r => !r.awaits.isEmpty) })

/-- An SWQ entry has completed: no held read awaits it any more. -/
def entryGone (s : State) (id : Nat) : State :=
  releaseReads (s.setTbp { s.tbp with
    heldReads := s.tbp.heldReads.map (fun r => { r with awaits := r.awaits.filter (fun x => decide (x ≠ id)) }) })

/-! ### Writes -/

/-- A line of a WRITE to be carried out: its address and its mask after stripping. -/
structure WriteLine where
  addr : Nat
  mask : List (Option Byte)
  deriving DecidableEq, Repr

/-- The lines of a WRITE after stripping. -/
def writeLines (s : State) (addrs : List Nat) (data : List Byte) (enables : List Bool) : List WriteLine :=
  (addrs.zip (List.range addrs.length)).map (fun p => ⟨p.1, stripLine s p.1 (lineMask data enables p.2)⟩)

/-- The bank lines that a WRITE lands on: every one it covers, as it is mapped line by line (R6). DESIGN CHOICE, log entry 24. -/
def bankLines (s : State) (lines : List WriteLine) : List Nat := lines.filterMap (fun l => stageLine s l.addr)

/-- The line is copied by the resync engine, and its copy has been presented (R23). -/
def copyPresented (s : State) (line : Nat) : Bool :=
  let isCopy (a : Access) : Bool := match a.kind with
    | .resync k _ => decide (k = line)
    | _ => false
  decide (s.ziu.copying = some line) &&
    (s.tmc.presented.any isCopy || (s.tmc.inProgress.map (fun p => isCopy p.access)).getD false)

/-- A copy that still waits to be presented gives way to a write of its line (R9, R23). -/
def dropParkedCopy (s : State) (line : Nat) : State :=
  if s.ziu.copying = some line then
    let keep (a : Access) : Bool := match a.kind with
      | .resync _ _ => false
      | _ => true
    (s.setTmc { s.tmc with parked := s.tmc.parked.filter keep }).setZiu { s.ziu with copying := none }
  else s

/-- The access of one line of a WRITE: for a bank line in the stage bank, with a copy-first merge from the live bank
when the line is RESYNC and not wholly written (R9). -/
def writeAccess (s : State) (job index : Nat) (l : WriteLine) : Access :=
  match stageLine s l.addr, s.plu.layout with
  | some k, some lay =>
    let merge := match s.ziu.lineState k with
      | .resync => !l.mask.all (·.isSome)
      | .errorHeld => !l.mask.all (·.isSome)
      | _ => false
    ⟨.busWrite job index l.mask (if merge then some (lay.bankLine s.ziu.liveBank k / 64) else none),
      lay.bankLine s.ziu.stageBank k / 64⟩
  | _, _ => ⟨.busWrite job index l.mask none, readLine s l.addr⟩

/-- The number of stage writes in flight an access counts for: the bank line and its merge copy (R6, R9). DEDUCED, log entry 25. -/
def stageWeight (s : State) (l : WriteLine) (a : Access) : Nat :=
  match stageLine s l.addr with
  | none => 0
  | some _ => match a.kind with
    | .busWrite _ _ _ (some _) => 2
    | _ => 1

/-- Copy a completed word into its watch shadow (R38). -/
def Tbp.setShadow (t : Tbp) (word : WatchedWord) (v : BitVec 64) : Tbp :=
  match word with
  | .policyControl => { t with policyShadow := v }
  | .zoneCommand => { t with zoneShadow := v }
  | .portRequest p => { t with portShadow := Vector.put t.portShadow p.slot (Vector.put (t.portShadow.get p.slot) p.port v) }
  | .tokenSubmit k => { t with submitShadow := Vector.put t.submitShadow k v }
  | .consumerIndex => { t with consumerShadow := v }

/-- The watched words a line completes, in ascending address order: all 8 bytes enabled (R38). -/
def completedWords (s : State) (l : WriteLine) : List Handed :=
  (List.range 8).filterMap (fun i =>
    let bytes := wordMask l.mask i
    if bytes.all (·.isSome) then
      (watchedAt s (l.addr + 8 * i)).map (fun w => ⟨w, BitVec.ofNat 64 (leNat (bytes.map (fun b => b.getD 0#8)))⟩)
    else none)

/-- Complete watched words: shadows are set and the words handed to their owners (R38). DESIGN CHOICE, log entry 29. -/
def handWords (s : State) (hs : List Handed) : State :=
  s.setTbp (hs.foldl (fun t h => let t := t.setShadow h.word h.value; { t with handed := t.handed ++ [h] }) s.tbp)

/-- The ZIU maps the bank lines of a WRITE: a validation ends with STAGE_CHANGED (R16), a waiting copy gives way, and
the lines become STAGED (R8). -/
def mapStage (w : Work) (banks : List Nat) : Work :=
  match banks with
  | [] => w
  | first :: _ =>
    let w1 := if w.st.ziu.zone = .validating then validationFails w .stageChanged first else w
    w1.map (fun s => banks.foldl (fun s k => (dropParkedCopy s k).setZiu ((dropParkedCopy s k).ziu.setLine k .staged)) s)

/-- Carry out a WRITE: each of its lines is presented as an access of its own, also a line that enables no byte; the bank
lines are mapped, the watched words completed and the tunable copy updated (R6, R9, R38, R47, Table 3.4-1, R171). -/
def carryWrite (w : Work) (tag : BusTag) (lines : List WriteLine) : Work :=
  let s := w.st
  let id := s.tmc.nextJob
  let accesses := (lines.zip (List.range lines.length)).map (fun p => writeAccess s id p.2 p.1)
  let weight := (lines.zip accesses).foldl (fun acc p => acc + stageWeight s p.1 p.2) 0
  let job : BusJob := ⟨id, some tag, true, [], false, weight, []⟩
  let w1 := w.map (fun s => presentAll
    ((s.setTmc { s.tmc with jobs := s.tmc.jobs ++ [job], nextJob := id + 1 }).setZiu { s.ziu with stageWrites := s.ziu.stageWrites + weight })
    accesses)
  let w2 := mapStage w1 (bankLines s lines)
  let w3 := w2.map (fun s' => handWords s' (lines.flatMap (completedWords s)))
  match lines with
  | l :: _ => enterCopy w3 l.addr (lines.map (·.mask))
  | [] => w3

/-- A WRITE that Table 2.2-1 has carried out: it waits while one of its lines is being copied (R23). DEDUCED, log entry 27. -/
def takeWriteRequest (w : Work) (tag : BusTag) (addr len : Nat) (data : List Byte) (enables : List Bool) : Work :=
  let s := w.st
  let lines := writeLines s (lineAddrs addr len) data enables
  if (bankLines s lines).any (copyPresented s) then
    w.setTbp { s.tbp with heldWrites := s.tbp.heldWrites ++ [⟨tag, addr, len, data, enables⟩] }
  else resyncAdvance (carryWrite w tag lines)

/-- Map the writes that waited for a copy, in the order of their acceptance (R23). -/
def releaseWrites (w : Work) : Work :=
  let held := w.st.tbp.heldWrites
  held.foldl (fun w h => carryWrite w h.tag (writeLines w.st (lineAddrs h.addr h.lines) h.data h.enables))
    (w.setTbp { w.st.tbp with heldWrites := [] })

/-! ### Requests as they arrive -/

/-- A READ at the TBP (R29 to R32, R35). -/
def readRequest (w : Work) (tag : BusTag) (addr len : Nat) : Work :=
  let s := w.st
  if (s.tagSlot tag).outstanding.isSome then w.raiseDirect (busProtocolEvent tag false addr len)
  else if badForm s addr len then w.map (fun s => respond s tag .range [])
  else match classify s false (lineAddrs addr len) false false with
    | some status => w.map (fun s => respond s tag status [])
    | none => w.map (fun s => takeRead (acceptTag s tag false addr len) tag (lineAddrs addr len))

/-- A WRITE at the TBP (R29 to R31, R34, R35). -/
def writeRequest (w : Work) (tag : BusTag) (addr len : Nat) (data : List Byte) (enables : List Bool) : Work :=
  let s := w.st
  if (s.tagSlot tag).outstanding.isSome then w.raiseDirect (busProtocolEvent tag true addr len)
  else if badForm s addr len then w.map (fun s => respond s tag .range [])
  else
    let addrs := lineAddrs addr len
    let enabled := (List.range len).any (fun i => anyEnabled (lineMask data enables i))
    let owned := (writeLines s addrs data enables).any (fun l => anyEnabled l.mask)
    match classify s true addrs enabled owned with
    | some status => w.map (fun s => respond s tag status [])
    | none => takeWriteRequest (w.map (fun s => acceptTag s tag true addr len)) tag addr len data enables

end Sys2Proof.Machine
end

