-- ==== Sys2Proof/Machine/ResetCommands.lean ====
section
/-! DEFINITION. The meanings of POWER_ON_RESET, INITIALISATION_COMPLETE, WARM_RESET and WARM_RESET_RELEASE. -/

namespace Sys2Proof.Machine

/-! ### POWER_ON_RESET (R46) -/

/-- The density the straps select: DENSITY1 is the upper bit (Table 3.1-1). -/
def densityOf (d1 d0 : Bool) : Fin 4 :=
  match d1, d0 with
  | false, false => 0
  | false, true => 1
  | true, false => 2
  | true, true => 3

/-- A blade record at the release of POR_N: SETTLING when its PRESENT is asserted (R84, R85). -/
def bladeAtReset (present : Bool) : Blade :=
  if present then { Blade.reset with state := .settling, debounceAt := some (sec 1) } else .reset

/-- A PSU record at the release of POR_N: SETTLING when its PRESENT is asserted (R124, R125). -/
def psuAtReset (present : Bool) : Psu :=
  if present then { Psu.reset with state := .settling, settleAt := some (sec 2) } else .reset

/-- The FTU at the release of POR_N: rotors of seated trays in SPINUP, the rest ABSENT, trays, L and f from the rotors
(R147, R150, R151, Table 8.6-1). -/
def ftuAtReset (trayPresent : Vector Bool 6) : Ftu :=
  { Ftu.reset with
    rotors := Vector.mapIx Ftu.reset.rotors (fun r x => if trayPresent.get (trayOf r) then x.enter .spinup 0 else x)
  }.derived .default

/-- A feature at power-on reset: the floor is read from its cells; E is 0 and the flag is clear (R121, R123). -/
def featureAtReset (cells : Vector NvCell 2) : FeatureState :=
  let (floor, fault) := readFloor cells
  { FeatureState.newPart with floor := floor, floorFault := fault, cells := cells }

/-- The floor cells that power-on reset finds: a program it cut short may have reached its cell, and a cell may fail
its check (R121). DESIGN CHOICE, log entry 8. -/
def cellsAtReset (l : Lu) (p : PowerOn) : Vector NvCell 2 × Vector NvCell 2 :=
  let l1 := match l.program with
    | some g => if p.programLanded then writeCell l g true else l
    | none => l
  let void (f : Feature) (i : Fin 2) (c : NvCell) : NvCell := if p.badCells.contains ⟨f, i⟩ then { c with valid := false } else c
  (Vector.mapIx l1.portUnits.cells (void .portUnits), Vector.mapIx l1.xdPorts.cells (void .xdPorts))

/-- The number of asserted lines. -/
def countSet {n : Nat} (v : Vector Bool n) : Nat := (v.toList.filter id).length

/-- The events that the units raise at the release of POR_N, all dropped and counted: one for each blade and PSU that
enters SETTLING and one for each tray found FAILED (R104, R128, R152, R164). DEDUCED, log entry 6. -/
def eventsAtReset (pins : Pins) : Nat :=
  countSet pins.bladePresent + countSet pins.psuPresent + (6 - countSet pins.trayPresent)

/-- Every unit at its power-on values; the lines keep their levels, the nonvolatile cells their contents, and the
waiting commands their queue (R46). -/
def powerOn (s : State) (p : PowerOn) : State :=
  let pins := { s.pins with density1 := p.density1, density0 := p.density0 }
  let cells := cellsAtReset s.lu p
  let ftu := ftuAtReset pins.trayPresent
  let lost := eventsAtReset pins
  { State.reset with
    pending := s.pending
    pins := pins
    tmc := Tmc.initialising (densityOf p.density1 p.density0)
    pau := { Pau.reset with blades := pins.bladePresent.map bladeAtReset }
    lu := { Lu.reset with portUnits := featureAtReset cells.1, xdPorts := featureAtReset cells.2 }
    pbu := { Pbu.reset with psus := pins.psuPresent.map psuAtReset, derate := ftu.derate
                            ceiling := thermalCeiling Tunables.default.thermalBase ftu.derate }
    ftu := ftu
    evu := { Evu.reset with pending := lost, lostTotal := lost } }

/-- POWER_ON_RESET (R46): assertion and release of POR_N. -/
def execPowerOnReset (p : PowerOn) (s : State) : Host.Outcome State Fault Refusal := .next (powerOn s p)

/-! ### INITIALISATION_COMPLETE (R48) -/

/-- The TMC as it reports initialisation complete; a HOLD declared meanwhile reaches it now (R48, R129). -/
def Tmc.initialised (t : Tmc) (now : Nat) (hold : Bool) : Tmc :=
  { t with
    initDone := true, power := .active, debt := 0, tbpWait := 0, internalWait := 0, lastSlot := 0, lastInternal := .swq
    deferred := [], patrolLine := 0, corrected := .zero, uncorrectable := .zero, poisonedWrite := .zero
    reportAt := some (now + sec 1), patrolAt := some (now + usec 16), holdTold := hold }

/-- Every status page item: each unit writes its whole figures once (R172). -/
def wholePage : List StatusItem :=
  (indices 8).map .bladeFigures ++ (indices 8).map .bladeErrors ++ [.licenceFigures] ++
  (indices 4).map .psuRecord ++ [.budgetFigures, .budgetTunables] ++
  (indices 12).map .rotorRecord ++ (indices 6).map .trayState ++ [.lostFigures, .zoneDuties] ++ (indices 8).map .bladeThermal ++
  [.partState, .partIdentity, .uptime, .policyTunables]

/-- INITIALISATION_COMPLETE (R48): ready is asserted, the waiting accesses are presented and the whole status page is
written. -/
def execInitialisationComplete (s : State) : Host.Outcome State Fault Refusal :=
  act (!s.tmc.initDone) s (fun w =>
    (w.map (fun s => resumePresentations (s.setTmc (s.tmc.initialised s.now s.pbu.hold)))).rewrite wholePage)

/-! ### WARM_RESET and its release -/

/-- The TBP at a warm reset: every outstanding request is dropped without a response (R45). -/
def Tbp.dropped (t : Tbp) : Tbp :=
  { t with
    slots := t.slots.map (fun x => if x.outstanding.isSome then ⟨none, none⟩ else x), heldReads := [], heldWrites := [] }

/-- WARM_RESET (R45): requests are dropped, those handed to the TMC are carried out without an answer, ready and ATTN
are low, and a validation in progress ends with ABORTED_BY_RESET (R27). DEDUCED, log entry 73. -/
def execWarmReset (s : State) : Host.Outcome State Fault Refusal :=
  act (!s.pins.warm) s (fun w =>
    let w1 := w.map (fun s => ((s.setPins { s.pins with warm := true }).setTbp s.tbp.dropped).setTmc
      { s.tmc with jobs := s.tmc.jobs.map (fun j => { j with tag := none }) })
    if w1.st.ziu.zone = .validating then zoneResult (endValidation w1) .abortedByReset 0 w1.st.ziu.started else w1)

/-- WARM_RESET_RELEASE (R167): ready is asserted again, ATTN follows the attention state, and the EVU takes events
again. -/
def execWarmResetRelease (s : State) : Host.Outcome State Fault Refusal :=
  act s.pins.warm s (fun w => w.map (fun s => s.setPins { s.pins with warm := false }))

end Sys2Proof.Machine
end

