-- ==== Sys2Proof/Machine/BusCommands.lean ====
section
/-! DEFINITION. The meanings of READ, WRITE, READ_COMPLETE and WRITE_COMPLETE (Chapter 2). -/

namespace Sys2Proof.Machine

/-- READ (R35): accepted while ready is asserted; otherwise the bus partner holds it (R29). DESIGN CHOICE, log entry 22. -/
def execRead (tag : BusTag) (addr : BitVec 32) (len : BitVec 3) (s : State) : Host.Outcome State Fault Refusal :=
  act s.ready s (fun w => readRequest w tag addr.toNat len.toNat)

/-- WRITE (R34): accepted while ready is asserted; otherwise the bus partner holds it (R29). -/
def execWrite (tag : BusTag) (addr : BitVec 32) (len : BitVec 3) (data : List Byte) (enables : List Bool) (s : State) :
    Host.Outcome State Fault Refusal :=
  act s.ready s (fun w => writeRequest w tag addr.toNat len.toNat data enables)

/-- The bus job whose last access is in progress: a READ's or a WRITE's. -/
def finishedJob (s : State) (write : Bool) : Option BusJob :=
  match s.tmc.inProgress with
  | none => none
  | some p =>
    if !s.tmc.isLast p.access.kind then none
    else match p.access.kind with
      | .busRead id _ => if write then none else s.tmc.jobs.find? (fun j => decide (j.id = id))
      | .busWrite id _ _ _ => if write then s.tmc.jobs.find? (fun j => decide (j.id = id)) else none
      | _ => none

/-- A job leaves the TMC and the channel is free. -/
def retireJob (s : State) (j : BusJob) : State :=
  clearChannel (s.setTmc { s.tmc with jobs := s.tmc.jobs.filter (fun x => decide (x.id ≠ j.id)) })

/-- The answer to a job: none once a warm reset has dropped its request (R45). -/
def answerJob (s : State) (j : BusJob) (status : BusStatus) (data : List (List Byte)) : State :=
  match j.tag with
  | some tag => respond s tag status data
  | none => s

/-- A READ has returned every line: OK with the data, or POISON (R32). -/
def readDone (w : Work) (j : BusJob) : Work :=
  w.map (fun s => answerJob (retireJob s j) j (if j.poisoned then .poison else .ok) (if j.poisoned then [] else j.got))

/-- A WRITE has completed: OK, its stage writes in flight fall, and its failed merge copies are reported (R6, R9,
R32). DESIGN CHOICE, log entry 26. -/
def writeDone (w : Work) (j : BusJob) : Work :=
  let w1 := w.map (fun s => answerJob ((retireJob s j).setZiu { s.ziu with stageWrites := s.ziu.stageWrites - j.stageWrites }) j .ok [])
  j.mergeErrors.foldl (fun w k => w.raise .ziu (zoneMemoryEvent 3 w.st.ziu.liveBank k)) w1

/-- READ_COMPLETE (R32). -/
def execReadComplete (s : State) : Host.Outcome State Fault Refusal :=
  match finishedJob s false with
  | some j => finish s (readDone (Work.start s) j)
  | none => .next s

/-- WRITE_COMPLETE (R32). -/
def execWriteComplete (s : State) : Host.Outcome State Fault Refusal :=
  match finishedJob s true with
  | some j => finish s (writeDone (Work.start s) j)
  | none => .next s

end Sys2Proof.Machine
end

