-- ==== Sys2Proof/Machine/ZoneCommands.lean ====
section
/-! DEFINITION. The meanings of the zone commands and of the steps of a commit (Chapter 1): COMMIT, ABORT,
ZONE_COMMAND_NONE, ZONE_BAD_COMMAND, VALIDATION_START, VALIDATOR_READ_COMPLETE, ACK_TIMEOUT, RESYNC_COPY_COMPLETE. -/

namespace Sys2Proof.Machine

/-! ### Zone command words (R11) -/

def WatchedWord.isZone : WatchedWord → Bool
  | .zoneCommand => true
  | _ => false

/-- The declared zone count of a command word: bytes 4 and 5. -/
def wordCount (v : BitVec 64) : Nat := (v.extractLsb' 32 16).toNat

/-- Act on the handed zone command word when it carries a new sequence and a fitting code; the seen sequence takes the
new value (R11). -/
def onZoneWord (s : State) (fits : Nat → Bool) (op : BitVec 64 → Work → Work) : Host.Outcome State Fault Refusal :=
  onWord s WatchedWord.isZone (fun h => decide (wordSequence h.value = s.ziu.seen)) (fun h => fits (wordCode h.value))
    (fun h w => op h.value (w.setZiu { w.st.ziu with seen := wordSequence h.value }))

/-- A COMMIT is accepted: VALIDATING, PENDING, with the declared count recorded (R12). -/
def acceptCommit (w : Work) (declared seq : Nat) : Work :=
  let z := w.st.ziu
  zoneResult (w.setZiu { z with
    zone := .validating, declared := declared, started := seq, aborting := false, runs := z.runs + 1
    validator := some ⟨z.runs + 1, false, 1, [], none⟩ }) .pending 0 seq

/-- A COMMIT acted on (R12). -/
def commitCommand (w : Work) (declared seq : Nat) : Work :=
  let z := w.st.ziu
  if z.zone ≠ .idle then zoneResult w .busy 1 seq
  else if 0 < z.resyncCount then zoneResult w .heldLines z.resyncCount seq
  else if z.epoch = 4294967295 then zoneResult w .epochLimit 0 seq
  else if z.stagedCount = 0 then zoneResult w .noChange 0 seq
  else acceptCommit w declared seq

/-- An ABORT takes effect: STAGED lines become RESYNC, and a resync pass starts or the ABORT ends at once (R26). -/
def abortNow (w : Work) (seq : Nat) : Work :=
  let w1 := w.setZiu { w.st.ziu with dirty := turnLines .staged .resync w.st.ziu.dirty }
  if 0 < w1.st.ziu.resyncCount then
    startResync (zoneResult (w1.setZiu { w1.st.ziu with aborting := true, started := seq }) .pending 0 seq)
  else zoneResult w1 .aborted 0 seq

/-- An ABORT acted on (R26). -/
def abortCommand (w : Work) (seq : Nat) : Work :=
  match w.st.ziu.zone with
  | .idle => abortNow w seq
  | .validating => abortNow (endValidation w) seq
  | .awaitAck => zoneResult w .busy 2 seq
  | .resyncing => zoneResult w .busy 2 seq

/-- COMMIT (R12). -/
def execCommit (s : State) : Host.Outcome State Fault Refusal :=
  onZoneWord s (fun c => decide (c = 1)) (fun v w => commitCommand w (wordCount v) (wordSequence v))

/-- ABORT (R26). -/
def execAbort (s : State) : Host.Outcome State Fault Refusal :=
  onZoneWord s (fun c => decide (c = 2)) (fun v w => abortCommand w (wordSequence v))

/-- ZONE_COMMAND_NONE (R11): only the seen sequence changes. -/
def execZoneCommandNone (s : State) : Host.Outcome State Fault Refusal :=
  onZoneWord s (fun c => decide (c = 0)) (fun _ w => w)

/-- ZONE_BAD_COMMAND (R11): the last result is BAD_COMMAND with the received code as detail. -/
def execZoneBadCommand (s : State) : Host.Outcome State Fault Refusal :=
  onZoneWord s (fun c => decide (2 < c)) (fun v w => zoneResult w .badCommand (wordCode v) (wordSequence v))

/-! ### Validation -/

/-- A deferred scrub of a bank is in progress. -/
def scrubInProgress (t : Tmc) (b : Bank) : Bool :=
  match t.inProgress with
  | some p => match p.access.kind with
    | .deferredScrub b' _ => decide (b' = b)
    | _ => false
  | none => false

/-- The validator may present its first read: no stage write in flight, and no granted deferred scrub of the stage bank
still in progress (R13, R51). -/
def mayValidate (s : State) : Option Validator :=
  match s.ziu.validator with
  | some v =>
    if s.ziu.zone = .validating ∧ v.started = false ∧ s.ziu.stageWrites = 0 ∧ scrubInProgress s.tmc s.ziu.stageBank = false then
      some v else none
  | none => none

/-- VALIDATION_START (R13). -/
def execValidationStart (s : State) : Host.Outcome State Fault Refusal :=
  match mayValidate s with
  | some v => finish s (presentValidator ((Work.start s).setZiu { s.ziu with validator := some { v with started := true } }) v.run 1)
  | none => .next s

/-- The validator read in progress delivers its line: a read of an ended validation is discarded (R13 to R16). -/
def validatorDelivers (w : Work) (run : Nat) (p : InProgress) : Work :=
  let w1 := w.map clearChannel
  match w.st.ziu.validator with
  | some v =>
    if v.run ≠ run then w1
    else if p.uncorrectable then validationFails w1 .memoryError v.line
    else validatorAdvance w1 v p.data
  | none => w1

/-- VALIDATOR_READ_COMPLETE (R14). -/
def execValidatorReadComplete (s : State) : Host.Outcome State Fault Refusal :=
  match s.tmc.inProgress with
  | some p => match p.access.kind with
    | .validator run => finish s (validatorDelivers (Work.start s) run p)
    | _ => .next s
  | none => .next s

/-! ### Acknowledgement timeout and resync copies -/

/-- The acknowledgement timer has run out: the blades still in the set are forced to LOST (R20). DEDUCED, log entry 41. -/
def ackTimeoutWork (w : Work) : Work :=
  let blades := w.st.ziu.ackSet
  let w1 := (w.setZiu { w.st.ziu with ackAt := none }).raise .ziu (ackTimeoutEvent w.st.ziu blades.length)
  settle (blades.foldl (fun w b => loseLink w b .epochTimeout) w1)

/-- ACK_TIMEOUT (R20). -/
def execAckTimeout (s : State) : Host.Outcome State Fault Refusal :=
  act (decide (s.ziu.zone = .awaitAck) && ranOut s.ziu.ackAt s.now) s ackTimeoutWork

/-- A resync copy has been carried out: the line is CLEAN, or error-held with a MEMORY event; the writes that waited
for it are mapped, and the engine goes on (R23, R24). DEDUCED, log entry 31. -/
def copyDone (w : Work) (line : Nat) (failed : Bool) : Work :=
  let w1 := w.map clearChannel
  let z := w1.st.ziu
  if z.copying ≠ some line then w1
  else
    let w2 := w1.setZiu { z.setLine line (if failed then .errorHeld else .clean) with copying := none, resyncPos := line + 1 }
    let w3 := if failed && decide (z.lineState line ≠ .errorHeld) then w2.raise .ziu (zoneMemoryEvent 4 z.liveBank line) else w2
    resyncAdvance (releaseWrites w3)

/-- RESYNC_COPY_COMPLETE (R23). -/
def execResyncCopyComplete (s : State) : Host.Outcome State Fault Refusal :=
  match s.tmc.inProgress with
  | some p => match p.access.kind with
    | .resync line _ => finish s (copyDone (Work.start s) line p.uncorrectable)
    | _ => .next s
  | none => .next s

end Sys2Proof.Machine
end

