-- ==== Sys2Proof/Machine/MemoryCommands.lean ====
section
/-! DEFINITION. The meanings of the table memory steps (Chapter 3): GRANT, REFRESH_DUE, IDLE_TIMEOUT,
SELF_REFRESH_ENTRY, SELF_REFRESH_EXIT, PATROL_TICK, PATROL_READ_COMPLETE, DEFERRED_SCRUB_COMPLETE and
REPORT_PERIOD_END; and of the status write queue: SWQ_ENTRY_COMPLETE and SWQ_PLACE_GRANT. -/

namespace Sys2Proof.Machine

/-- Change the TMC. -/
def Work.setTmc (w : Work) (x : Tmc) : Work := w.map (fun s => s.setTmc x)

/-- GRANT (R56). A granted access outside table memory, which no requester presents, stops. DESIGN CHOICE, log entry 10. -/
def execGrant (flips : List BitFlip) (s : State) : Host.Outcome State Fault Refusal :=
  match grantOnce s flips with
  | some t => finish s ((Work.start s).map (fun _ => t))
  | none => .fault .outsideTableMemory

/-- A refresh falls due: the debt rises by 1, to at most 8, and at 8 POWER_DOWN is left (R59, R60). -/
def Tmc.refreshDue (t : Tmc) : Tmc :=
  let debt := min 8 (t.debt + 1)
  { t with
    debt := debt, refreshAt := t.refreshAt.map (· + 780)
    power := if debt = 8 ∧ t.power = .powerDown then .active else t.power }

/-- REFRESH_DUE (R59). -/
def execRefreshDue (s : State) : Host.Outcome State Fault Refusal :=
  act (ranOut s.tmc.refreshAt s.now) s (fun w => w.setTmc w.st.tmc.refreshDue)

/-- IDLE_TIMEOUT (R60). -/
def execIdleTimeout (s : State) : Host.Outcome State Fault Refusal :=
  act (ranOut s.tmc.idleAt s.now) s (fun w => w.setTmc { w.st.tmc with power := .powerDown, idleAt := none })

/-- Self-refresh entry can end: told of HOLD, nothing presented and nothing in progress (R61). -/
def Tmc.drained (t : Tmc) : Bool :=
  t.initDone && t.holdTold && decide (t.power ≠ .selfRefresh) && t.presented.isEmpty && t.inProgress.isNone

/-- SELF_REFRESH_ENTRY (R61): the debt is paid and the interval timer stops. DESIGN CHOICE, log entry 59. -/
def execSelfRefreshEntry (s : State) : Host.Outcome State Fault Refusal :=
  act s.tmc.drained s (fun w => w.setTmc { w.st.tmc with power := .selfRefresh, debt := 0, refreshAt := none, idleAt := none })

/-- SELF_REFRESH_EXIT (R62): ACTIVE with the debt at 0 and the interval timer restarted; presentations are accepted
unless HOLD has been declared again. -/
def execSelfRefreshExit (s : State) : Host.Outcome State Fault Refusal :=
  act (s.tmc.exiting && decide (s.tmc.power = .selfRefresh)) s (fun w => w.map (fun s =>
    resumePresentations (s.setTmc { s.tmc with power := .active, exiting := false, debt := 0, refreshAt := some (s.now + 780) })))

/-- The patrol's previous read has not yet been granted, or waits out a HOLD (R55, R61). -/
def Tmc.patrolWaits (t : Tmc) : Bool := t.presented.any (fun a => decide (a.kind = .patrol)) || t.patrolHeld

/-- The 16 µs mark of the patrol: its read is presented unless the previous one waits or nothing is accepted (R55). DESIGN CHOICE, log entry 18. -/
def patrolTick (s : State) : State :=
  let s1 := s.setTmc { s.tmc with patrolAt := s.tmc.patrolAt.map (· + usec 16) }
  if s.tmc.patrolWaits || !s.tmc.accepting then s1 else present s1 ⟨.patrol, s.tmc.patrolLine⟩

/-- PATROL_TICK (R55). -/
def execPatrolTick (s : State) : Host.Outcome State Fault Refusal :=
  act (ranOut s.tmc.patrolAt s.now) s (fun w => w.map patrolTick)

/-- The patrol position after a line: the next one, and line 0 after the last (R55). -/
def nextPatrol (t : Tmc) (line : Nat) : Nat := if line + 1 < memoryLines t.density then line + 1 else 0

/-- PATROL_READ_COMPLETE (R55): what the read found was dealt with when it was carried out; the position advances. -/
def execPatrolReadComplete (s : State) : Host.Outcome State Fault Refusal :=
  match s.tmc.inProgress with
  | some p => match p.access.kind with
    | .patrol => finish s ((Work.start s).map (fun s => clearChannel (s.setTmc { s.tmc with patrolLine := nextPatrol s.tmc p.access.line })))
    | _ => .next s
  | none => .next s

/-- DEFERRED_SCRUB_COMPLETE (R51): the entry leaves the list. -/
def execDeferredScrubComplete (s : State) : Host.Outcome State Fault Refusal :=
  match s.tmc.inProgress with
  | some p => match p.access.kind with
    | .deferredScrub b k => finish s ((Work.start s).map (fun s => clearChannel (s.setTmc { s.tmc with deferred := s.tmc.deferred.erase (b, k) })))
    | _ => .next s
  | none => .next s

/-- Raise a MEMORY event for a counter above 0 (R54). -/
def reportCounter (code : Nat) (c : ErrorCounter) (w : Work) : Work := if 0 < c.count then w.raiseDirect (memoryReport code c) else w

/-- REPORT_PERIOD_END (R54): one MEMORY event for each counter above 0, and the counters start again. DESIGN CHOICE, log entry 88. -/
def execReportPeriodEnd (s : State) : Host.Outcome State Fault Refusal :=
  act (ranOut s.tmc.reportAt s.now) s (fun w =>
    let t := w.st.tmc
    (reportCounter 2 t.poisonedWrite (reportCounter 1 t.uncorrectable (reportCounter 0 t.corrected w))).setTmc { t with
      corrected := .zero, uncorrectable := .zero, poisonedWrite := .zero, reportAt := t.reportAt.map (· + sec 1) })

/-! ### The status write queue -/

/-- The head entry has completed: it leaves the queue, drain reports that waited for it are given, the next head is
issued, and reads held behind it are handed on (R40, R43, R44). DESIGN CHOICE, log entry 78. -/
def entryComplete (s : State) : State :=
  let s1 := clearChannel s
  match s1.swq.entries with
  | e :: rest => entryGone (swqIssue (giveDrains (s1.setSwq { s1.swq with entries := rest }))) e.id
  | [] => s1

/-- SWQ_ENTRY_COMPLETE (R40). -/
def execSwqEntryComplete (s : State) : Host.Outcome State Fault Refusal :=
  match s.tmc.inProgress with
  | some p => match p.access.kind with
    | .swqHead => finish s ((Work.start s).map entryComplete)
    | _ => .next s
  | none => .next s

/-- The units in the cyclic order of R42 that follow the one last served. -/
def unitsAfter (u : UnitId) : List UnitId := (allUnits.drop (u.index.1 + 1)) ++ allUnits.take (u.index.1 + 1)

/-- What becomes of a unit's waiting write once the SWQ has taken it: the zero-fill goes on with its next line, and the
last zero-fill line or an event record is followed by a request for a drain report (R43, R162, R169). -/
def afterTaken (s : State) (item : StatusItem) (u : UnitId) (rest : List WaitItem) : State :=
  match item with
  | .zeroFill k =>
    let lines := (s.plu.layout.map Layout.fillLines).getD 0
    if k + 1 < lines then s.setSwq (s.swq.setWaits u (.write (.zeroFill (k + 1)) :: rest))
    else askDrainPlu (releaseEvents u rest s)
  | .eventRecord _ _ => match s.evu.phase with
    | .placing sev => askDrainEvu (releaseEvents u rest s) sev
    | _ => releaseEvents u rest s
  | _ => releaseEvents u rest s

/-- The next waiting unit takes the freed place with the latest content of its first write, and hands on the events
behind it (R42). DESIGN CHOICE, log entry 79. -/
def placeGrant (s : State) : State :=
  match (unitsAfter s.swq.lastServed).find? s.swq.unitWaits with
  | none => s
  | some u =>
    match s.swq.waits u with
    | .write item :: rest =>
      (match render s item with
      | none => releaseEvents u rest s
      | some (line, bytes) => match takeWrite true s.swq line bytes with
        | none => s
        | some q => swqIssue (afterTaken (s.setSwq { q with lastServed := u }) item u rest))
    | items => releaseEvents u items s

/-- SWQ_PLACE_GRANT (R42). -/
def execSwqPlaceGrant (s : State) : Host.Outcome State Fault Refusal :=
  act (decide (s.swq.entries.length < swqPlaces) && allUnits.any s.swq.unitWaits) s (fun w => w.map placeGrant)

end Sys2Proof.Machine
end

