-- ==== Sys2Proof/Machine/LinkCommands.lean ====
section
/-! DEFINITION. The meanings of the blade link steps (Chapter 4): HELLO, FETCH, FETCH_COMPLETION, STATUS, PORT_NOTE,
ORDER_ACK, EPOCH_ACK, RESET, INVALID_MESSAGE, TRANSMISSION_COMPLETE and the expiries of the link's timers. -/

namespace Sys2Proof.Machine

/-- Change a link. -/
def Work.setLink (w : Work) (b : Slot) (l : Link) : Work := w.map (fun s => s.setLink b l)

/-- The end of the second of uptime in which a moment lies (R104). DESIGN CHOICE, log entry 44. -/
def endOfSecond (now : Nat) : Nat := (now / sec 1 + 1) * sec 1

/-- A message is counted as a link error; the changed count is written at the end of the second (R64, R104). -/
def linkError (w : Work) (b : Slot) : Work :=
  if 65535 ≤ (w.st.link b).errors then w
  else
    let x := w.st.blade b
    (w.map (fun s => countLinkError s b)).setBlade b { x with errorsAt := some (x.errorsAt.getD (endOfSecond w.st.now)) }

/-- A message is counted, with its LINK event (R64). -/
def linkFault (w : Work) (b : Slot) (reason : LinkReason) (type tag : Nat) : Work :=
  (linkError w b).raiseDirect (linkEvent b reason type tag)

/-- A valid message other than HELLO restarts the keepalive of an UP link at 2 s (R68). -/
def keepAlive (w : Work) (b : Slot) : Work :=
  let l := w.st.link b
  if l.state = .up then w.setLink b { l with keepAt := some (w.st.now + sec 2) } else w

/-- The link waits for HELLO. -/
def LinkState.waits : LinkState → Bool
  | .firstWait => true
  | .returnWait => true
  | _ => false

/-- The link is UP. -/
def State.linkUp (s : State) (b : Slot) : Bool := decide ((s.link b).state = .up)

/-! ### HELLO (R66, R68, R88) -/

/-- A WELCOME with the live epoch is ready (R66, R68). DESIGN CHOICE, log entry 39. -/
def sendWelcome (s : State) (b : Slot) : State := pumpLink (s.setLink b { s.link b with welcome := some s.ziu.epoch }) b

/-- The HELLO is refused (R66). -/
def helloRefused (b : Slot) (hdrSlot rev bodySlot ports : Nat) : Bool :=
  decide (rev ≠ 1) || decide (hdrSlot ≠ b.1) || decide (bodySlot ≠ b.1) ||
    !(decide (ports = 24) || decide (ports = 32) || decide (ports = 48))

/-- An accepted HELLO makes the link and the blade UP, and the blade's ports are reconciled (R66, R88, R101). -/
def helloAccepted (w : Work) (b : Slot) (ports base : Nat) : Work :=
  let l := w.st.link b
  let w1 := w.setLink b { l with state := .up, helloAt := none, portCount := some ports, keepAt := some (w.st.now + sec 2), dataRun := 0 }
  let w2 := budgetStep (some b) (bladeUp (w1.map (fun s => sendWelcome s b)) b ports base)
  settle (reconcile w2 b)

/-- A HELLO arrives on a link (R66, R68). -/
def takeHello (b : Slot) (hdrSlot hdrTag rev bodySlot ports : Byte) (baseDraw : BitVec 16) (s : State) :
    Host.Outcome State Fault Refusal :=
  let w := Work.start s
  match (s.link b).state with
  | .down => .next s
  | .lost => .next s
  | .up => finish s (w.map (fun s => sendWelcome s b))
  | _ =>
    if helloRefused b hdrSlot.toNat rev.toNat bodySlot.toNat ports.toNat then
      finish s (linkFault w b .badHello 1 hdrTag.toNat)
    else finish s (helloAccepted w b ports.toNat baseDraw.toNat)

/-- HELLO (R66). -/
def execHello (b : Slot) (hdrSlot hdrTag rev bodySlot ports : Byte) (baseDraw : BitVec 16) (s : State) : Host.Outcome State Fault Refusal :=
  takeHello b hdrSlot hdrTag rev bodySlot ports baseDraw s

/-! ### FETCH (R73, R74) -/

/-- The status of the answer without lines that a FETCH on a free tag receives, or none when it is bound (R74). -/
def fetchRefusal (s : State) (b : Slot) (first count : Nat) : Option FetchStatus :=
  if (s.link b).state ≠ .up then some .notReady
  else if s.pbu.hold then some .hold
  else if count = 0 ∨ 4 < count then some .range
  else if first = 0 ∨ 4095 < first + count - 1 then some .range
  else none

/-- The FETCH occupies its tag with a binding or none. -/
def occupyTag (s : State) (b : Slot) (tag : FetchTag) (first count : Nat) (bound : Option (Bank × Nat)) : State :=
  let l := s.link b
  s.setLink b { l with fetches := Vector.put l.fetches tag (some ⟨first, count, bound, [], false⟩) }

/-- The ZIU binds a fetch to the live bank and epoch, and its line reads are presented (R21). -/
def bindFetch (s : State) (b : Slot) (tag : FetchTag) (first count : Nat) : State :=
  let bank := s.ziu.liveBank
  let s1 := (occupyTag s b tag first count (some (bank, s.ziu.epoch))).setZiu
    { s.ziu with inFlight := Vector.put s.ziu.inFlight bank (s.ziu.inFlight.get bank + 1) }
  match s.plu.layout with
  | some l => presentAll s1 ((List.range count).map (fun i => ⟨.fetch b tag i, l.bankLine bank (first + i) / 64⟩))
  | none => s1

/-- A FETCH on a free tag (R74). -/
def fetchOnFreeTag (s : State) (b : Slot) (tag : FetchTag) (first count : Nat) : State :=
  match fetchRefusal s b first count with
  | some status => queueData (occupyTag s b tag first count none) b ⟨tag, s.ziu.epoch, status, []⟩
  | none => bindFetch s b tag first count

/-- All four fetch tags are occupied. -/
def Link.windowFull (l : Link) : Bool := l.fetches.toList.all (·.isSome)

/-- An OVERRUN answer for the tag waits to be sent. -/
def Link.overrunWaits (l : Link) (tag : FetchTag) : Bool := l.ready.any (fun d => decide (d.tag = tag) && decide (d.status = .overrun))

/-- A valid FETCH on a link that waits or is UP (R73). -/
def fetchTaken (w : Work) (b : Slot) (tag : FetchTag) (first count : Nat) : Work :=
  let l := w.st.link b
  if l.windowFull then
    if l.overrunWaits tag then linkError w b
    else (linkError w b).map (fun s => queueData s b ⟨tag, s.ziu.epoch, .overrun, []⟩)
  else if (l.fetches.get tag).isSome then linkFault w b .fetchTagReuse 2 tag.1
  else w.map (fun s => fetchOnFreeTag s b tag first count)

/-- A valid FETCH arrives (R73). -/
def takeFetch (b : Slot) (tag : FetchTag) (first : BitVec 16) (count : Byte) (s : State) : Host.Outcome State Fault Refusal :=
  act ((s.link b).state.waits || s.linkUp b) s (fun w => fetchTaken (keepAlive w b) b tag first.toNat count.toNat)

/-- FETCH (R73). -/
def execFetch (b : Slot) (tag : FetchTag) (first : BitVec 16) (count : Byte) (s : State) : Host.Outcome State Fault Refusal :=
  takeFetch b tag first count s

/-- A bound fetch has all its lines: the FETCH_DATA is built and the bank's in-flight count falls (R22, R75). -/
def fetchDone (w : Work) (b : Slot) (tag : FetchTag) : Work :=
  match (w.st.link b).fetches.get tag with
  | none => w
  | some f => match f.bound with
    | none => w
    | some (bank, epoch) =>
      let l := w.st.link b
      let d : FetchData := ⟨tag, epoch, if f.failed then .memory else .ok, if f.failed then [] else f.got⟩
      let w1 := w.setLink b { l with fetches := Vector.put l.fetches tag (some { f with bound := none, got := [] }) }
      dropInFlight (w1.map (fun s => queueData s b d)) bank

/-- FETCH_COMPLETION (R75, R76): the last read of a bound fetch, or the begun read of an abandoned one. -/
def execFetchCompletion (s : State) : Host.Outcome State Fault Refusal :=
  match s.tmc.inProgress with
  | none => .next s
  | some p => match p.access.kind with
    | .fetch b tag _ =>
      if s.tmc.isLast p.access.kind then finish s (fetchDone ((Work.start s).map clearChannel) b tag) else .next s
    | .abandoned bank => finish s (dropInFlight ((Work.start s).map clearChannel) bank)
    | _ => .next s

/-! ### Reports (R81 to R83) -/

/-- A valid STATUS arrives (R82). -/
def takeStatus (b : Slot) (inlet hotspot : Byte) (s : State) : Host.Outcome State Fault Refusal :=
  act (s.linkUp b) s (fun w =>
    settle (targetStep (deliverStatus (keepAlive w b) b (handedReading inlet) (handedReading hotspot))))

/-- STATUS (R82). -/
def execStatus (b : Slot) (inlet hotspot : Byte) (s : State) : Host.Outcome State Fault Refusal :=
  takeStatus b inlet hotspot s

/-- The port and optic class of a PORT_NOTE that passes its checks (R83). -/
def noteFields (s : State) (b : Slot) (port opticClass : Nat) : Option (PortRef × Fin 4) :=
  if hp : port < 48 then
    if hc : opticClass < 4 then
      (if decide (port < ((s.link b).portCount.getD 0)) then some (⟨b, ⟨port, hp⟩⟩, ⟨opticClass, hc⟩) else none)
    else none
  else none

/-- Record an optic class; a lower draw is a release of draw (R100, R142). -/
def noteOptic (w : Work) (p : PortRef) (c : Fin 4) : Work :=
  let x := w.st.port p
  let x' := { x with optic := some c }
  let w1 := w.setPort p x'
  if x'.draw w.st.plu.inUse < x.draw w.st.plu.inUse then w1.dueRestore else w1

/-- A valid PORT_NOTE arrives (R83). -/
def takePortNote (b : Slot) (hdrTag port opticClass : Byte) (s : State) : Host.Outcome State Fault Refusal :=
  act (s.linkUp b) s (fun w =>
    let w1 := keepAlive w b
    match noteFields s b port.toNat opticClass.toNat with
    | some (p, c) => settle (noteOptic w1 p c)
    | none => linkFault w1 b .badNote 4 hdrTag.toNat)

/-- PORT_NOTE (R83). -/
def execPortNote (b : Slot) (hdrTag port opticClass : Byte) (s : State) : Host.Outcome State Fault Refusal :=
  takePortNote b hdrTag port opticClass s

/-- The outstanding order of a header tag. -/
def Link.outstanding (l : Link) (tag : Nat) : Option (OrderTag × OutOrder) :=
  if h : tag < 8 then (l.orders.get ⟨tag, h⟩).map (fun o => (⟨tag, h⟩, o)) else none

/-- A valid ORDER_ACK on an UP link (R79): the order leaves the table, the PAU decides, and the queue's head may go. -/
def orderAnswered (w : Work) (b : Slot) (t : OrderTag) (o : OutOrder) (result : OrderResult) : Work :=
  let l := w.st.link b
  let w1 := w.setLink b { l with orders := Vector.put l.orders t none }
  let w2 := acknowledge w1 ⟨b, o.order.port⟩ o.order.action result
  settle (w2.map (fun s => pumpLink s b))

/-- A valid ORDER_ACK arrives (R79). -/
def takeOrderAck (b : Slot) (tag : Byte) (result : OrderResult) (s : State) : Host.Outcome State Fault Refusal :=
  act (s.linkUp b) s (fun w =>
    let w1 := keepAlive w b
    match (s.link b).outstanding tag.toNat with
    | some (t, o) => orderAnswered w1 b t o result
    | none => linkFault w1 b .unknownOrderTag 5 tag.toNat)

/-- ORDER_ACK (R79). -/
def execOrderAck (b : Slot) (tag : Byte) (result : OrderResult) (s : State) : Host.Outcome State Fault Refusal :=
  takeOrderAck b tag result s

/-- A valid EPOCH_ACK arrives: in AWAIT_ACK, with the live epoch, the blade leaves the acknowledgement set (R81, R18). -/
def takeEpochAck (b : Slot) (epoch : BitVec 32) (s : State) : Host.Outcome State Fault Refusal :=
  act (s.linkUp b) s (fun w =>
    let w1 := keepAlive w b
    if s.ziu.zone = .awaitAck ∧ epoch.toNat = s.ziu.epoch then leaveAckSet w1 b else w1)

/-- EPOCH_ACK (R81): in AWAIT_ACK, with the live epoch, the blade leaves the acknowledgement set (R18). -/
def execEpochAck (b : Slot) (epoch : BitVec 32) (s : State) : Host.Outcome State Fault Refusal :=
  takeEpochAck b epoch s

/-- A valid RESET arrives: the loss of an UP link (R68). -/
def takeReset (b : Slot) (s : State) : Host.Outcome State Fault Refusal :=
  act (s.linkUp b) s (fun w => settle (loseLink w b .engineReset))

/-- RESET (R68). -/
def execReset (b : Slot) (s : State) : Host.Outcome State Fault Refusal :=
  takeReset b s

/-- The LINK reason of a failed reception check; a CRC failure has none (R64). -/
def ReceptionFailure.reason : ReceptionFailure → Option LinkReason
  | .crc => none
  | .badType => some .badType
  | .badLength => some .badLength
  | .badSlot => some .badSlot
  | .badField => some .badField

/-- Take a valid message on the link of a slot (R176). -/
def takeMessage (b : Slot) (m : EngineMessage) (s : State) : Host.Outcome State Fault Refusal :=
  match m with
  | .hello hdrSlot hdrTag rev bodySlot ports base => takeHello b hdrSlot hdrTag rev bodySlot ports base s
  | .fetch tag first count => takeFetch b tag first count s
  | .status inlet hotspot => takeStatus b inlet hotspot s
  | .portNote hdrTag port opticClass => takePortNote b hdrTag port opticClass s
  | .orderAck tag result => takeOrderAck b tag result s
  | .epochAck epoch => takeEpochAck b epoch s
  | .reset => takeReset b s

/-- A message that fails a reception check is discarded and counted, with its LINK event (R63, R64). -/
def discardMessage (b : Slot) (raw : List Byte) (f : ReceptionFailure) (w : Work) : Work :=
  match f.reason with
  | some r => linkFault w b r (raw.getD 0 0#8).toNat (raw.getD 4 0#8).toNat
  | none => linkError w b

/-- INVALID_MESSAGE (R63): bytes as received on a link. Those that fail a check are discarded; those that pass every check
are the message they spell by Table 11.7-1, and are taken as it. DESIGN CHOICE, log entry 40. -/
def execInvalidMessage (b : Slot) (raw : List Byte) (s : State) : Host.Outcome State Fault Refusal :=
  match receptionFailure b raw, EngineMessage.ofBytes raw with
  | some f, _ => act (decide ((s.link b).state ≠ .down)) s (discardMessage b raw f)
  | none, some m => takeMessage b m s
  | none, none => .next s

/-! ### Transmission and timers -/

/-- TRANSMISSION_COMPLETE (R72). -/
def execTransmissionComplete (b : Slot) (s : State) : Host.Outcome State Fault Refusal :=
  act (s.link b).sending.isSome s (fun w => w.map (fun s => s.setLink b ((s.link b).sent s.now).pump))

/-- HELLO_WAIT_EXPIRY (R67): a first wait ends DOWN with HELLO_TIMEOUT, a return wait is a loss with NO_HELLO. -/
def execHelloWaitExpiry (b : Slot) (s : State) : Host.Outcome State Fault Refusal :=
  act ((s.link b).state.waits && ranOut (s.link b).helloAt s.now) s (fun w =>
    if (s.link b).state = .firstWait then settle (faultBlade (stopLink w b) b .helloTimeout) else settle (loseLink w b .noHello))

/-- KEEPALIVE_EXPIRY (R68). -/
def execKeepaliveExpiry (b : Slot) (s : State) : Host.Outcome State Fault Refusal :=
  act (s.linkUp b && ranOut (s.link b).keepAt s.now) s (fun w => settle (loseLink w b .keepalive))

/-- ORDER_DEADLINE (R80). -/
def execOrderDeadline (b : Slot) (tag : OrderTag) (s : State) : Host.Outcome State Fault Refusal :=
  act (s.linkUp b && ranOut (((s.link b).orders.get tag).bind (·.deadline)) s.now) s (fun w => settle (loseLink w b .orderTimeout))

/-- LOST_HOLDOFF_EXPIRY (R71): a return wait of 10 s. -/
def execLostHoldoffExpiry (b : Slot) (s : State) : Host.Outcome State Fault Refusal :=
  act (decide ((s.link b).state = .lost) && ranOut (s.link b).holdoffAt s.now) s (fun w =>
    w.setLink b { w.st.link b with state := .returnWait, holdoffAt := none, helloAt := some (w.st.now + sec 10) })

end Sys2Proof.Machine
end

