-- ==== Sys2Proof/Machine/BladeCommands.lean ====
section
/-! DEFINITION. The meanings of the blade steps and of the port request words (Chapter 5): BLADE_INSERTED,
BLADE_REMOVED, DEBOUNCE_EXPIRY, LINK_ERROR_COUNT_WRITE, PORT_REQUEST_ON, PORT_REQUEST_OFF, PORT_REQUEST_INVALID. -/

namespace Sys2Proof.Machine

/-- The level of a slot's PRESENT line. -/
def setPresent (s : State) (b : Slot) (level : Bool) : State :=
  s.setPins { s.pins with bladePresent := Vector.put s.pins.bladePresent b level }

/-- BLADE_INSERTED (R85): SETTLING with the debounce timer at 1 s. -/
def execBladeInserted (b : Slot) (s : State) : Host.Outcome State Fault Refusal :=
  act (!s.pins.bladePresent.get b) s (fun w =>
    let w1 := w.map (fun s => setPresent s b true)
    if (s.blade b).state = .absent then
      settle (targetStep (moveBlade w1 b { s.blade b with state := .settling, debounceAt := some (s.now + sec 1), debounced := false }))
    else w1)

/-- BLADE_REMOVED (R91): ABSENT from any state; its thermal record returns to the reset values (R153). DESIGN CHOICE, log entry 92. -/
def execBladeRemoved (b : Slot) (s : State) : Host.Outcome State Fault Refusal :=
  act (s.pins.bladePresent.get b) s (fun w =>
    settle (targetStep (forgetTemp (removeBlade (w.map (fun s => setPresent s b false)) b) b)))

/-- The debounce timer has run out (R85). -/
def debounced (w : Work) (b : Slot) : Work :=
  let x := w.st.blade b
  if w.st.armed then settle (bladePowerCheck (w.setBlade b { x with debounceAt := none }) b)
  else w.setBlade b { x with debounceAt := none, debounced := true }

/-- DEBOUNCE_EXPIRY (R85). -/
def execDebounceExpiry (b : Slot) (s : State) : Host.Outcome State Fault Refusal :=
  act (decide ((s.blade b).state = .settling) && ranOut (s.blade b).debounceAt s.now) s (fun w => debounced w b)

/-- LINK_ERROR_COUNT_WRITE (R104). -/
def execLinkErrorCountWrite (b : Slot) (s : State) : Host.Outcome State Fault Refusal :=
  act (ranOut (s.blade b).errorsAt s.now) s (fun w => (w.setBlade b { s.blade b with errorsAt := none }).rewrite [.bladeErrors b])

/-! ### Port request words (R93) -/

def WatchedWord.isRequest : WatchedWord → Bool
  | .portRequest _ => true
  | _ => false

/-- The port of a request word. -/
def WatchedWord.portRef : WatchedWord → PortRef
  | .portRequest p => p
  | _ => ⟨0, 0⟩

/-- Act on the first handed request word when it carries a new sequence and a fitting form (R93). -/
def onRequest (s : State) (fits : RequestForm → Bool) (op : PortRef → RequestWord → Work → Work) : Host.Outcome State Fault Refusal :=
  onWord s WatchedWord.isRequest (fun h => decide ((RequestWord.ofBits h.value).sequence = (s.port h.word.portRef).lastSeq))
    (fun h => fits (RequestWord.ofBits h.value).form) (fun h w => settle (op h.word.portRef (RequestWord.ofBits h.value) w))

def RequestForm.isOn : RequestForm → Bool
  | .on _ _ => true
  | _ => false

/-- PORT_REQUEST_ON (R94). -/
def execPortRequestOn (s : State) : Host.Outcome State Fault Refusal :=
  onRequest s RequestForm.isOn (fun p r w => match r.form with
    | .on c q => requestOn w p c q r.sequence
    | _ => w)

/-- PORT_REQUEST_OFF (R94). -/
def execPortRequestOff (s : State) : Host.Outcome State Fault Refusal :=
  onRequest s (fun f => decide (f = .off)) (fun p r w => requestOff w p r.sequence)

/-- PORT_REQUEST_INVALID (R93). -/
def execPortRequestInvalid (s : State) : Host.Outcome State Fault Refusal :=
  onRequest s (fun f => decide (f = .invalid)) (fun p r w => requestInvalid w p r.sequence)

end Sys2Proof.Machine
end

