-- ==== Sys2Proof/Machine/TokenCommands.lean ====
section
/-! DEFINITION. The meanings of the licence steps (Chapter 6): SUBMIT, SUBMIT_NONE, TOKEN_CHECK_START,
TOKEN_READ_COMPLETE and NV_PROGRAM_COMPLETE. -/

namespace Sys2Proof.Machine

def WatchedWord.isSubmit : WatchedWord → Bool
  | .tokenSubmit _ => true
  | _ => false

/-- The token slot of a submit word. -/
def WatchedWord.tokenIx : WatchedWord → TokenIx
  | .tokenSubmit k => k
  | _ => 0

/-- Act on the first handed submit word when it carries a new sequence and a fitting action; the seen submit sequence
takes the new value (R114). -/
def onSubmit (s : State) (fits : Nat → Bool) (op : TokenIx → Nat → Work → Work) : Host.Outcome State Fault Refusal :=
  onWord s WatchedWord.isSubmit (fun h => decide (wordSequence h.value = (s.lu.slots.get h.word.tokenIx).seen))
    (fun h => fits (wordCode h.value)) (fun h w =>
      let k := h.word.tokenIx
      op k (wordSequence h.value) (setSlot w k { w.st.lu.slots.get k with seen := wordSequence h.value }))

/-- A slot is submitted: queued, or refused as busy with a LICENSE event (R114, R122). DESIGN CHOICE, log entry 83. -/
def submitToken (w : Work) (k : TokenIx) (seq : Nat) : Work :=
  let x := w.st.lu.slots.get k
  if x.state = .empty ∨ x.state = .done then
    (setSlot w k { x with state := .queued, current := seq }).map (fun s => s.setLu { s.lu with fifo := s.lu.fifo ++ [k] })
  else
    let x' := { x with busySeq := seq }
    (setSlot w k x').raise .lu (licenseEvent k x' .busy seq)

/-- SUBMIT (R114). -/
def execSubmit (s : State) : Host.Outcome State Fault Refusal :=
  onSubmit s (fun c => decide (c = 1)) (fun k seq w => submitToken w k seq)

/-- SUBMIT_NONE (R114): NONE, or any other code than SUBMIT. -/
def execSubmitNone (s : State) : Host.Outcome State Fault Refusal :=
  onSubmit s (fun c => decide (c ≠ 1)) (fun _ _ w => w)

/-- A slot is CHECKING or PROGRAMMING (R115). -/
def Lu.occupied (l : Lu) : Bool := l.slots.toList.any (fun x => decide (x.state = .checking) || decide (x.state = .programming))

/-- The head of the submit FIFO enters CHECKING, and the read of its line is presented (R115). -/
def startCheck (s : State) (k : TokenIx) (rest : List TokenIx) : State :=
  let s1 := s.setLu { s.lu with fifo := rest, slots := Vector.put s.lu.slots k { s.lu.slots.get k with state := .checking } }
  match s.plu.layout with
  | some l => present s1 ⟨.token k, l.licence / 64 + k.1⟩
  | none => s1

/-- TOKEN_CHECK_START (R115). -/
def execTokenCheckStart (s : State) : Host.Outcome State Fault Refusal :=
  match s.lu.fifo with
  | k :: rest => act (!s.lu.occupied) s (fun w => w.map (fun s => startCheck s k rest))
  | [] => .next s

/-- The token read has completed (R115, R117): MEMORY_ERROR with the line's offset, or the checks. DESIGN CHOICE, log entry 53. -/
def tokenRead (w : Work) (k : TokenIx) (p : InProgress) : Work :=
  let w1 := w.map clearChannel
  if (w.st.lu.slots.get k).state ≠ .checking then w1
  else if p.uncorrectable then tokenDone w1 k .memoryError (64 * p.access.line)
  else settle (actOnToken w1 k (Token.ofLine p.data))

/-- TOKEN_READ_COMPLETE (R117). -/
def execTokenReadComplete (s : State) : Host.Outcome State Fault Refusal :=
  match s.tmc.inProgress with
  | some p => match p.access.kind with
    | .token k => finish s (tokenRead (Work.start s) k p)
    | _ => .next s
  | none => .next s

/-- NV_PROGRAM_COMPLETE (R120): after the 4 ms, with the outcome of the read-back. -/
def execNvProgramComplete (verified : Bool) (s : State) : Host.Outcome State Fault Refusal :=
  match s.lu.program with
  | some p => act (decide (p.doneAt ≤ s.now)) s (fun w => settle (programDone w p verified))
  | none => .next s

end Sys2Proof.Machine
end

