-- ==== Sys2Proof/Machine/PowerCommands.lean ====
section
/-! DEFINITION. The meanings of the power supply steps (Chapter 7): PSU_INSERTED, PSU_REMOVED, SETTLE_EXPIRY,
POWER_GOOD_RISE, POWER_GOOD_FALL, AC_OK_RISE, AC_OK_FALL, LOW_LINE_CHANGE, GRACE_EXPIRY, RESTORE_HOLDOFF_EXPIRY. -/

namespace Sys2Proof.Machine

/-- PSU_INSERTED (R125): SETTLING with the settle timer at 2 s. -/
def execPsuInserted (i : Bay) (s : State) : Host.Outcome State Fault Refusal :=
  act (!s.pins.psuPresent.get i) s (fun w =>
    let w1 := w.map (fun s => s.setPins { s.pins with psuPresent := Vector.put s.pins.psuPresent i true })
    let x := s.pbu.psus.get i
    if x.state = .empty then afterPsu (movePsu w1 i { x with settleAt := some (s.now + sec 2) } .settling) else w1)

/-- PSU_REMOVED (R125): EMPTY, the timers stopped and no capacity. -/
def execPsuRemoved (i : Bay) (s : State) : Host.Outcome State Fault Refusal :=
  act (s.pins.psuPresent.get i) s (fun w =>
    let w1 := w.map (fun s => s.setPins { s.pins with psuPresent := Vector.put s.pins.psuPresent i false })
    let x := s.pbu.psus.get i
    if x.state = .empty then w1 else afterPsu (movePsu w1 i { x with settleAt := none, capacity := none } .empty))

/-- The state at the end of settling (Table 7.1-2). -/
def settledState (powerGood acOk : Bool) : PsuState :=
  match powerGood, acOk with
  | true, true => .online
  | true, false => .inputLost
  | false, true => .faulted
  | false, false => .unpowered

/-- SETTLE_EXPIRY (R125): the capacity code is latched and the PSU moves by its lines. DESIGN CHOICE, log entry 60. -/
def execSettleExpiry (i : Bay) (code : BitVec 2) (s : State) : Host.Outcome State Fault Refusal :=
  let x := s.pbu.psus.get i
  act (decide (x.state = .settling) && ranOut x.settleAt s.now) s (fun w =>
    let w1 := w.map (fun s => s.setPins { s.pins with capacity := Vector.put s.pins.capacity i code })
    afterPsu (movePsu w1 i { x with settleAt := none, capacity := some (capacityOf code) }
      (settledState (s.pins.powerGood.get i) (s.pins.acOk.get i))))

/-- The level of a bay's POWER_GOOD line. -/
def setPowerGood (s : State) (i : Bay) (level : Bool) : State :=
  s.setPins { s.pins with powerGood := Vector.put s.pins.powerGood i level }

/-- The level of a bay's AC_OK line. -/
def setAcOk (s : State) (i : Bay) (level : Bool) : State := s.setPins { s.pins with acOk := Vector.put s.pins.acOk i level }

/-- POWER_GOOD_RISE (R126). -/
def execPowerGoodRise (i : Bay) (s : State) : Host.Outcome State Fault Refusal :=
  act (!s.pins.powerGood.get i) s (fun w => psuEdge (w.map (fun s => setPowerGood s i true)) i .pgRise)

/-- POWER_GOOD_FALL (R126). -/
def execPowerGoodFall (i : Bay) (s : State) : Host.Outcome State Fault Refusal :=
  act (s.pins.powerGood.get i) s (fun w => psuEdge (w.map (fun s => setPowerGood s i false)) i .pgFall)

/-- AC_OK_RISE (R126). -/
def execAcOkRise (i : Bay) (s : State) : Host.Outcome State Fault Refusal :=
  act (!s.pins.acOk.get i) s (fun w => psuEdge (w.map (fun s => setAcOk s i true)) i .acRise)

/-- AC_OK_FALL (R126). -/
def execAcOkFall (i : Bay) (s : State) : Host.Outcome State Fault Refusal :=
  act (s.pins.acOk.get i) s (fun w => psuEdge (w.map (fun s => setAcOk s i false)) i .acFall)

/-- A bay whose LOW_LINE changes are reported: neither EMPTY nor SETTLING (Table 7.1-4). -/
def PsuState.settled : PsuState → Bool
  | .empty => false
  | .settling => false
  | _ => true

/-- LOW_LINE_CHANGE (R131): the record follows the level, and the budget is computed. -/
def execLowLineChange (i : Bay) (level : Bool) (s : State) : Host.Outcome State Fault Refusal :=
  act (decide (s.pins.lowLine.get i ≠ level)) s (fun w =>
    let w1 := w.map (fun s => s.setPins { s.pins with lowLine := Vector.put s.pins.lowLine i level })
    let st := (s.pbu.psus.get i).state
    settle (if st.settled then w1.raise .pbu (psuEvent w1.st i (if level then .lowLineOn else .lowLineOff) st) else w1))

/-- GRACE_EXPIRY (R127): the PSU stays INPUT_LOST, marked expired and no longer counted. -/
def execGraceExpiry (i : Bay) (s : State) : Host.Outcome State Fault Refusal :=
  let x := s.pbu.psus.get i
  act (decide (x.state = .inputLost) && ranOut x.graceAt s.now) s (fun w =>
    let w1 := setPsu w i { x with graceAt := none, expired := true }
    afterPsu (w1.raise .pbu (psuEvent w1.st i .graceExpired .inputLost)))

/-- RESTORE_HOLDOFF_EXPIRY (R142): the restore process runs outside HOLD and is marked pending in it. -/
def execRestoreHoldoffExpiry (s : State) : Host.Outcome State Fault Refusal :=
  act (ranOut s.pbu.holdoffAt s.now) s (fun w =>
    if s.pbu.hold then w.setPbu { s.pbu with holdoffAt := none, restorePending := true }
    else restoreProcess (w.setPbu { s.pbu with holdoffAt := none, restorePending := false }))

end Sys2Proof.Machine
end

