-- ==== Sys2Proof/Machine/FanCommands.lean ====
section
/-! DEFINITION. The meanings of the fan and thermal steps (Chapter 8): TACH_PULSE, MEASUREMENT_WINDOW_END,
TRAY_INSERTED, TRAY_REMOVED, SPINUP_EXPIRY and FRESHNESS_EXPIRY. -/

namespace Sys2Proof.Machine

/-- Replace a rotor record. -/
def setRotor (w : Work) (r : Rotor) (x : RotorRec) : Work := w.setFtu { w.st.ftu with rotors := Vector.put w.st.ftu.rotors r x }

/-- TACH_PULSE (R146): the count of the window rises by 1, up to 1023. DESIGN CHOICE, log entry 68. -/
def execTachPulse (r : Rotor) (s : State) : Host.Outcome State Fault Refusal :=
  let x := s.ftu.rotors.get r
  finish s (setRotor (Work.start s) r { x with count := min 1023 (x.count + 1) })

/-- MEASUREMENT_WINDOW_END (R146). -/
def execMeasurementWindowEnd (s : State) : Host.Outcome State Fault Refusal :=
  act (decide (s.ftu.windowAt ≤ s.now)) s (fun w => settle (windowEnd w))

/-- Both rotors of a tray enter a state, and trays, L, f, targets and budget follow (R147, R150, R151, R157). -/
def trayChange (w : Work) (t : Tray) (st : RotorState) : Work :=
  let before := w.st.ftu
  let now := w.st.now
  let w1 := setRotor w (rotorA t) ((before.rotors.get (rotorA t)).enter st now)
  let w2 := setRotor w1 (rotorB t) ((before.rotors.get (rotorB t)).enter st now)
  settle (targetStep (fanConsequences w2 before))

/-- The level of a tray-present line. -/
def setTray (s : State) (t : Tray) (level : Bool) : State := s.setPins { s.pins with trayPresent := Vector.put s.pins.trayPresent t level }

/-- TRAY_INSERTED (R147). -/
def execTrayInserted (t : Tray) (s : State) : Host.Outcome State Fault Refusal :=
  act (!s.pins.trayPresent.get t) s (fun w => trayChange (w.map (fun s => setTray s t true)) t .spinup)

/-- TRAY_REMOVED (R147). -/
def execTrayRemoved (t : Tray) (s : State) : Host.Outcome State Fault Refusal :=
  act (s.pins.trayPresent.get t) s (fun w => trayChange (w.map (fun s => setTray s t false)) t .absent)

/-- SPINUP_EXPIRY (R148): the rotor enters OK. -/
def execSpinupExpiry (r : Rotor) (s : State) : Host.Outcome State Fault Refusal :=
  let x := s.ftu.rotors.get r
  act (decide (x.state = .spinup) && ranOut x.spinupAt s.now) s (fun w =>
    settle (targetStep (fanConsequences (setRotor w r (x.enter .ok s.now)) s.ftu)))

/-- FRESHNESS_EXPIRY (R153): the temperature is not fresh. -/
def execFreshnessExpiry (b : Slot) (s : State) : Host.Outcome State Fault Refusal :=
  let x := s.ftu.temps.get b
  act (ranOut x.freshAt s.now) s (fun w => settle (targetStep (freshStep (setTemp w b { x with freshAt := none }) b false)))

end Sys2Proof.Machine
end

