-- ==== Sys2Proof/Machine/EventCommands.lean ====
section
/-! DEFINITION. The meanings of the event ring steps (Chapter 9): RECORD_WRITE, EVENT_PUBLISH, CONSUMER_INDEX_WRITE,
COALESCING_TIMER_EXPIRY; and UPTIME_TICK (R172). -/

namespace Sys2Proof.Machine

/-- The ring is full (R161). -/
def Evu.full (e : Evu) (capacity : Nat) : Bool := decide ((e.producer + 1) % capacity = e.consumer)

/-- The EVU may write a record: the part is ARMED, WARM_RST_N released and no record being written (R160, R162). -/
def State.mayRecord (s : State) : Bool := s.armed && !s.pins.warm && decide (s.evu.phase = .idle)

/-- Place a record into the slot at the producer index by a status write (R162). -/
def placeRecord (w : Work) (e : Evu) (sev : Severity) (record : List Byte) : Work :=
  (w.map (fun s => s.setEvu { e with phase := .placing sev })).rewrite [.eventRecord e.producer record]

/-- Write the held RING_LOST, which carries the figures of this full check, and start a new count (R164). -/
def writeRingLost (w : Work) (r : RingLost) : Work :=
  let e := w.st.evu
  placeRecord w { e with ringLost := none, pending := 0 } .warn (recordBytes r.seq r.time (ringLostEvent r.beforeArm e.pending e.lostTotal))

/-- Ask for the drain report once the SWQ has taken the record (R43, R162). -/
def askRecordDrain (s : State) : State :=
  match s.evu.phase with
  | .placing sev =>
    if (s.swq.waits .evu).any (fun i => match i with
        | .write (.eventRecord _ _) => true
        | _ => false) then s else askDrainEvu s sev
  | _ => s

/-- RECORD_WRITE (R162): a held RING_LOST goes first and stays held while the ring is full; an event that finds the ring
full is dropped. DESIGN CHOICE, log entry 69. -/
def execRecordWrite (s : State) : Host.Outcome State Fault Refusal :=
  let w := Work.start s
  if !s.mayRecord then .next s
  else match s.evu.ringLost with
    | some r => if s.evu.full s.capacity then .next s else .next (askRecordDrain (publish s (writeRingLost w r)))
    | none => match s.evu.intake with
      | [] => .next s
      | e :: rest =>
        let v := { s.evu with intake := rest }
        if v.full s.capacity then finish s (w.map (fun s => s.setEvu v.drop))
        else .next (askRecordDrain (publish s (placeRecord w v e.event.severity (recordBytes e.seq e.time e.event))))

/-- The record is written: the producer index advances and ATTN is evaluated (R162, R166). -/
def publishRecord (s : State) (sev : Severity) : State :=
  let e := { s.evu with producer := (s.evu.producer + 1) % s.capacity, phase := .idle }
  s.setEvu (e.recordWritten s.capacity s.plu.inUse sev s.now)

/-- EVENT_PUBLISH (R162): at the drain report, also in HOLD before the TMC enters self-refresh. DESIGN CHOICE, log entry 103. -/
def execEventPublish (s : State) : Host.Outcome State Fault Refusal :=
  match s.evu.phase with
  | .drained sev => finish s ((Work.start s).map (fun s => publishRecord s sev))
  | _ => .next s

/-- Whether a consumer index is accepted (R163). -/
def Evu.accepts (e : Evu) (capacity v : Nat) : Bool :=
  decide (v < capacity) && decide ((v + capacity - e.consumer) % capacity ≤ (e.producer + capacity - e.consumer) % capacity)

/-- The EVU with a consumer index checked: accepted, or ignored. Emptying the ring deasserts ATTN and stops the timer
(R163, R166). -/
def Evu.consume (e : Evu) (capacity v : Nat) : Evu :=
  if !e.accepts capacity v || decide (v = e.consumer) then e
  else
    let e' := { e with consumer := v }
    if e'.unconsumed capacity = 0 then { e' with asserted := false, coalesceAt := none } else e'

def WatchedWord.isConsumer : WatchedWord → Bool
  | .consumerIndex => true
  | _ => false

/-- CONSUMER_INDEX_WRITE (R163). -/
def execConsumerIndexWrite (s : State) : Host.Outcome State Fault Refusal :=
  onWord s WatchedWord.isConsumer (fun _ => false) (fun _ => true)
    (fun h w => w.map (fun s => s.setEvu (s.evu.consume s.capacity h.value.toNat)))

/-- COALESCING_TIMER_EXPIRY (R166). -/
def execCoalescingTimerExpiry (s : State) : Host.Outcome State Fault Refusal :=
  act (ranOut s.evu.coalesceAt s.now) s (fun w => w.map (fun s => s.setEvu s.evu.assert))

/-- UPTIME_TICK (R172): the uptime is the timestamp in whole seconds. -/
def execUptimeTick (s : State) : Host.Outcome State Fault Refusal :=
  act (decide (s.plu.uptimeAt ≤ s.now)) s (fun w => w.map (fun s =>
    s.setPlu { s.plu with uptime := s.timestamp / 1000000, uptimeAt := s.plu.uptimeAt + sec 1 }))

end Sys2Proof.Machine
end

