-- ==== Sys2Proof/Machine/PolicyCommands.lean ====
section
/-! DEFINITION. The meanings of the policy control commands (Chapter 10): ARM, POLICY_COMMAND_NONE,
POLICY_BAD_COMMAND and ENTER_ARMED. -/

namespace Sys2Proof.Machine

def WatchedWord.isPolicy : WatchedWord → Bool
  | .policyControl => true
  | _ => false

/-- Act on the handed policy control word when it carries a new sequence and a fitting code; the seen arm sequence
takes the new value (R168). -/
def onPolicyWord (s : State) (fits : Nat → Bool) (op : BitVec 64 → Work → Work) : Host.Outcome State Fault Refusal :=
  onWord s WatchedWord.isPolicy (fun h => decide (wordSequence h.value = s.plu.seen)) (fun h => fits (wordCode h.value))
    (fun h w => op h.value (w.map (fun s => s.setPlu { s.plu with seen := wordSequence h.value })))

/-- ARM (R168). -/
def execArm (s : State) : Host.Outcome State Fault Refusal :=
  onPolicyWord s (fun c => decide (c = 1)) (fun v w => armCommand w (wordSequence v))

/-- POLICY_COMMAND_NONE (R168): only the seen arm sequence changes. -/
def execPolicyCommandNone (s : State) : Host.Outcome State Fault Refusal :=
  onPolicyWord s (fun c => decide (c = 0)) (fun _ w => w)

/-- POLICY_BAD_COMMAND (R168): arm result BAD_COMMAND with the code as detail. -/
def execPolicyBadCommand (s : State) : Host.Outcome State Fault Refusal :=
  onPolicyWord s (fun c => decide (1 < c)) (fun v w => armResult w .badCommand (wordCode v) (wordSequence v))

/-- ENTER_ARMED (R170): on the drain report of the zero-fill. -/
def execEnterArmed (s : State) : Host.Outcome State Fault Refusal :=
  act (decide (s.plu.part = .arming) && decide (s.plu.fill = .drained)) s enterArmedWork

end Sys2Proof.Machine
end

