-- ==== Sys2Proof/Machine/Dispatch.lean ====
section
/-! DEFINITION. One arm for each command of the table: a direct call of its meaning. -/

namespace Sys2Proof.Machine

def exec (i : Instr) (s : State) : Host.Outcome State Fault Refusal :=
  match i with
  | .powerOnReset p => Sys2Proof.Machine.execPowerOnReset p s
  | .initialisationComplete => Sys2Proof.Machine.execInitialisationComplete s
  | .warmReset => Sys2Proof.Machine.execWarmReset s
  | .warmResetRelease => Sys2Proof.Machine.execWarmResetRelease s
  | .read tag addr len => Sys2Proof.Machine.execRead tag addr len s
  | .write tag addr len data enables => Sys2Proof.Machine.execWrite tag addr len data enables s
  | .readComplete => Sys2Proof.Machine.execReadComplete s
  | .writeComplete => Sys2Proof.Machine.execWriteComplete s
  | .commit => Sys2Proof.Machine.execCommit s
  | .abort => Sys2Proof.Machine.execAbort s
  | .zoneCommandNone => Sys2Proof.Machine.execZoneCommandNone s
  | .zoneBadCommand => Sys2Proof.Machine.execZoneBadCommand s
  | .validationStart => Sys2Proof.Machine.execValidationStart s
  | .validatorReadComplete => Sys2Proof.Machine.execValidatorReadComplete s
  | .ackTimeout => Sys2Proof.Machine.execAckTimeout s
  | .resyncCopyComplete => Sys2Proof.Machine.execResyncCopyComplete s
  | .grant flips => Sys2Proof.Machine.execGrant flips s
  | .refreshDue => Sys2Proof.Machine.execRefreshDue s
  | .idleTimeout => Sys2Proof.Machine.execIdleTimeout s
  | .selfRefreshEntry => Sys2Proof.Machine.execSelfRefreshEntry s
  | .selfRefreshExit => Sys2Proof.Machine.execSelfRefreshExit s
  | .patrolTick => Sys2Proof.Machine.execPatrolTick s
  | .patrolReadComplete => Sys2Proof.Machine.execPatrolReadComplete s
  | .deferredScrubComplete => Sys2Proof.Machine.execDeferredScrubComplete s
  | .reportPeriodEnd => Sys2Proof.Machine.execReportPeriodEnd s
  | .swqEntryComplete => Sys2Proof.Machine.execSwqEntryComplete s
  | .swqPlaceGrant => Sys2Proof.Machine.execSwqPlaceGrant s
  | .hello link hdrSlot hdrTag rev bodySlot ports baseDraw => Sys2Proof.Machine.execHello link hdrSlot hdrTag rev bodySlot ports baseDraw s
  | .fetch link tag first count => Sys2Proof.Machine.execFetch link tag first count s
  | .fetchCompletion => Sys2Proof.Machine.execFetchCompletion s
  | .status link inlet hotspot => Sys2Proof.Machine.execStatus link inlet hotspot s
  | .portNote link hdrTag port opticClass => Sys2Proof.Machine.execPortNote link hdrTag port opticClass s
  | .orderAck link tag result => Sys2Proof.Machine.execOrderAck link tag result s
  | .epochAck link epoch => Sys2Proof.Machine.execEpochAck link epoch s
  | .reset link => Sys2Proof.Machine.execReset link s
  | .transmissionComplete link => Sys2Proof.Machine.execTransmissionComplete link s
  | .helloWaitExpiry link => Sys2Proof.Machine.execHelloWaitExpiry link s
  | .keepaliveExpiry link => Sys2Proof.Machine.execKeepaliveExpiry link s
  | .orderDeadline link tag => Sys2Proof.Machine.execOrderDeadline link tag s
  | .lostHoldoffExpiry link => Sys2Proof.Machine.execLostHoldoffExpiry link s
  | .bladeInserted slot => Sys2Proof.Machine.execBladeInserted slot s
  | .bladeRemoved slot => Sys2Proof.Machine.execBladeRemoved slot s
  | .debounceExpiry slot => Sys2Proof.Machine.execDebounceExpiry slot s
  | .linkErrorCountWrite slot => Sys2Proof.Machine.execLinkErrorCountWrite slot s
  | .portRequestOn => Sys2Proof.Machine.execPortRequestOn s
  | .portRequestOff => Sys2Proof.Machine.execPortRequestOff s
  | .portRequestInvalid => Sys2Proof.Machine.execPortRequestInvalid s
  | .submit => Sys2Proof.Machine.execSubmit s
  | .submitNone => Sys2Proof.Machine.execSubmitNone s
  | .tokenCheckStart => Sys2Proof.Machine.execTokenCheckStart s
  | .tokenReadComplete => Sys2Proof.Machine.execTokenReadComplete s
  | .nvProgramComplete verified => Sys2Proof.Machine.execNvProgramComplete verified s
  | .psuInserted bay => Sys2Proof.Machine.execPsuInserted bay s
  | .psuRemoved bay => Sys2Proof.Machine.execPsuRemoved bay s
  | .settleExpiry bay code => Sys2Proof.Machine.execSettleExpiry bay code s
  | .powerGoodRise bay => Sys2Proof.Machine.execPowerGoodRise bay s
  | .powerGoodFall bay => Sys2Proof.Machine.execPowerGoodFall bay s
  | .acOkRise bay => Sys2Proof.Machine.execAcOkRise bay s
  | .acOkFall bay => Sys2Proof.Machine.execAcOkFall bay s
  | .lowLineChange bay level => Sys2Proof.Machine.execLowLineChange bay level s
  | .graceExpiry bay => Sys2Proof.Machine.execGraceExpiry bay s
  | .restoreHoldoffExpiry => Sys2Proof.Machine.execRestoreHoldoffExpiry s
  | .tachPulse rotor => Sys2Proof.Machine.execTachPulse rotor s
  | .measurementWindowEnd => Sys2Proof.Machine.execMeasurementWindowEnd s
  | .trayInserted tray => Sys2Proof.Machine.execTrayInserted tray s
  | .trayRemoved tray => Sys2Proof.Machine.execTrayRemoved tray s
  | .spinupExpiry rotor => Sys2Proof.Machine.execSpinupExpiry rotor s
  | .freshnessExpiry slot => Sys2Proof.Machine.execFreshnessExpiry slot s
  | .recordWrite => Sys2Proof.Machine.execRecordWrite s
  | .eventPublish => Sys2Proof.Machine.execEventPublish s
  | .consumerIndexWrite => Sys2Proof.Machine.execConsumerIndexWrite s
  | .coalescingTimerExpiry => Sys2Proof.Machine.execCoalescingTimerExpiry s
  | .uptimeTick => Sys2Proof.Machine.execUptimeTick s
  | .arm => Sys2Proof.Machine.execArm s
  | .policyCommandNone => Sys2Proof.Machine.execPolicyCommandNone s
  | .policyBadCommand => Sys2Proof.Machine.execPolicyBadCommand s
  | .enterArmed => Sys2Proof.Machine.execEnterArmed s
  | .invalidMessage link raw => Sys2Proof.Machine.execInvalidMessage link raw s

end Sys2Proof.Machine
end

