-- ==== Sys2Proof/Machine/Step.lean ====
section
/-! DEFINITION. One step of the part: the waiting command at the front of the queue is carried out, and with no
command waiting one period of the reference clock passes. -/

namespace Sys2Proof.Machine

/-- One period of the 100 MHz reference clock passes (Table 11.8-1). DESIGN CHOICE, log entry 1. -/
def tick (s : State) : State := { s with now := s.now + 1 }

/-- Take the command at the front of the queue and carry it out on the state with the queue's rest. -/
def step (s : State) : Host.Outcome State Fault Refusal :=
  match s.pending with
  | c :: rest => exec c { s with pending := rest }
  | [] => .next (tick s)

/-- The command that a table word spells is put at the front of the queue; the table gives no row any bits, so no
word spells one. -/
def State.withFetchWord (s : State) (nbits w : Nat) : State :=
  match decodeTableWord nbits w with
  | some c => { s with pending := c :: s.pending }
  | none => s

end Sys2Proof.Machine
end

