-- ==== Sys2Proof/Safety.lean ====
section
/-! DEFINITION. The properties in which claims about the part are written: the invariants of its state, what a
command leaves of table memory, and the manual's tables and laws in their own terms, apart from the definitions that the
meanings use. -/

namespace Sys2Proof.Machine

/-- The sparse tables of the part are in their canonical form. -/
def State.tablesCanonical (s : State) : Bool :=
  s.tmc.mem.wf && sparseWf .clean s.tmc.marks && sparseWf .clean s.ziu.dirty && s.plu.copy.wf

/-- The power enable of a blade follows its state (R84). -/
def State.powerFollows (s : State) (b : Slot) : Prop := (s.blade b).powerEn = (s.blade b).state.powered

/-- The figures that the manual bounds lie within their bounds: the tunables in use (R171), the refresh debt (R59), the
places of the SWQ (R40), the derate factor (R133) and the demands of the blades (R156). -/
def State.bounded (s : State) : Prop :=
  s.plu.inUse.inRange = true ∧ s.tmc.debt ≤ 8 ∧ s.swq.entries.length ≤ 64 ∧ s.pbu.derate ≤ 100 ∧ ∀ b, (s.ftu.temps.get b).demand ≤ 100

/-- The state of a blade's link and that of the blade go together (R65, R66, R69, R71, R87 to R91). -/
def State.linkFollows (s : State) (b : Slot) : Prop :=
  (match (s.link b).state with
    | .down => !(s.blade b).state.powered
    | .firstWait => decide ((s.blade b).state = .powering)
    | .returnWait => decide ((s.blade b).state = .lost)
    | .up => decide ((s.blade b).state = .up)
    | .lost => decide ((s.blade b).state = .lost)) = true

/-- Every blade that owes an acknowledgement has its link UP (R17, R18). -/
def State.oweUp (s : State) : Prop := ∀ b ∈ s.ziu.ackSet, (s.link b).state = .up

/-- The law of zone duty (R157): the target is the one the trays and blades give, and the driven duty lies between the
target and 100. -/
def State.dutyLaw (s : State) (z : FanZone) : Prop :=
  (s.ftu.zones.get z).target = s.targetDuty z ∧ (s.ftu.zones.get z).target ≤ (s.ftu.zones.get z).driven ∧
    (s.ftu.zones.get z).driven ≤ 100

/-- A floor program in progress carries a sequence above the floor of its feature (R118, R120). -/
def State.programAbove (s : State) : Prop :=
  ∀ p, s.lu.program = some p → (s.lu.feature p.feature).floor < p.seq

/-- Table memory reads as before at every byte. -/
def memoryKept (s t : State) : Prop := ∀ a, t.tmc.mem.read a = s.tmc.mem.read a

/-- What a command leaves that neither is granted an access nor acts on the event ring or on ATTN: every byte of table
memory and the condition of every word, the ring's indices, the attention state and the coalescing timer. -/
def backgroundKept (s t : State) : Prop :=
  memoryKept s t ∧ t.tmc.marks = s.tmc.marks ∧ t.evu.producer = s.evu.producer ∧ t.evu.consumer = s.evu.consumer ∧
    t.evu.asserted = s.evu.asserted ∧ t.evu.coalesceAt = s.evu.coalesceAt

/-- What the budget, the grant round and the restore process leave as it was: the units that take no part in them, the
features, token slots and programs of the LU, the PSU records and HOLD. -/
def admissionFrame (s t : State) : Prop :=
  backgroundKept s t ∧ (∀ f, t.lu.feature f = s.lu.feature f) ∧ t.lu.slots = s.lu.slots ∧ t.lu.fifo = s.lu.fifo ∧
    t.lu.program = s.lu.program ∧ t.lu.reserves = s.lu.reserves ∧ t.pbu.psus = s.pbu.psus ∧ t.pbu.hold = s.pbu.hold ∧
    t = { s with tmc := t.tmc, swq := t.swq, blc := t.blc, pau := t.pau, lu := t.lu, pbu := t.pbu, evu := t.evu }

/-- What the control processor and the blade have last said of a port: nothing but a request word, a PORT_NOTE, a removal
and arming change it. -/
def Port.asks (x : Port) : Bool × Option PortConfig × Fin 8 × Nat × Option (Fin 4) := (x.desired, x.request, x.priority, x.lastSeq, x.optic)

/-- The blades of the other slots keep their records, but for those that wait for power. -/
def otherBladesKept (s t : State) (b : Slot) : Prop := ∀ c, c ≠ b → (s.blade c).state ≠ .waitPower → t.blade c = s.blade c

/-- The form check of a table bus request fails (R31). -/
def formFails (s : State) (addr len : Nat) : Prop :=
  ¬(len = 1 ∨ len = 2 ∨ len = 4) ∨ addr % 64 ≠ 0 ∨ addr % (64 * len) ≠ 0 ∨ memoryBytes s.tmc.density < addr + 64 * len

/-- The part answers RETRY to a request before anything else: in HOLD, and while ARMING in a configured region (R36, R37). -/
def retried (s : State) (addr len : Nat) : Prop :=
  s.pbu.hold = true ∨ (s.plu.part = .arming ∧ ∃ a ∈ lineAddrs addr len, (regionOf s a).configured = true)

/-- The port is in no licence queue and not on the power wait list. -/
def State.idlePort (s : State) (p : PortRef) : Prop :=
  (∀ e ∈ s.queue p.slot, e.port ≠ p.port) ∧ (∀ e ∈ s.pbu.waitList, e.port ≠ p)

/-- A FETCH_DATA message of a link is waiting to be sent or in transmission. -/
def Link.holdsData (l : Link) (d : FetchData) : Prop := d ∈ l.ready ∨ l.sending = some ⟨.fetchData d, true⟩

/-- An order stands in a link's order queue or outstanding under a tag (R77, R78). -/
def Link.holdsOrder (l : Link) (o : Order) : Prop := o ∈ l.queue ∨ ∃ tag x, l.orders.get tag = some x ∧ x.order = o

/-- An access has been handed to the TMC: presented, or waiting with its requester while nothing is accepted (R56, R61). -/
def State.asked (s : State) (a : Access) : Prop := a ∈ s.tmc.presented ∨ a ∈ s.tmc.parked

/-! ### What is asked of the queue of status writes -/

/-- Every SWQ entry covers one line, and every event record that waits is a whole record (R40, R162). -/
def State.linesWhole (s : State) : Prop :=
  (∀ e ∈ s.swq.entries, e.bytes.length = 64) ∧
    ∀ u n r, .write (.eventRecord n r) ∈ s.swq.waits u → r.length = 32

/-- No RING_LOST is due: the drops that are pending have theirs, or the EVU may not create one now (R164). -/
def State.lossTold (s : State) : Prop := evuRest s = s

/-- A status write is on its way (R40 to R42): it waits in its unit, or an entry that had not been issued before the command
holds its enabled bytes. The queue's head may have been issued since. -/
def writeGiven (s t : State) (u : UnitId) (item : StatusItem) (line : Nat) (bytes : List (Option Byte)) : Prop :=
  .write item ∈ t.swq.waits u ∨
    ∃ e ∈ t.swq.entries, e.line = line ∧ (∀ (i : Nat) (v : Byte), bytes[i]? = some (some v) → e.bytes[i]? = some (some v)) ∧
      (e.issued = false ∨ (t.swq.entries.head? = some e ∧ ∀ x, s.swq.entries.head? = some x → x.issued = false))

/-! ### Requests, by Table 2.2-1 -/

/-- A WRITE enables a byte. -/
def writeEnables (len : Nat) (enables : List Bool) : Prop := ∃ k, k < 64 * len ∧ enables[k]? = some true

/-- A WRITE enables a CP-owned byte (Table 2.2-2). -/
def writeOwned (s : State) (addr len : Nat) (enables : List Bool) : Prop :=
  ∃ k, k < 64 * len ∧ enables[k]? = some true ∧ cpOwned s.armed (regionOf s (addr + 64 * (k / 64))) (k % 64) = true

/-- A line of the request lies in the live window. -/
def inLiveWindow (s : State) (addr len : Nat) : Prop := ∃ i k, i < len ∧ regionOf s (addr + 64 * i) = .live k

/-- A line of the request is a bank line of the stage window. -/
def coversBankLine (s : State) (addr len : Nat) : Prop := ∃ i k, i < len ∧ 1 ≤ k ∧ regionOf s (addr + 64 * i) = .stage k

/-- The answer that rows 1 to 6 of Table 2.2-1 give to a WRITE (R34 to R37, R5, R6). -/
def tableAnswer (s : State) (addr len : Nat) (enables : List Bool) (st : BusStatus) : Prop :=
  (retried s addr len ∧ st = .retry) ∨
  (¬retried s addr len ∧ inLiveWindow s addr len ∧ st = .denied) ∨
  (¬retried s addr len ∧ ¬inLiveWindow s addr len ∧ writeEnables len enables ∧ ¬writeOwned s addr len enables ∧ st = .denied) ∨
  (¬retried s addr len ∧ ¬inLiveWindow s addr len ∧ ¬writeEnables len enables ∧ st = .ok) ∨
  (¬retried s addr len ∧ ¬inLiveWindow s addr len ∧ writeOwned s addr len enables ∧ s.ziu.zone = .awaitAck ∧
    coversBankLine s addr len ∧ st = .retry)

/-- Row 7 of Table 2.2-1: the WRITE is carried out. -/
def tableCarries (s : State) (addr len : Nat) (enables : List Bool) : Prop :=
  ¬retried s addr len ∧ ¬inLiveWindow s addr len ∧ writeOwned s addr len enables ∧
    ¬(s.ziu.zone = .awaitAck ∧ coversBankLine s addr len)

/-- The write of a line waits behind a copy of its live line: a bank line in RESYNC or held in error, not wholly written (R9). -/
def State.mergesFirst (s : State) (l : WriteLine) : Bool :=
  match stageLine s l.addr with
  | some k => (decide (s.ziu.lineState k = .resync) || decide (s.ziu.lineState k = .errorHeld)) && !l.mask.all (·.isSome)
  | none => false

/-- The stage writes in flight that a WRITE adds (R6, R9): one for each bank line it lands on and one more for each merge copy. The
weights 1 and 2 are the model's reading (log entry 25). -/
def State.stageWritesOf (s : State) (lines : List WriteLine) : Nat := (bankLines s lines).length + (lines.filter s.mergesFirst).length

/-! ### Line operations -/

/-- The condition in which an access finds word `i` of a line, with the wrong bits that have come about since (R47; log entry 11). -/
def State.found (s : State) (line : Nat) (flips : List BitFlip) (i : Nat) : WordMark := (s.tmc.applyFlips line flips).mark line i

/-- The access finds an uncorrectable word (R49). -/
def State.foundBad (s : State) (line : Nat) (flips : List BitFlip) : Bool := (List.range 8).any (fun i => (s.found line flips i).bad)

/-- The number of words with one wrong bit that the access finds. -/
def State.foundOne (s : State) (line : Nat) (flips : List BitFlip) : Nat :=
  ((List.range 8).filter (fun i => decide (s.found line flips i = .oneWrong))).length

/-- The number of words that the access finds with one wrong bit and that stood clean before it. -/
def State.foundFresh (s : State) (line : Nat) (flips : List BitFlip) : Nat :=
  ((List.range 8).filter (fun i => decide (s.found line flips i = .oneWrong) && decide (s.tmc.mark line i = .clean))).length

/-- The line's bytes. -/
def State.lineData (s : State) (line : Nat) : List Byte := s.tmc.mem.readBytes (64 * line) 64

/-- The access stands alone before a free channel and a refresh debt below 8, and lies in table memory. -/
def State.grants (s : State) (a : Access) : Prop :=
  s.tmc.initDone = true ∧ s.tmc.power = .active ∧ s.tmc.inProgress = none ∧ s.tmc.debt < 8 ∧ s.tmc.presented = [a] ∧
    a.line < memoryLines s.tmc.density ∧ sparseWf .clean s.tmc.marks = true

/-- An error counter has counted `n` occurrences at a line (R54). -/
def counted (c d : ErrorCounter) (n line : Nat) : Prop :=
  d = if n = 0 then c else ⟨min 4294967295 (c.count + n), if c.count = 0 then 64 * line else c.first, 64 * line⟩

/-- The line is a bank line closed to write-back (R50). -/
def closedLine (s : State) (line : Nat) : Prop := ∃ b k, bankLineOf s line = some (b, k) ∧ bankClosed s b = true

/-- What a read of a line leaves (R49 to R51): memory as it was, the corrected words counted, and on a line open to write-back
corrected words fresh and uncorrectable ones poisoned, while a closed line is listed for a deferred scrub. -/
def readLeaves (s t : State) (line : Nat) (flips : List BitFlip) : Prop :=
  memoryKept s t ∧ counted s.tmc.corrected t.tmc.corrected (s.foundOne line flips) line ∧
  t.tmc.uncorrectable = s.tmc.uncorrectable ∧ t.tmc.poisonedWrite = s.tmc.poisonedWrite ∧
  (∀ l i, l ≠ line → i < 8 → t.tmc.mark l i = s.tmc.mark l i) ∧
  (s.foundOne line flips = 0 ∨ closedLine s line → ∀ i, i < 8 → t.tmc.mark line i = s.found line flips i) ∧
  (0 < s.foundOne line flips → ¬closedLine s line → ∀ i, i < 8 → t.tmc.mark line i = match s.found line flips i with
    | .oneWrong => .clean
    | .twoWrong => .poison
    | m => m) ∧
  (s.foundOne line flips = 0 ∨ ¬closedLine s line → t.tmc.deferred = s.tmc.deferred) ∧
  (∀ b k, 0 < s.foundOne line flips → bankLineOf s line = some (b, k) → bankClosed s b = true →
    t.tmc.deferred = if (b, k) ∈ s.tmc.deferred ∨ 16 ≤ s.tmc.deferred.length then s.tmc.deferred else s.tmc.deferred ++ [(b, k)])

/-- What a patrol read of a line leaves (R55): a line with an uncorrectable word is counted and not written, any other is left as a
read leaves it. -/
def patrolLeaves (s t : State) (line : Nat) (flips : List BitFlip) : Prop :=
  (s.foundBad line flips = false → readLeaves s t line flips) ∧
  (s.foundBad line flips = true → memoryKept s t ∧ counted s.tmc.corrected t.tmc.corrected (s.foundOne line flips) line ∧
    counted s.tmc.uncorrectable t.tmc.uncorrectable 1 line ∧ t.tmc.poisonedWrite = s.tmc.poisonedWrite ∧
    t.tmc.deferred = s.tmc.deferred ∧ (∀ l i, l ≠ line → i < 8 → t.tmc.mark l i = s.tmc.mark l i) ∧
    ∀ i, i < 8 → t.tmc.mark line i = s.found line flips i)

/-- What a deferred scrub of a line leaves (R49, R51, R54): a word whose wrong bit has come about since is counted and one that still
has it is not counted again; a line with an uncorrectable word is counted and not written, and any other line's words are fresh. Its
entry leaves the list at the completion. -/
def deferredLeaves (s t : State) (line : Nat) (flips : List BitFlip) : Prop :=
  memoryKept s t ∧ counted s.tmc.corrected t.tmc.corrected (s.foundFresh line flips) line ∧
  t.tmc.poisonedWrite = s.tmc.poisonedWrite ∧ t.tmc.deferred = s.tmc.deferred ∧
  (∀ l i, l ≠ line → i < 8 → t.tmc.mark l i = s.tmc.mark l i) ∧
  (s.foundBad line flips = true → counted s.tmc.uncorrectable t.tmc.uncorrectable 1 line ∧
    ∀ i, i < 8 → t.tmc.mark line i = s.found line flips i) ∧
  (s.foundBad line flips = false → t.tmc.uncorrectable = s.tmc.uncorrectable ∧ ∀ i, i < 8 → t.tmc.mark line i = .clean)

/-- The words of a line that a masked write renews only in part and that stand in a condition. -/
def keptWords (s : State) (line : Nat) (flips : List BitFlip) (bytes : List (Option Byte)) (p : WordMark → Bool) : Nat :=
  ((List.range 8).filter (fun i => !wordFull bytes i && p (s.found line flips i))).length

/-- What a masked write of a line leaves (R52, R53): the enabled bytes written and no other; a word wholly written is fresh, any
other keeps the poison code when it was uncorrectable and is fresh otherwise; its corrected words are counted, and the
write once when it met an uncorrectable word that it did not renew. -/
def writeLeaves (s t : State) (line : Nat) (flips : List BitFlip) (bytes : List (Option Byte)) : Prop :=
  (∀ x, t.tmc.mem.read x = if 64 * line ≤ x ∧ x < 64 * line + 64 then (bytes.getD (x - 64 * line) none).getD (s.tmc.mem.read x)
    else s.tmc.mem.read x) ∧
  (∀ l i, l ≠ line → i < 8 → t.tmc.mark l i = s.tmc.mark l i) ∧
  (∀ i, i < 8 → t.tmc.mark line i = if !wordFull bytes i && (s.found line flips i).bad then .poison else .clean) ∧
  counted s.tmc.corrected t.tmc.corrected (keptWords s line flips bytes (fun m => decide (m = .oneWrong))) line ∧
  counted s.tmc.poisonedWrite t.tmc.poisonedWrite (min 1 (keptWords s line flips bytes WordMark.bad)) line ∧
  t.tmc.uncorrectable = s.tmc.uncorrectable ∧ t.tmc.deferred = s.tmc.deferred

/-! ### The service order (Section 3.4) -/

/-- The access that stands at a place of the presented ones waits behind no earlier one to a line of its own (R58). -/
def State.eligibleAt (s : State) (i : Nat) (a : Access) : Prop :=
  s.tmc.presented[i]? = some a ∧ ∀ (j : Nat) x, j < i → s.tmc.presented[j]? = some x → ∀ l ∈ a.lines, l ∉ x.lines

/-- No eligible access has the property. -/
def State.noneEligible (s : State) (p : Access → Prop) : Prop := ∀ i a, s.eligibleAt i a → ¬p a

/-- The access is the oldest eligible one with the property. -/
def State.oldest (s : State) (p : Access → Prop) (a : Access) : Prop :=
  p a ∧ ∃ i, s.eligibleAt i a ∧ ∀ j x, j < i → s.eligibleAt j x → ¬p x

/-- The access is the first read presented for a blade, and it is eligible: the reads of one blade keep their order (R57). -/
def State.fetchReady (s : State) (b : Slot) (a : Access) : Prop :=
  ∃ i, s.eligibleAt i a ∧ a.slot = some b ∧ ∀ (j : Nat) x, j < i → s.tmc.presented[j]? = some x → x.slot ≠ some b

/-- The access is the fetch read of the next slot, after the one last granted, that has one (R57). -/
def State.fetchTurn (s : State) (a : Access) : Prop :=
  ∃ b, s.fetchReady b a ∧ ∀ c x, s.fetchReady c x → b - s.tmc.lastSlot - 1 ≤ c - s.tmc.lastSlot - 1

/-- The place of an access in the cyclic order SWQ, validator, resync engine (R57). -/
def InternalPlace.rank : InternalPlace → Fin 3
  | .swq => 0
  | .validator => 1
  | .resync => 2

/-- The access is a token read, which stands in the validator's place (R115). -/
def Access.forToken (a : Access) : Prop := ∃ k, a.kind = .token k

/-- The access is the oldest eligible one of the next place, after the one last served, that has one; of the validator's reads
and the token reads, those whose turn it is (R57, R115). -/
def State.internalTurn (s : State) (a : Access) : Prop :=
  ∃ p, a.kind.place = some p ∧
    (∀ q i x, s.eligibleAt i x → x.kind.place = some q →
      p.rank - s.tmc.lastInternal.rank - 1 ≤ q.rank - s.tmc.lastInternal.rank - 1) ∧
    s.oldest (fun x => x.kind.place = some p ∧ (x.forToken ↔ a.forToken)) a ∧
    ((a.forToken ↔ s.tmc.tokenNext = true) ∨ s.noneEligible (fun x => x.kind.place = some p ∧ ¬(x.forToken ↔ a.forToken)))

/-- The access is the oldest eligible deferred scrub, by its place in the list, or with none the patrol read (R51, R55). -/
def State.scrubTurn (s : State) (a : Access) : Prop :=
  (∃ (n : Nat) (e : Bank × Nat), s.tmc.deferred[n]? = some e ∧ s.oldest (fun x => x.kind.scrub = some e) a ∧
    ∀ (m : Nat) (f : Bank × Nat), m < n → s.tmc.deferred[m]? = some f → s.noneEligible (fun x => x.kind.scrub = some f)) ∨
  ((∀ e ∈ s.tmc.deferred, s.noneEligible (fun x => x.kind.scrub = some e)) ∧ s.oldest (fun x => x.kind = .patrol) a)

/-- Nothing of rows 4 to 6 of Table 3.4-2 is eligible. -/
def State.noTraffic (s : State) : Prop :=
  (∀ b a, ¬s.fetchReady b a) ∧ s.noneEligible (fun x => x.kind.isTbp = true) ∧ s.noneEligible (fun x => x.kind.isInternal = true)

/-- The access is the one of the first row of Table 3.4-2 that applies, rows 2 to 6 and 8 in their order. -/
def State.serves (s : State) (a : Access) : Prop :=
  let tbpDue := s.tmc.tbpWait = 3 ∧ ¬s.noneEligible (fun x => x.kind.isTbp = true)
  let internalDue := 6 ≤ s.tmc.internalWait ∧ ¬s.noneEligible (fun x => x.kind.isInternal = true)
  let fetches := ∃ b x, s.fetchReady b x
  s.tmc.debt < 8 ∧
  ((tbpDue ∧ s.oldest (fun x => x.kind.isTbp = true) a) ∨
   (¬tbpDue ∧ internalDue ∧ s.internalTurn a) ∨
   (¬tbpDue ∧ ¬internalDue ∧ s.fetchTurn a) ∨
   (¬tbpDue ∧ ¬internalDue ∧ ¬fetches ∧ s.oldest (fun x => x.kind.isTbp = true) a) ∨
   (¬tbpDue ∧ ¬internalDue ∧ ¬fetches ∧ s.noneEligible (fun x => x.kind.isTbp = true) ∧ s.internalTurn a) ∨
   (s.noTraffic ∧ s.tmc.debt = 0 ∧ s.scrubTurn a))

/-- What the grant of an access leaves of the waiting counts and the rotations (R57). A count is 0 when its class is granted or has
nothing presented, and otherwise rises by 1, to 3 or to 7, where its class had an eligible access presented. -/
def grantCounted (s t : State) (a : Access) : Prop :=
  let tbp (x : Access) := x.kind.isTbp = true
  let internal (x : Access) := x.kind.isInternal = true
  (tbp a → t.tmc.tbpWait = 0) ∧ (internal a → t.tmc.internalWait = 0) ∧
  ((∀ x ∈ s.tmc.presented, ¬tbp x) → t.tmc.tbpWait = 0) ∧ ((∀ x ∈ s.tmc.presented, ¬internal x) → t.tmc.internalWait = 0) ∧
  (¬tbp a → ¬s.noneEligible tbp → t.tmc.tbpWait = min 3 (s.tmc.tbpWait + 1)) ∧
  (¬internal a → ¬s.noneEligible internal → t.tmc.internalWait = min 7 (s.tmc.internalWait + 1)) ∧
  (¬tbp a → s.noneEligible tbp → (∃ x ∈ s.tmc.presented, tbp x) → t.tmc.tbpWait = s.tmc.tbpWait) ∧
  (¬internal a → s.noneEligible internal → (∃ x ∈ s.tmc.presented, internal x) → t.tmc.internalWait = s.tmc.internalWait) ∧
  t.tmc.lastSlot = a.slot.getD s.tmc.lastSlot ∧ t.tmc.lastInternal = a.kind.place.getD s.tmc.lastInternal

/-! ### The checks of a staged image (R14, R15, Table 1.4-1) -/

/-- `j` is the lowest index at which a check fails. -/
def lowest (fails : Nat → Prop) (j : Nat) : Prop := fails j ∧ ∀ i, i < j → ¬fails i

/-- Check 2: a declared entry without a zone, or a zone beyond the declared count. -/
def directoryFails (declared : Nat) (entries : List DirEntry) (j : Nat) : Prop :=
  ∃ e, entries[j]? = some e ∧ if j < declared then e.zoneId = 0 else e.zoneId ≠ 0

/-- Check 3: a declared entry with the zone of an earlier one. -/
def duplicateFails (declared : Nat) (entries : List DirEntry) (j : Nat) : Prop :=
  j < declared ∧ ∃ i a e, i < j ∧ entries[i]? = some a ∧ entries[j]? = some e ∧ a.zoneId = e.zoneId

/-- Check 4: a declared entry with fewer than 1 or more than 256 members, or a range beyond the last member entry. -/
def rangeFails (declared : Nat) (entries : List DirEntry) (j : Nat) : Prop :=
  j < declared ∧ ∃ e, entries[j]? = some e ∧ (e.count < 1 ∨ 256 < e.count ∨ 15868 < e.start + e.count)

/-- Check 5: a declared entry whose range shares a member entry with that of an earlier one. -/
def overlapFails (declared : Nat) (entries : List DirEntry) (j : Nat) : Prop :=
  j < declared ∧ ∃ i a e, i < j ∧ entries[i]? = some a ∧ entries[j]? = some e ∧
    a.start < e.start + e.count ∧ e.start < a.start + a.count

/-- The directory fails a check of Table 1.4-1, the first that it fails, with its detail. -/
def directoryJudged (declared : Nat) (entries : List DirEntry) (r : CommitResult) (d : Nat) : Prop :=
  (1024 < declared ∧ r = .count ∧ d = declared) ∨
  (declared ≤ 1024 ∧ lowest (directoryFails declared entries) d ∧ r = .directory) ∨
  (declared ≤ 1024 ∧ (∀ j, ¬directoryFails declared entries j) ∧ lowest (duplicateFails declared entries) d ∧ r = .duplicate) ∨
  (declared ≤ 1024 ∧ (∀ j, ¬directoryFails declared entries j) ∧ (∀ j, ¬duplicateFails declared entries j) ∧
    lowest (rangeFails declared entries) d ∧ r = .range) ∨
  (declared ≤ 1024 ∧ (∀ j, ¬directoryFails declared entries j) ∧ (∀ j, ¬duplicateFails declared entries j) ∧
    (∀ j, ¬rangeFails declared entries j) ∧ lowest (overlapFails declared entries) d ∧ r = .overlap)

/-- The directory passes checks 1 to 5. -/
def directoryPasses (declared : Nat) (entries : List DirEntry) : Prop :=
  declared ≤ 1024 ∧ ∀ j, ¬directoryFails declared entries j ∧ ¬duplicateFails declared entries j ∧
    ¬rangeFails declared entries j ∧ ¬overlapFails declared entries j

/-- The 16 bytes of a member entry in its line (R13). -/
def memberBytes (data : List Byte) (m : Nat) : List Byte := (data.drop (16 * (m % 4))).take 16

/-- Check 6: a member entry of a range in a line that is neither a PORT entry with slot 0 to 7, port 0 to 47 and name 0 nor a
NODE entry with a name other than 0. -/
def memberFails (e : DirEntry) (line : Nat) (data : List Byte) (m : Nat) : Prop :=
  memberLine m = line ∧ e.start ≤ m ∧ m < e.start + e.count ∧
    let b := memberBytes data m
    let kind := leNat (b.take 1)
    let name := leNat ((b.drop 8).take 8)
    ¬(kind = 1 ∧ leNat ((b.drop 1).take 1) ≤ 7 ∧ leNat ((b.drop 2).take 1) ≤ 47 ∧ name = 0) ∧ ¬(kind = 2 ∧ name ≠ 0)

/-! ### Resync (R19, R23 to R25) -/

/-- The line is in RESYNC, error-held or not (R7, R24). -/
def Ziu.inResync (z : Ziu) (k : Nat) : Prop := z.lineState k = .resync ∨ z.lineState k = .errorHeld

/-- A resync pass has ended (R25): IDLE, with the sequence of the command that started it and the number of error-held lines; the
result is ABORTED after an ABORT, and COMMITTED or COMMITTED_WITH_ERRORS after a commit. -/
def passEnded (s t : State) (aborting : Bool) : Prop :=
  let held := (t.ziu.dirty.filter (fun e => decide (e.2 = .errorHeld))).length
  t.ziu.zone = .idle ∧ t.ziu.copying = none ∧ t.ziu.accepted = s.ziu.started ∧ t.ziu.detail = held ∧
  t.ziu.result = if aborting then .aborted else if held = 0 then .committed else .committedWithErrors

/-- A resync pass has gone on from a line (R23, R25): to the copy of the lowest line in RESYNC from there on, read in the live bank
and written in the stage bank, or to its end where there is none. -/
def passGoesOn (s t : State) (l : Layout) (first : Nat) (aborting : Bool) : Prop :=
  (∀ k, lowest (fun k => first ≤ k ∧ t.ziu.inResync k) k → t.ziu.zone = .resyncing ∧ t.ziu.copying = some k ∧ t.ziu.resyncPos = k ∧
    t.asked ⟨.resync k (l.bankLine t.ziu.liveBank k / 64), l.bankLine t.ziu.stageBank k / 64⟩) ∧
  ((∀ k, first ≤ k → ¬t.ziu.inResync k) → passEnded s t aborting)

/-- AWAIT_ACK ends as soon as no blade owes an acknowledgement and no fetch is in flight against the old bank, which is the stage bank
(R19): the timer stops and the resync pass begins at line 1. Until then it goes on. -/
def awaitJudged (s t : State) : Prop :=
  (∀ l, s.ziu.zone = .awaitAck → t.ziu.ackSet = [] → t.ziu.inFlight.get s.ziu.stageBank = 0 → s.plu.layout = some l →
    sparseWf .clean s.ziu.dirty = true → t.ziu.dirty = s.ziu.dirty ∧ t.ziu.ackAt = none ∧ passGoesOn s t l 1 s.ziu.aborting) ∧
  (s.ziu.zone ≠ .awaitAck ∨ t.ziu.ackSet ≠ [] ∨ t.ziu.inFlight.get s.ziu.stageBank ≠ 0 → t.ziu.zone = s.ziu.zone)

/-! ### Tokens (Table 6.6-1) -/

/-- The little-endian field of a token in its line (Table 11.4-1). -/
def tokenField (data : List Byte) (offset n : Nat) : Nat := leNat ((data.drop offset).take n)

/-- The token digest of the fields (R116). -/
def digestOf (feature units sequence : Nat) : BitVec 64 :=
  let mix (running word : BitVec 64) : BitVec 64 :=
    let x := (running ^^^ word) * 6364136223846793005#64
    (x <<< 23) ||| (x >>> 41)
  mix (mix Config.deviceKey0 (BitVec.ofNat 64 (2 ^ 48 * feature + 2 ^ 16 * units))) (BitVec.ofNat 64 sequence) ^^^
    Config.deviceKey1 ^^^ Config.deviceSerial

/-- The shortfall of a feature's units by R118, with the effective reserves by R106. -/
def State.shortBy (s : State) (f : Feature) (units d : Nat) : Prop :=
  ∃ eff : Slot → Nat,
    (∀ b, eff b = min (s.lu.reserves.get b) (units - (((indices 8).filter (fun c => decide (c < b))).map eff).sum)) ∧
    d = max (s.holdings f - units) (match f with
      | .xdPorts => 0
      | .portUnits => ((indices 8).map (fun b => s.slotUnits b - eff b)).sum - (units - ((indices 8).map eff).sum))

/-- The feature that a token names (R105). -/
def tokenNames (data : List Byte) (f : Feature) : Prop :=
  tokenField data 0 2 = match f with
    | .portUnits => 1
    | .xdPorts => 2

/-- Checks 1 to 3 of Table 6.6-1 are passed: the feature, the serial and the check value. -/
def tokenGenuine (data : List Byte) (f : Feature) : Prop :=
  tokenNames data f ∧ tokenField data 8 8 = Config.deviceSerial.toNat ∧
    tokenField data 16 8 = (digestOf (tokenField data 0 2) (tokenField data 2 2) (tokenField data 4 4)).toNat

/-- The token fails a check of Table 6.6-1, the first that it fails, with the result and the detail. -/
def tokenFails (s : State) (data : List Byte) (r : TokenResult) (d : Nat) : Prop :=
  let seq := tokenField data 4 4
  ((∀ f, ¬tokenNames data f) ∧ r = .badFeature ∧ d = tokenField data 0 2) ∨
  ∃ f, tokenNames data f ∧
    ((tokenField data 8 8 ≠ Config.deviceSerial.toNat ∧ r = .badSerial ∧ d = 0) ∨
     (tokenField data 8 8 = Config.deviceSerial.toNat ∧ ¬tokenGenuine data f ∧ r = .badCheck ∧ d = 0) ∨
     (tokenGenuine data f ∧ seq < (s.lu.feature f).floor ∧ r = .stale ∧ d = (s.lu.feature f).floor) ∨
     (tokenGenuine data f ∧ seq = (s.lu.feature f).floor ∧ (s.lu.feature f).reinstated = true ∧ r = .alreadyApplied ∧
       d = (s.lu.feature f).floor) ∨
     (tokenGenuine data f ∧ (s.lu.feature f).floor ≤ seq ∧ (seq = (s.lu.feature f).floor → (s.lu.feature f).reinstated = false) ∧
       0 < d ∧ s.shortBy f (tokenField data 2 2) d ∧ r = .inUse))

/-- The token passes every check of Table 6.6-1. -/
def tokenPasses (s : State) (data : List Byte) (f : Feature) : Prop :=
  tokenGenuine data f ∧ (s.lu.feature f).floor ≤ tokenField data 4 4 ∧
    (tokenField data 4 4 = (s.lu.feature f).floor → (s.lu.feature f).reinstated = false) ∧ s.shortBy f (tokenField data 2 2) 0

/-! ### Layouts (Table 10.2-1) -/

/-- The layout that a freeze takes from the PLU's copy of policy lines 0 and 1 (R168, Table 11.2-1). -/
def layoutFrozen (m : Memory) (l : Layout) : Prop :=
  l.stage = leNat (m.readBytes 8 4) ∧ l.live = leNat (m.readBytes 12 4) ∧ l.ports = leNat (m.readBytes 16 4) ∧
  l.licence = leNat (m.readBytes 20 4) ∧ l.ring = leNat (m.readBytes 24 4) ∧ l.capCode = leNat (m.readBytes 28 1) ∧
  ∀ b, l.reserves.get b = min 384 (leNat (m.readBytes (64 + 2 * b.1) 2))

/-- The base of a region by its number (R169). -/
def Layout.baseOf (l : Layout) : Nat → Nat
  | 0 => 0
  | 1 => l.stage
  | 2 => l.live
  | 3 => l.ports
  | 4 => l.licence
  | _ => l.ring

/-- The size of a region by its number (R169, R161). -/
def Layout.sizeOf (l : Layout) : Nat → Nat
  | 0 => 4096
  | 1 => 262144
  | 2 => 262144
  | 3 => 12288
  | 4 => 4096
  | _ => 64 + 32 * (256 * 2 ^ l.capCode)

/-- Check 2: a region off its alignment. -/
def misplaced (l : Layout) (k : Nat) : Prop := 1 ≤ k ∧ k ≤ 5 ∧ ¬(if k ≤ 2 then 262144 else 4096) ∣ l.baseOf k

/-- Check 3: the region's last byte does not lie below the size of table memory. -/
def tooHigh (l : Layout) (size k : Nat) : Prop := 1 ≤ k ∧ k ≤ 5 ∧ size ≤ l.baseOf k + l.sizeOf k - 1

/-- Check 4: two regions share a byte. -/
def shareByte (l : Layout) (i j : Nat) : Prop :=
  i < j ∧ j ≤ 5 ∧ ∃ x, l.baseOf i ≤ x ∧ x < l.baseOf i + l.sizeOf i ∧ l.baseOf j ≤ x ∧ x < l.baseOf j + l.sizeOf j

/-- The layout fails a check of Table 10.2-1, the first that it fails, with its detail. -/
def layoutFails (l : Layout) (size : Nat) (r : ArmResult) (d : Nat) : Prop :=
  (4 < l.capCode ∧ r = .badCapacity ∧ d = l.capCode) ∨
  (l.capCode ≤ 4 ∧ lowest (misplaced l) d ∧ r = .misaligned) ∨
  (l.capCode ≤ 4 ∧ (∀ k, ¬misplaced l k) ∧ lowest (tooHigh l size) d ∧ r = .outsideMemory) ∨
  (l.capCode ≤ 4 ∧ (∀ k, ¬misplaced l k) ∧ (∀ k, ¬tooHigh l size k) ∧ r = .overlap ∧
    ∃ i j, shareByte l i j ∧ (∀ m n, shareByte l m n → i < m ∨ (i = m ∧ j ≤ n)) ∧ d = i + 256 * j)

/-- The layout passes every check of Table 10.2-1. -/
def layoutPasses (l : Layout) (size : Nat) : Prop :=
  l.capCode ≤ 4 ∧ (∀ k, ¬misplaced l k) ∧ (∀ k, ¬tooHigh l size k) ∧ ∀ i j, ¬shareByte l i j

/-! ### Waiting ports -/

/-- Each entry of a slot's licence queue is a port of it in WAIT_LICENSE and each entry of the power wait list a port in
WAIT_POWER, and none stands in its list twice (R108, R137). -/
def State.waitsMatch (s : State) : Prop :=
  (∀ b, (∀ e ∈ s.queue b, (s.port ⟨b, e.port⟩).state = .waitLicense) ∧ ((s.queue b).map (·.port)).Nodup) ∧
    (∀ e ∈ s.pbu.waitList, (s.port e.port).state = .waitPower) ∧ (s.pbu.waitList.map (·.port)).Nodup

/-! ### Requests for ports (R93 to R97) -/

/-- A request word is stored (R93): the port's desired state, request, priority and sequence, those of no other port, and the frame. -/
def requestStored (s t : State) (h : Handed) (p : PortRef) (desired : Bool) (request : Option PortConfig) (priority : Fin 8) : Prop :=
  (t.port p).asks = (desired, request, priority, (RequestWord.ofBits h.value).sequence, (s.port p).optic) ∧
  (∀ r, r ≠ p → (t.port r).asks = (s.port r).asks) ∧ admissionFrame { s with tbp := { s.tbp with handed := s.tbp.handed.erase h } } t

/-- The outcomes of an admission (R95): the XD check, then the licence check, then the power check, and a charge. -/
def admissionDecides (s t : State) (p : PortRef) (c : PortConfig) (priority : Fin 8) : Prop :=
  let licence := s.queue p.slot = [] ∧ s.licenceFits p.slot c.units = true
  let power := s.powerFits (portDraw s.plu.inUse c (s.port p).optic) = true
  (c.xd = true → s.xdFree = false → (t.port p).state = .offline ∧ (t.port p).cause = .noXdLicense) ∧
  ((c.xd = true → s.xdFree = true) →
    (¬licence → (t.port p).state = .waitLicense ∧ t.queue p.slot = s.queue p.slot ++ [⟨p.port, c.units⟩]) ∧
    (licence → ¬power → (t.port p).state = .waitPower ∧ ∃ e ∈ t.pbu.waitList, e.port = p ∧ e.priority = priority) ∧
    (licence → power → s.hot p.slot = false → (t.port p).state = .goingUp ∧ (t.port p).cause = .none ∧ (t.port p).granted = some c ∧
      ((s.link p.slot).state = .up → (t.link p.slot).holdsOrder ⟨p.port, .enable, c⟩)) ∧
    (licence → power → s.hot p.slot = true → (t.port p).state = .shed ∧ (t.port p).cause = .thermal ∧ (t.port p).granted = some c))

/-- What a request with a configuration does to an ONLINE port (R97): nothing where it is the one granted, a RECONFIG where neither
units nor draw increase or what increases fits, and a refusal with SPEED_HELD otherwise. A shed selection that an arbitrary state
makes due at once is ruled out where the port is to stay ONLINE. -/
def reconfigurationDecides (s t : State) (p : PortRef) (g c : PortConfig) : Prop :=
  let before := portDraw s.plu.inUse g (s.port p).optic
  let after := portDraw s.plu.inUse c (s.port p).optic
  let neither := c.units ≤ g.units ∧ c.xdUnits ≤ g.xdUnits ∧ after ≤ before
  let fits := s.queue p.slot = [] ∧ (c.units ≤ g.units ∨ s.licenceFits p.slot (c.units - g.units) = true) ∧
    (c.xdUnits ≤ g.xdUnits ∨ s.xdFree = true) ∧ s.powerFits ((after : Int) - (before : Int)) = true
  let settled := s.pbu.hold = true ∨ s.projected ≤ (computeFigures s).available
  (c = g → settled → (t.port p).state = .online ∧ (t.port p).granted = some g ∧ (t.port p).cause = (s.port p).cause) ∧
  (c ≠ g → neither ∨ fits → (t.port p).state = .goingUp ∧ (t.port p).cause = .none ∧ (t.port p).granted = some c ∧
    ((s.link p.slot).state = .up → (t.link p.slot).holdsOrder ⟨p.port, .reconfig, c⟩)) ∧
  (c ≠ g → ¬neither → ¬fits → settled → (t.port p).state = .online ∧ (t.port p).granted = some g ∧ (t.port p).cause = .speedHeld)

/-! ### The budget, HOLD and the shed selection -/

/-- The supply P and the alarm REDUNDANCY_LOST by redundancy mode (R132, Table 7.3-1); a supply that is not counted is usable
for 0 (R131). -/
def supplyLaw (t : State) : Prop :=
  let u (i : Bay) := t.usableOf i
  let c (i : Bay) := (t.pbu.psus.get i).counted = true
  ((∀ i, ¬c i) → t.pbu.supply = 0 ∧ t.pbu.redundancyLost = false) ∧
  ((∃ i, c i) →
    (t.plu.inUse.redundancy = .none → t.pbu.supply = u 0 + u 1 + u 2 + u 3 ∧ t.pbu.redundancyLost = false) ∧
    (t.plu.inUse.redundancy = .nPlus1 →
      (∀ i, c i → (∀ j, c j → j = i) → t.pbu.supply = u i ∧ t.pbu.redundancyLost = true) ∧
      (∀ i j, i ≠ j → c i → c j → t.pbu.redundancyLost = false ∧
        t.pbu.supply = u 0 + u 1 + u 2 + u 3 - max (max (u 0) (u 1)) (max (u 2) (u 3)))) ∧
    (t.plu.inUse.redundancy = .grid →
      (¬c 0 ∧ ¬c 1 → t.pbu.supply = u 2 + u 3 ∧ t.pbu.redundancyLost = true) ∧
      (¬c 2 ∧ ¬c 3 → t.pbu.supply = u 0 + u 1 ∧ t.pbu.redundancyLost = true) ∧
      ((c 0 ∨ c 1) ∧ (c 2 ∨ c 3) → t.pbu.supply = min (u 0 + u 1) (u 2 + u 3) ∧ t.pbu.redundancyLost = false)))

/-- The figures of a budget computation (R131 to R133) and POWER_CRITICAL (R140). -/
def budgetLaw (t : State) : Prop :=
  supplyLaw t ∧ t.pbu.reserved = t.pbu.supply * (100 - t.plu.inUse.reserve) / 100 ∧
    t.pbu.ceiling = t.plu.inUse.thermalBase * t.pbu.derate / 100 ∧ t.pbu.available = min t.pbu.reserved t.pbu.ceiling

/-- What follows a change of a supply (R129 to R131, R36, R61, R62). HOLD stands exactly while no supply is ONLINE and one is
INPUT_LOST. As it is declared, the TBP answers RETRY to what it holds, the TMC is told and the rest of the budget is frozen; within
HOLD nothing else moves; outside HOLD, and as it ends, the budget is computed. -/
def holdFollows (s t : State) : Prop :=
  (t.pbu.hold = true ↔ (∀ i, (t.pbu.psus.get i).state ≠ .online) ∧ ∃ i, (t.pbu.psus.get i).state = .inputLost) ∧
  (t.pbu.hold = true → t.pbu = { s.pbu with psus := t.pbu.psus, hold := true } ∧ t.pau = s.pau ∧ t.blc = s.blc ∧ t.lu = s.lu) ∧
  (t.pbu.hold = false → budgetLaw t) ∧
  (s.pbu.hold = false → t.pbu.hold = true → (s.tmc.initDone = true → t.tmc.holdTold = true) ∧
    (∀ tag, t.tagSlot tag = if tag ∈ s.tbp.heldReads.map (·.tag) ∨ tag ∈ s.tbp.heldWrites.map (·.tag) then ⟨none, some ⟨.retry, []⟩⟩
      else s.tagSlot tag) ∧
    t.tbp = { s.tbp with slots := t.tbp.slots, heldReads := [], heldWrites := [] }) ∧
  (s.pbu.hold = true ∨ t.pbu.hold = false → t.tbp = s.tbp) ∧
  (s.pbu.hold = true → t.pbu.hold = false → t.tmc.holdTold = false)

/-- What an edge of a bay's lines leaves besides the bay's state: nothing of the power supplies, of HOLD or of the table bus where the
state stays, and HOLD and the budget as they follow where it has moved (R126, R129 to R131). -/
def supplyMoved (s t : State) (i : Bay) : Prop :=
  ((t.pbu.psus.get i).state = (s.pbu.psus.get i).state → t.pbu = s.pbu ∧ t.tbp = s.tbp) ∧
  ((t.pbu.psus.get i).state ≠ (s.pbu.psus.get i).state → holdFollows s t) ∧
  (∀ j, j ≠ i → t.pbu.psus.get j = s.pbu.psus.get j) ∧ (∀ q, (t.port q).asks = (s.port q).asks) ∧
  admissionFrame { s with pins := t.pins, tbp := t.tbp, pbu := t.pbu } t

/-- A candidate of the shed selection: on an UP blade, ONLINE or GOING_UP without the leaving flag (R139). -/
def State.shedCandidate (s : State) (p : PortRef) : Prop :=
  (s.blade p.slot).state = .up ∧ ((s.port p).state = .online ∨ (s.port p).state = .goingUp) ∧ (s.port p).leaving = .clear

/-- A candidate stands before another in the shed order: lower priority first, then higher slot, then higher port (R139). -/
def State.shedsBefore (s : State) (p q : PortRef) : Prop :=
  (s.port p).priority < (s.port q).priority ∨ ((s.port p).priority = (s.port q).priority ∧
    (q.slot < p.slot ∨ (p.slot = q.slot ∧ q.port < p.port)))

/-- The shed selection of a budget computation (R139, R140): candidates are sent off in the shed order, no more than bring
projected draw down to A; POWER_CRITICAL stands while it is above A. -/
def shedLaw (s t : State) : Prop :=
  (t.pbu.powerCritical = true ↔ t.pbu.available < t.projected) ∧
  (s.projected ≤ t.pbu.available → t.pau = s.pau) ∧
  (∀ q, ¬s.shedCandidate q → t.port q = s.port q) ∧
  (∀ q, s.shedCandidate q → t.port q = s.port q ∨
    ((s.port q).state = .online ∧ (t.port q).state = .goingDown ∧ (t.port q).cause = .power ∧ (t.port q).leaving = .clear) ∨
    ((s.port q).state = .goingUp ∧ t.port q = { s.port q with leaving := .power })) ∧
  (∀ p q, s.shedCandidate p → s.shedCandidate q → s.shedsBefore p q → (t.port q).departing = true → (t.port p).departing = true) ∧
  (t.projected ≤ t.pbu.available ∨ ∀ q, s.shedCandidate q → (t.port q).departing = true) ∧
  (∀ q, s.shedCandidate q → (t.port q).departing = true →
    (∀ r, s.shedCandidate r → s.shedsBefore q r → (t.port r).departing = false) →
    t.pbu.available < t.projected + (s.port q).draw s.plu.inUse)

/-- A port that the restore process may take out of SHED: on an UP blade that is not HOT (R143). -/
def State.restorable (s : State) (p : PortRef) : Prop :=
  (s.blade p.slot).state = .up ∧ s.hot p.slot = false ∧ (s.port p).state = .shed

/-- The first candidate of the restore process decides, and where it does not fit nothing is restored (R143): the lowest blade of
the blade power wait, else the first port of the restore order, else the first port of the power wait list on a blade that is not
HOT. `s` is the state as the process begins. -/
def restoreFollows (s t : State) : Prop :=
  (∀ b rest, s.bladeWait = b :: rest →
    (((s.plu.inUse.defaultBase + s.plu.inUse.margin : Nat) : Int) ≤ s.headroom → (t.blade b).state = .powering ∧
      (t.blade b).base = s.plu.inUse.defaultBase ∧ (t.blade b).powerEn = true) ∧
    (s.headroom < ((s.plu.inUse.defaultBase + s.plu.inUse.margin : Nat) : Int) → t.pau = s.pau ∧ t.blc = s.blc ∧ t.lu = s.lu)) ∧
  (∀ p c, s.waitsMatch → s.bladeWait = [] → s.restorable p → (s.port p).granted = some c →
    (∀ q, s.restorable q → q ≠ p → (s.port q).priority < (s.port p).priority ∨ ((s.port q).priority = (s.port p).priority ∧
      (p.slot < q.slot ∨ (p.slot = q.slot ∧ p.port < q.port)))) →
    (((portDraw s.plu.inUse c (s.port p).optic + s.plu.inUse.margin : Nat) : Int) ≤ s.headroom →
      (t.port p).state = .goingUp ∧ (t.port p).cause = .none ∧ (t.port p).granted = some c) ∧
    (s.headroom < ((portDraw s.plu.inUse c (s.port p).optic + s.plu.inUse.margin : Nat) : Int) →
      t.pau = s.pau ∧ t.blc = s.blc ∧ t.lu = s.lu)) ∧
  (∀ e c, s.waitsMatch → s.bladeWait = [] → (∀ q, ¬s.restorable q) → s.pbu.waitList.find? (fun x => !s.hot x.port.slot) = some e →
    (s.port e.port).request = some c → c.xd = false →
    (((portDraw s.plu.inUse c (s.port e.port).optic + s.plu.inUse.margin : Nat) : Int) ≤ s.headroom →
      (s.queue e.port.slot = [] → s.licenceFits e.port.slot c.units = true →
        (t.port e.port).state = .goingUp ∧ (t.port e.port).granted = some c) ∧
      (s.queue e.port.slot ≠ [] ∨ s.licenceFits e.port.slot c.units = false → (t.port e.port).state = .waitLicense)) ∧
    (s.headroom < ((portDraw s.plu.inUse c (s.port e.port).optic + s.plu.inUse.margin : Nat) : Int) →
      t.pau = s.pau ∧ t.blc = s.blc ∧ t.lu = s.lu ∧ t.pbu.waitList = s.pbu.waitList))

/-! ### Licences -/

/-- A grant round has left no head that either pass could grant (R109 to R111). -/
def roundEnded (t : State) : Prop :=
  ∀ b e, (t.queue b).head? = some e → t.unusedReserve (t.lu.entitlementInUse .portUnits) b < e.units ∧
    (t.weight b = 0 ∨ t.licenceFits b e.units = false)

/-! ### Fans -/

/-- Trays, the lost-rotor count and the derate factor are those that the rotors and the derate table give (R150, R151). -/
def State.fansFollow (s : State) : Prop :=
  (∀ k, s.ftu.trays.get k = s.ftu.trayNow k) ∧ s.ftu.lost = s.ftu.lostNow ∧ s.ftu.derate = derateFor s.plu.inUse s.ftu.lost ∧
    s.pbu.derate = s.ftu.derate

/-- The thermal state that Table 8.4-1 gives for a curve input. -/
def thermalLaw (old : ThermalState) (input warn crit : Int) (new : ThermalState) : Prop :=
  (old ≠ .hot ∧ crit ≤ input ∧ new = .hot) ∨
  (old = .normal ∧ input < crit ∧ warn ≤ input ∧ new = .warm) ∨
  (old = .normal ∧ input < crit ∧ input < warn ∧ new = .normal) ∨
  (old = .warm ∧ input < crit ∧ warn - 3 < input ∧ new = .warm) ∨
  (old = .warm ∧ input < crit ∧ input ≤ warn - 3 ∧ new = .normal) ∨
  (old = .hot ∧ crit - 3 < input ∧ new = .hot) ∨
  (old = .hot ∧ input ≤ crit - 3 ∧ warn - 3 < input ∧ new = .warm) ∨
  (old = .hot ∧ input ≤ crit - 3 ∧ input ≤ warn - 3 ∧ new = .normal)

/-- What computing a fresh temperature from two readings leaves, with `u` in use (R153, R154, R156): the curve input, the thermal
state, the latches and the demand. A latch keeps its value below its breakpoint only where that is not a changed one. -/
def temperatureFollows (s t : State) (b : Slot) (inlet hotspot : Int) (u : Tunables) : Prop :=
  let x := s.ftu.temps.get b
  let y := t.ftu.temps.get b
  y.fresh = true ∧ y.input = max hotspot (inlet + (u.inletOffset : Int)) ∧ thermalLaw x.thermal y.input u.warn u.crit y.thermal ∧
  (∀ i, y.latches.get i = true ↔ (u.curve.get i).temp ≤ y.input ∨ (x.latches.get i = true ∧ x.stale.get i = false ∧
    u.curve.get i = s.plu.inUse.curve.get i ∧ (u.curve.get i).temp - 2 ≤ y.input)) ∧
  (∀ i, y.latches.get i = true → (u.curve.get i).duty ≤ y.demand) ∧
  (((∀ i, y.latches.get i = false) ∧ y.demand = 0) ∨ ∃ i, y.latches.get i = true ∧ y.demand = (u.curve.get i).duty)

/-- Entry of a blade to HOT: its ports leave with cause THERMAL, and its POWER causes become THERMAL (R98, R155). -/
def heatFollows (s t : State) (b : Slot) : Prop :=
  (s.ftu.temps.get b).thermal ≠ .hot → (t.ftu.temps.get b).thermal = .hot → ∀ i,
    ((s.port ⟨b, i⟩).state = .online → (t.port ⟨b, i⟩).state = .goingDown ∧ (t.port ⟨b, i⟩).cause = .thermal) ∧
    ((s.port ⟨b, i⟩).state = .goingUp → (t.port ⟨b, i⟩).state = .goingUp ∧ (t.port ⟨b, i⟩).leaving = .thermal) ∧
    ((s.port ⟨b, i⟩).state = .goingDown ∨ (s.port ⟨b, i⟩).state = .shed → (s.port ⟨b, i⟩).cause = .power →
      (t.port ⟨b, i⟩).state = (s.port ⟨b, i⟩).state ∧ (t.port ⟨b, i⟩).cause = .thermal)

/-- What a change of the tunables in use to `u` sets off (R171), outside HOLD, in which no WRITE is carried out (R36). In the PBU
(R136) the budget is computed and a rise of A starts the holdoff in use; blades in POWERING take the default base draw; a change of
the redundancy mode, r and the thermal base alone sheds by the shed order; a fall of D by the e table and x alone, with no holdoff and
A as it was, runs the restore process, also where projected draw rises in the same change: R136 says so of every lower D, R142 of a fall
without a rise of projected draw, and the model follows R136 (its reading, log entry 62). In the FTU (R151, R154, R156, R157) a fresh temperature is computed afresh where the curve, warn,
crit or the inlet offset changes, one that is not fresh keeps its readings, latches and thermal state, and trays, f and the targets
follow. In the EVU (R166) a changed coalesce count at or below the unconsumed count asserts attention. In the LU (R109) changed weights
start a grant round, and where no release of draw makes the restore process run behind it (the default base draw and the thermal
tunables stay, and D does not fall) it has left no head that it could grant. -/
def tunablesFollow (s t : State) (u : Tunables) : Prop :=
  let o := s.plu.inUse
  let r := { s with plu := { s.plu with inUse := u } }
  let unconsumed := (s.evu.producer + s.capacity - s.evu.consumer) % s.capacity
  (s.pbu.hold = false → budgetLaw t ∧
    t.pbu.holdoffAt = if s.pbu.available < t.pbu.available then some (s.now + sec u.holdoff) else s.pbu.holdoffAt) ∧
  (s.pbu.hold = false → u = { o with redundancy := u.redundancy, reserve := u.reserve, thermalBase := u.thermalBase } → shedLaw s t) ∧
  (s.pbu.hold = false → s.pbu.holdoffAt = none → u = { o with speedDraw := u.speedDraw, xdDraw := u.xdDraw } → budgetLaw s →
    r.committed < s.committed → r.projected ≤ s.pbu.available → restoreFollows r t) ∧
  (∀ b, (s.blade b).state = .powering → t.blade b =
    { s.blade b with base := if u.defaultBase = o.defaultBase then (s.blade b).base else u.defaultBase }) ∧
  (∀ b, (s.blade b).state ≠ .powering → (s.blade b).state ≠ .waitPower → t.blade b = s.blade b) ∧
  t.pbu.psus = s.pbu.psus ∧ t.pbu.hold = s.pbu.hold ∧
  (∀ b, (s.ftu.temps.get b).fresh = true →
    (u.curve ≠ o.curve ∨ u.warn ≠ o.warn ∨ u.crit ≠ o.crit ∨ u.inletOffset ≠ o.inletOffset →
      temperatureFollows s t b ((s.ftu.temps.get b).inlet.getD 0) ((s.ftu.temps.get b).hotspot.getD 0) u ∧
        (s.waitsMatch → heatFollows s t b)) ∧
    (u.curve = o.curve → u.warn = o.warn → u.crit = o.crit → u.inletOffset = o.inletOffset → t.ftu.temps.get b = s.ftu.temps.get b)) ∧
  (∀ b, (s.ftu.temps.get b).fresh = false →
    t.ftu.temps.get b = { s.ftu.temps.get b with stale := (t.ftu.temps.get b).stale }) ∧
  (u.derate ≠ o.derate → t.fansFollow) ∧ (∀ z, (t.ftu.zones.get z).target = t.targetDuty z) ∧
  (s.plu.part = .armed → s.evu.asserted = false → u.coCount ≠ o.coCount → u.coCount ≤ unconsumed →
    t.evu.asserted = true ∧ t.evu.coalesceAt = none) ∧
  (¬(s.plu.part = .armed ∧ s.evu.asserted = false ∧ u.coCount ≠ o.coCount ∧ u.coCount ≤ unconsumed) →
    t.evu.asserted = s.evu.asserted ∧ t.evu.coalesceAt = s.evu.coalesceAt) ∧
  (u.weights ≠ o.weights → s.waitsMatch → s.committed ≤ r.committed → u.defaultBase = o.defaultBase → u.curve = o.curve →
    u.warn = o.warn → u.crit = o.crit → u.inletOffset = o.inletOffset → roundEnded t) ∧ (∀ q, (t.port q).asks = (s.port q).asks)

/-! ### Attention -/

/-- What a record of a severity, just written, does to the attention state and the coalescing timer (R166), by the unconsumed count
with the record: nothing in ASSERTED; in DEASSERTED it asserts by count, by severity or with a coalesce time of 0, leaves a running
timer as it is, and starts an idle one. That a running timer is left also with a coalesce time of 0 is the model's choice (log entry
105). -/
def attentionFollows (s t : State) (sev : Severity) : Prop :=
  let unconsumed := (t.evu.producer + s.capacity - s.evu.consumer) % s.capacity
  let due := s.plu.inUse.coCount ≤ unconsumed ∨ sev = .critical ∨ (s.evu.coalesceAt = none ∧ s.plu.inUse.coTime = 0)
  (s.evu.asserted = true → t.evu.asserted = true ∧ t.evu.coalesceAt = s.evu.coalesceAt) ∧
  (s.evu.asserted = false → due → t.evu.asserted = true ∧ t.evu.coalesceAt = none) ∧
  (s.evu.asserted = false → ¬due → t.evu.asserted = false ∧
    t.evu.coalesceAt = if s.evu.coalesceAt = none then some (s.now + usec s.plu.inUse.coTime) else s.evu.coalesceAt)

/-! ### Entry to ARMED (R170) -/

/-- The blade has passed its debounce time and is held in SETTLING until the part is ARMED (R85). -/
def State.settledBlade (s : State) (b : Slot) : Prop := (s.blade b).state = .settling ∧ (s.blade b).debounced = true

/-- What entry to ARMED makes of the settled blades (R85 to R87, R138): each passes to the blade power check, in slot order. It enters
POWERING with the default base draw or WAIT_POWER; the blades that wait are the last of them, all of them in HOLD, and the base draws
charged fit A, to which the next one would not have been added. Every other blade stays. -/
def settledBladesFollow (s t : State) : Prop :=
  (∀ b, s.settledBlade b →
    ((t.blade b).state = .powering ∧ (t.blade b).base = s.plu.inUse.defaultBase ∧ (t.blade b).powerEn = true) ∨
    ((t.blade b).state = .waitPower ∧ (t.blade b).powerEn = false)) ∧
  (∀ b c, s.settledBlade b → s.settledBlade c → b < c → (t.blade b).state = .waitPower → (t.blade c).state = .waitPower) ∧
  (∀ b, s.settledBlade b → s.pbu.hold = true → (t.blade b).state = .waitPower) ∧
  (∀ b, s.settledBlade b → (t.blade b).state = .powering → t.baseDraw ≤ t.pbu.available) ∧
  (∀ b, s.settledBlade b → s.pbu.hold = false → s.bladeWait = [] → (t.blade b).state = .waitPower →
    t.pbu.available < t.baseDraw + s.plu.inUse.defaultBase) ∧
  (∀ b, ¬s.settledBlade b → t.blade b = s.blade b) ∧
  (∀ b, (t.blade b).state ≠ .powering ∨ ¬s.settledBlade b → t.link b = s.link b)

/-- The PBU at entry to ARMED (R137, R138, R140, Table 7.7-2): both collections' starting points, and outside HOLD the figures and the
alarms computed afresh, with no port left to shed. -/
def budgetStarts (s t : State) : Prop :=
  t.pbu.waitList = [] ∧ t.pbu.nextEntry = 0 ∧ t.pbu.restorePending = s.pbu.restorePending ∧ t.pbu.psus = s.pbu.psus ∧
  t.pbu.hold = s.pbu.hold ∧
  (s.pbu.hold = true → t.pbu = { s.pbu with waitList := [], nextEntry := 0 }) ∧
  (s.pbu.hold = false → budgetLaw t ∧ (t.pbu.powerCritical = true ↔ t.pbu.available < t.baseDraw) ∧
    t.pbu.holdoffAt = if s.pbu.available < t.pbu.available then some (s.now + sec s.plu.inUse.holdoff) else s.pbu.holdoffAt)

/-- The EVU at entry to ARMED (R161, R164): indices 0 and the event sequence from 0; a RING_LOST with code BEFORE_ARM takes sequence 1
when drops are pending, and the events of the entry take the next ones. With the intake empty, as R160 leaves it before the part is
ARMED, none of them is dropped. -/
def eventsStart (s t : State) : Prop :=
  let first := if 0 < s.evu.pending then 1 else 0
  t.evu.producer = 0 ∧ t.evu.consumer = 0 ∧ t.evu.phase = s.evu.phase ∧ t.evu.asserted = s.evu.asserted ∧
  t.evu.coalesceAt = s.evu.coalesceAt ∧
  (0 < s.evu.pending → t.evu.ringLost = some ⟨1, s.timestamp, true⟩) ∧
  (s.evu.pending = 0 → ∀ r, t.evu.ringLost = some r → r.beforeArm = false) ∧
  (∃ l, t.evu.intake = s.evu.intake ++ l ∧ ∀ i x, l[i]? = some x → x.seq = first + i + 1 ∧ x.time = s.timestamp) ∧
  (s.evu.intake = [] → t.evu.sequence = first + t.evu.intake.length ∧ t.evu.pending = s.evu.pending ∧
    t.evu.lostTotal = s.evu.lostTotal ∧ (s.evu.pending = 0 → t.evu.ringLost = none))

/-- The FTU at entry to ARMED (R157, R158, Table 8.6-1): the targets are computed, a driven duty rises to its target at once, and only
a step of 20 points or more touches a rotor. -/
def targetsStart (s t : State) : Prop :=
  (∀ z, (t.ftu.zones.get z).target = t.targetDuty z ∧
    (t.ftu.zones.get z).driven = max (s.ftu.zones.get z).driven (t.targetDuty z) ∧
    (t.ftu.zones.get z).lowest = (s.ftu.zones.get z).lowest) ∧
  (∀ r, t.targetDuty (zoneOfRotor r) < (s.ftu.zones.get (zoneOfRotor r)).driven + 20 → t.ftu.rotors.get r = s.ftu.rotors.get r) ∧
  t.ftu = { s.ftu with zones := t.ftu.zones, rotors := t.ftu.rotors }

/-! ### Rotors -/

/-- The state to which a rotor moves at a window end, from its streaks, its count and the expected minimum (R149, Table
8.2-1). A window is low when its count is 0 or its speed below the expected minimum. -/
def judgement (x : RotorRec) (expected : Nat) : RotorState :=
  let isLow := x.count = 0 ∨ 30 * x.count < expected
  let zeros := if x.count = 0 then x.zero + 1 else 0
  let lows := if isLow then x.low + 1 else 0
  let goods := if isLow then 0 else x.good + 1
  let runs := if x.count = 0 then 0 else x.running + 1
  match x.state with
  | .ok => if 2 ≤ zeros then .stalled else if 3 ≤ lows then .slow else .ok
  | .slow => if 2 ≤ zeros then .stalled else if 3 ≤ goods then .ok else .slow
  | .stalled => if 3 ≤ goods then .ok else if 3 ≤ runs then .slow else .stalled
  | st => st

end Sys2Proof.Machine
end

