-- ==== Sys2Proof/Certificates/Slice0/Obligations.lean ====
section
/-! DEFINITION. The statements about the part, each a proposition for the provers. -/

set_option Elab.async false

open Sys2Proof Sys2Proof.Machine

/-! ### The part as a whole -/

/-- Every command that a step takes is the one at the front of the queue, carried out on the state with the queue's
rest; with no command waiting one clock period passes (the model's choice, log entry 1). -/
def Obligations.StepCarriesOutTheQueueHead : Prop :=
  (∀ (c : Instr) (rest : List Instr) (s : State), step { s with pending := c :: rest } = exec c { s with pending := rest }) ∧
  (∀ s : State, s.pending = [] → step s = .next { s with now := s.now + 1 })

/-- Right after power-on reset the part holds the values the manual gives, and the invariants that the later statements have every
step keep hold: of the tables, the bounds, blades and links, the acknowledgement set, the zone duties, the programs, the lines of
the status writes, the drops told of, the waiting ports and the fans. That no blade and no supply is seated is the model's choice for the lines (log entry 5), and that unwritten table
memory reads 0 while it is being cleared is the model's reading (log entry 9). -/
def Obligations.ResetHoldsTheManualsValues : Prop :=
  State.reset.ready = false ∧ State.reset.attn = false ∧ State.reset.ziu.epoch = 0 ∧ State.reset.ziu.swap = false ∧
  State.reset.ziu.zone = .idle ∧ State.reset.ziu.result = .none ∧ State.reset.plu.part = .unconfigured ∧
  State.reset.plu.result = .none ∧ State.reset.plu.inUse = Tunables.default ∧ State.reset.pbu.hold = false ∧
  State.reset.lu.portUnits.entitlement = 0 ∧ State.reset.lu.xdPorts.entitlement = 0 ∧
  (∀ tag, (State.reset.tagSlot tag).outstanding = none) ∧ (∀ b, (State.reset.link b).state = .down) ∧
  (∀ b, (State.reset.blade b).state = .absent) ∧ (∀ p, (State.reset.port p).state = .offline) ∧
  (∀ i, (State.reset.pbu.psus.get i).state = .empty) ∧ (∀ z, (State.reset.ftu.zones.get z).driven = 100) ∧
  (∀ a, State.reset.tmc.mem.read a = 0#8) ∧ State.reset.tablesCanonical = true ∧ State.reset.bounded ∧
  (∀ b, State.reset.powerFollows b) ∧ (∀ b, State.reset.linkFollows b) ∧ State.reset.oweUp ∧ (∀ z, State.reset.dutyLaw z) ∧
    State.reset.programAbove ∧ State.reset.linesWhole ∧ State.reset.lossTold ∧ State.reset.waitsMatch ∧ State.reset.fansFollow

/-- Table memory and the condition of its words change at a GRANT and at power-on reset, and by no other command. That an
access acts at its GRANT and not at its completion, that wrong bits come about at the access, and that power-on reset clears
memory at once are the model's choices (log entries 15, 11 and 9); Section 3.4 says only that an access is carried out whole. -/
def Obligations.OnlyAGrantWritesTableMemory : Prop :=
  ∀ (c : Instr) (s t : State), exec c s = .next t → (∀ flips, c ≠ .grant flips) → (∀ p, c ≠ .powerOnReset p) →
    t.tmc.mem = s.tmc.mem ∧ t.tmc.marks = s.tmc.marks

/-- Every step keeps table memory, the word marks, the dirty map and the tunable copy in their canonical form; every SWQ entry
one line and every waiting event record whole; and the drops of events told of where they may be. -/
def Obligations.TablesStayCanonical : Prop :=
  (∀ s t : State, s.tablesCanonical = true → step s = .next t → t.tablesCanonical = true) ∧
  (∀ s t : State, s.linesWhole → step s = .next t → t.linesWhole) ∧
  (∀ s t : State, s.lossTold → step s = .next t → t.lossTold)

/-- Every step keeps each blade's power enable equal to what the blade's state asks for: on in POWERING, UP and LOST, off
in every other state. -/
def Obligations.BladePowerFollowsState : Prop :=
  ∀ s t : State, (∀ b, s.powerFollows b) → step s = .next t → ∀ b, t.powerFollows b

/-- Every step keeps the state of each link and of its blade together: DOWN with an unpowered blade, a first wait with
POWERING, UP with UP, LOST and a return wait with LOST; and every blade that owes an acknowledgement has its link UP. -/
def Obligations.LinkAndBladeGoTogether : Prop :=
  ∀ s t : State, (∀ b, s.linkFollows b) → s.oweUp → step s = .next t → (∀ b, t.linkFollows b) ∧ t.oweUp

/-- Every step keeps the tunables in use in their ranges, the refresh debt at 8 or below, the SWQ within its 64 places, the
derate factor at 100 or below and the demand of every blade at 100 or below. -/
def Obligations.BoundedFiguresStayBounded : Prop :=
  ∀ s t : State, s.bounded → step s = .next t → t.bounded

/-- Every step keeps each zone's target at the duty that R157 asks for and its driven duty between the target and 100; so
the duty is at least the minimum duty (20 to 100 percent), target and duty are 100 while the part is not ARMED, a tray of
the zone is not OK or a present blade of the zone is not fresh, and otherwise the target is the largest of the minimum duty
and the present blades' demands. -/
def Obligations.ZoneDutyLawKept : Prop :=
  (∀ s t : State, (∀ b, s.linkFollows b) → s.oweUp → s.bounded → (∀ z, s.dutyLaw z) → step s = .next t → ∀ z, t.dutyLaw z) ∧
  (∀ (s : State) (z : FanZone), s.dutyLaw z → s.bounded →
    (20 ≤ s.plu.inUse.minDuty ∧ s.plu.inUse.minDuty ≤ 100) ∧ s.plu.inUse.minDuty ≤ (s.ftu.zones.get z).driven ∧
    (s.plu.part ≠ .armed ∨ (∃ t, zoneOfTray t = z ∧ s.ftu.trays.get t ≠ .ok) ∨
      (∃ b, zoneOfSlot b = z ∧ (s.blade b).state ≠ .absent ∧ (s.ftu.temps.get b).fresh = false) →
      (s.ftu.zones.get z).target = 100 ∧ (s.ftu.zones.get z).driven = 100) ∧
    (s.plu.part = .armed → (∀ t, zoneOfTray t = z → s.ftu.trays.get t = .ok) →
      (∀ b, zoneOfSlot b = z → (s.blade b).state ≠ .absent → (s.ftu.temps.get b).fresh = true) →
      s.plu.inUse.minDuty ≤ (s.ftu.zones.get z).target ∧
      (∀ b, zoneOfSlot b = z → (s.blade b).state ≠ .absent → (s.ftu.temps.get b).demand ≤ (s.ftu.zones.get z).target) ∧
      ((s.ftu.zones.get z).target = s.plu.inUse.minDuty ∨
        ∃ b, zoneOfSlot b = z ∧ (s.blade b).state ≠ .absent ∧ (s.ftu.zones.get z).target = (s.ftu.temps.get b).demand)))

/-- The live epoch and the swap flag change only together: a flip adds 1 and toggles, at the completion of a validator
read; ENTER_ARMED sets 1 and 0; power-on reset sets 0 and 0. -/
def Obligations.EpochAndSwapMoveTogether : Prop :=
  ∀ (c : Instr) (s t : State), exec c s = .next t →
    (t.ziu.epoch = s.ziu.epoch ∧ t.ziu.swap = s.ziu.swap) ∨
    (c = .validatorReadComplete ∧ t.ziu.epoch = s.ziu.epoch + 1 ∧ t.ziu.swap = !s.ziu.swap) ∨
    (c = .enterArmed ∧ t.ziu.epoch = 1 ∧ t.ziu.swap = false) ∨
    ((∃ p, c = .powerOnReset p) ∧ t.ziu.epoch = 0 ∧ t.ziu.swap = false)

/-- An ARMED part stays ARMED until power-on reset, with its frozen layout, its reserves and its memory size. -/
def Obligations.ArmedLastsUntilPowerOnReset : Prop :=
  ∀ (c : Instr) (s t : State), exec c s = .next t → (∀ p, c ≠ .powerOnReset p) → s.plu.part = .armed →
    t.plu.part = .armed ∧ t.plu.layout = s.plu.layout ∧ t.lu.reserves = s.lu.reserves ∧ t.tmc.density = s.tmc.density

/-- A floor never falls from one power-on reset to the next, and a program in progress stays above its floor. At a power-on reset
the floor read from the cells does not fall either, when a cell that holds the floor passes its check: neither a cell that
fails its check nor a program cut short takes it lower. Which cells fail their check is the command's operand (the model's
choice, log entry 8). -/
def Obligations.FloorsNeverFall : Prop :=
  (∀ (c : Instr) (s t : State), s.programAbove → exec c s = .next t → (∀ p, c ≠ .powerOnReset p) →
    (∀ f, (s.lu.feature f).floor ≤ (t.lu.feature f).floor) ∧ t.programAbove) ∧
  (∀ (p : PowerOn) (s t : State) (f : Feature) (i : Fin 2), s.programAbove →
    (s.lu.feature f).cells.get i = ⟨(s.lu.feature f).floor, true⟩ → ⟨f, i⟩ ∉ p.badCells → exec (.powerOnReset p) s = .next t →
    (s.lu.feature f).floor ≤ (t.lu.feature f).floor)

/-! ### Resets -/

/-- POWER_ON_RESET gives the units the values that are named here; seated blades and supplies begin to settle, rotors of
seated trays spin up, and each floor is read from its cells. That memory then reads 0 is the model's choice (log entry 9), and
so is that the lines keep their levels and the waiting commands their queue (log entries 5 and 73); where the manual gives a
field no reset value it is 0 or none (log entry 75). -/
def Obligations.PowerOnResetRestoresTheUnits : Prop :=
  ∀ (p : PowerOn) (s : State), ∃ t, exec (.powerOnReset p) s = .next t ∧
    t.pins = { s.pins with density1 := p.density1, density0 := p.density0 } ∧ t.now = 0 ∧ t.pending = s.pending ∧
    t.tmc.initDone = false ∧ (∀ a, t.tmc.mem.read a = 0#8) ∧ t.tbp = Tbp.reset ∧ t.swq = Swq.reset ∧ t.ziu = Ziu.reset ∧
    t.plu = Plu.reset ∧ (∀ b, t.link b = Link.reset) ∧ (∀ q, t.port q = Port.reset) ∧
    (∀ b, t.blade b = if s.pins.bladePresent.get b then { Blade.reset with state := .settling, debounceAt := some (sec 1) }
      else Blade.reset) ∧
    (∀ i, t.pbu.psus.get i = if s.pins.psuPresent.get i then { Psu.reset with state := .settling, settleAt := some (sec 2) }
      else Psu.reset) ∧
    (∀ r, (t.ftu.rotors.get r).state = if s.pins.trayPresent.get (trayOf r) then .spinup else .absent) ∧
    (∀ z, (t.ftu.zones.get z).driven = 100) ∧ (∀ b, t.ftu.temps.get b = BladeTemp.reset) ∧
    (∀ f, (t.lu.feature f).entitlement = 0 ∧ (t.lu.feature f).reinstated = false ∧
      ((t.lu.feature f).floor, (t.lu.feature f).floorFault) = readFloor (t.lu.feature f).cells) ∧
    (∀ k, t.lu.slots.get k = TokenSlot.reset) ∧ t.lu.fifo = [] ∧ t.lu.program = none ∧ (∀ b, t.queue b = []) ∧
    (∀ b, t.lu.counters.get b = 0) ∧ t.pbu.waitList = [] ∧ t.pbu.holdoffAt = none ∧ t.pbu.restorePending = false ∧
    t.pbu.hold = false ∧ t.evu.asserted = false ∧ t.evu.producer = 0 ∧ t.evu.consumer = 0 ∧ t.evu.intake = [] ∧
    t.evu.sequence = 0 ∧ t.evu.ringLost = none ∧ t.evu.phase = .idle ∧ t.evu.coalesceAt = none

/-- INITIALISATION_COMPLETE asserts ready unless WARM_RST_N is asserted, and starts the patrol and the report period with
the counters and the debt at 0; that the first patrol mark lies 16 µs on is the model's choice (log entry 18). WARM_RESET_RELEASE
asserts ready again once the DRAM is initialised, and ATTN follows the attention state at once. -/
def Obligations.ReadyIsAsserted : Prop :=
  (∀ s : State, s.tmc.initDone = false → ∃ t, exec .initialisationComplete s = .next t ∧
    t.ready = (!s.pins.warm) ∧ t.tmc.debt = 0 ∧ t.tmc.corrected = .zero ∧ t.tmc.uncorrectable = .zero ∧
    t.tmc.poisonedWrite = .zero ∧ t.tmc.patrolLine = 0 ∧ t.tmc.patrolAt = some (s.now + usec 16) ∧
    t.tmc.reportAt = some (s.now + sec 1) ∧ backgroundKept s t ∧ t = { s with tmc := t.tmc, swq := t.swq, evu := t.evu }) ∧
  (∀ s : State, s.pins.warm = true → ∃ t, exec .warmResetRelease s = .next t ∧
    t.ready = s.tmc.initDone ∧ t.attn = s.evu.asserted ∧ backgroundKept s t ∧
    t = { s with pins := { s.pins with warm := false }, tmc := t.tmc, swq := t.swq, evu := t.evu })

/-- WARM_RESET drops every outstanding request without an answer, holds ready and ATTN low, ends a validation with
ABORTED_BY_RESET and leaves every other unit, the watch shadows and table memory as they were. -/
def Obligations.WarmResetDropsRequests : Prop :=
  ∀ s : State, s.pins.warm = false → ∃ t, exec .warmReset s = .next t ∧
    t.ready = false ∧ t.attn = false ∧ t.evu.asserted = s.evu.asserted ∧
    (∀ tag, t.tagSlot tag = if (s.tagSlot tag).outstanding.isSome then ⟨none, none⟩ else s.tagSlot tag) ∧
    t.tbp = { s.tbp with slots := t.tbp.slots, heldReads := [], heldWrites := [] } ∧
    (∀ j ∈ t.tmc.jobs, j.tag = none) ∧ backgroundKept s t ∧
    (s.ziu.zone ≠ .validating → t.ziu = s.ziu) ∧
    (s.ziu.zone = .validating →
      t.ziu = { s.ziu with zone := .idle, validator := none, result := .abortedByReset, detail := 0, accepted := s.ziu.started }) ∧
    t = { s with pins := { s.pins with warm := true }, tmc := t.tmc, tbp := t.tbp, swq := t.swq, ziu := t.ziu, evu := t.evu }

/-! ### The table bus -/

/-- A READ on a free tag: RANGE where its form fails, RETRY in HOLD and in a region being armed. Otherwise it occupies its tag.
When no SWQ entry holds one of its lines, the read of each line is asked of the TMC, line by line; when some do, the READ is
held and awaits exactly those entries. The line that each address reads is fixed as the READ is classified, before the hold,
which is the model's choice (log entry 28). -/
def Obligations.ReadIsAnsweredOrTaken : Prop :=
  ∀ (tag : BusTag) (addr : BitVec 32) (len : BitVec 3) (s : State), s.ready = true → (s.tagSlot tag).outstanding = none →
    ∃ t, exec (.read tag addr len) s = .next t ∧
      (formFails s addr.toNat len.toNat → t.tagSlot tag = ⟨none, some ⟨.range, []⟩⟩) ∧
      (¬formFails s addr.toNat len.toNat → retried s addr.toNat len.toNat → t.tagSlot tag = ⟨none, some ⟨.retry, []⟩⟩) ∧
      (formFails s addr.toNat len.toNat ∨ retried s addr.toNat len.toNat →
        t.tmc.jobs = s.tmc.jobs ∧ t.tbp.heldReads = s.tbp.heldReads) ∧
      (¬formFails s addr.toNat len.toNat → ¬retried s addr.toNat len.toNat →
        t.tagSlot tag = ⟨some ⟨false, addr.toNat, len.toNat⟩, none⟩ ∧
        ∀ lines, lines = (List.range len.toNat).map (fun i => readLine s (addr.toNat + 64 * i)) →
          ((∀ e ∈ s.swq.entries, e.line ∉ lines) → t.tbp.heldReads = s.tbp.heldReads ∧
            t.tmc.jobs = s.tmc.jobs ++ [⟨s.tmc.nextJob, some tag, false, List.replicate len.toNat [], false, 0, []⟩] ∧
            ∀ i, i < len.toNat → t.asked ⟨.busRead s.tmc.nextJob i, readLine s (addr.toNat + 64 * i)⟩) ∧
          ((∃ e ∈ s.swq.entries, e.line ∈ lines) → t.tmc.jobs = s.tmc.jobs ∧
            t.tbp.heldReads = s.tbp.heldReads ++ [⟨tag, lines, (s.swq.entries.filter (fun e => lines.contains e.line)).map (·.id)⟩])) ∧
      (∀ u, u ≠ tag → t.tagSlot u = s.tagSlot u) ∧ t.tbp.handed = s.tbp.handed ∧ t.tbp.heldWrites = s.tbp.heldWrites ∧
      backgroundKept s t ∧ t = { s with tmc := t.tmc, tbp := t.tbp, swq := t.swq, evu := t.evu }

/-- A WRITE on a free tag that the part does not carry out is answered at once and has no effect: RANGE where its form fails,
and otherwise by rows 1 to 6 of Table 2.2-1: RETRY in HOLD and in a region being armed, DENIED in the live window and where
every enabled byte is part-owned, OK where no byte is enabled, RETRY on a bank line in AWAIT_ACK. -/
def Obligations.RefusedWriteHasNoEffect : Prop :=
  (∀ (tag : BusTag) (addr : BitVec 32) (len : BitVec 3) (data : List Byte) (enables : List Bool) (s : State) (st : BusStatus),
    s.ready = true → (s.tagSlot tag).outstanding = none →
    (formFails s addr.toNat len.toNat ∧ st = .range ∨
      ¬formFails s addr.toNat len.toNat ∧
        classify s true (lineAddrs addr.toNat len.toNat)
          ((List.range len.toNat).any (fun i => anyEnabled (lineMask data enables i)))
          ((writeLines s (lineAddrs addr.toNat len.toNat) data enables).any (fun l => anyEnabled l.mask)) = some st) →
    ∃ t, exec (.write tag addr len data enables) s = .next t ∧ t.tagSlot tag = ⟨none, some ⟨st, []⟩⟩ ∧
      (∀ u, u ≠ tag → t.tagSlot u = s.tagSlot u) ∧ t.tbp = { s.tbp with slots := t.tbp.slots } ∧ backgroundKept s t ∧
      t = { s with tmc := t.tmc, tbp := t.tbp, swq := t.swq, evu := t.evu }) ∧
  (∀ (tag : BusTag) (addr : BitVec 32) (len : BitVec 3) (data : List Byte) (enables : List Bool) (s : State) (st : BusStatus),
    s.ready = true → (s.tagSlot tag).outstanding = none → data.length = 64 * len.toNat → enables.length = 64 * len.toNat →
    ¬formFails s addr.toNat len.toNat → tableAnswer s addr.toNat len.toNat enables st →
    ∃ t, exec (.write tag addr len data enables) s = .next t ∧ t.tagSlot tag = ⟨none, some ⟨st, []⟩⟩ ∧
      (∀ u, u ≠ tag → t.tagSlot u = s.tagSlot u) ∧ t.tbp = { s.tbp with slots := t.tbp.slots } ∧ t.tmc.jobs = s.tmc.jobs ∧
      backgroundKept s t ∧ t = { s with tmc := t.tmc, tbp := t.tbp, swq := t.swq, evu := t.evu })

/-- A WRITE that is carried out (row 7 of Table 2.2-1), with its part-owned bytes stripped, occupies its tag, makes exactly the
bank lines it lands on STAGED, sets the shadows of the watched words it completes and hands the words to their owners in order, and
ends a validation with STAGE_CHANGED when it lands on a bank line. Each line of the request is asked of the TMC as a masked
write of its own, also a line with no enabled byte; on a bank line in RESYNC or held in error that is not wholly written, with the live
line to be copied first. The bus job waits for all of them, and the stage writes in flight rise by one for each bank line and by one more for
each merge copy. Bytes that land in policy lines 0 to 31 enter the PLU's copy and the tunables in use follow; a change of one is handed
to the PBU, the FTU, the EVU and the LU, which act on it as R136, R151, R154, R156, R157, R166 and R109 say, and no change hands nothing
on. That the grant round of changed weights leaves no head it could grant is said where no restore process runs behind it. That a fall
of D starts the restore process also where projected draw rises in the same change is the model's reading (log entry 62): R136 says so of
every lower D, R142 of a fall without a rise of projected draw. A WRITE that
lands on a line whose copy has been presented waits and has no other effect. That it lands on every bank line it covers, also on one with
no enabled byte, that such a WRITE waits whole, and the weights 1 and 2 of a stage write are the model's choices and reading (log entries
24, 27 and 25). -/
def Obligations.CarriedWriteStagesItsLines : Prop :=
  (∀ (tag : BusTag) (addr : BitVec 32) (len : BitVec 3) (data : List Byte) (enables : List Bool) (s : State)
    (lines : List WriteLine), s.ready = true → (s.tagSlot tag).outstanding = none → ¬formFails s addr.toNat len.toNat →
    lines = writeLines s (lineAddrs addr.toNat len.toNat) data enables →
    classify s true (lineAddrs addr.toNat len.toNat) ((List.range len.toNat).any (fun i => anyEnabled (lineMask data enables i)))
      (lines.any (fun l => anyEnabled l.mask)) = none →
    sparseWf .clean s.ziu.dirty = true → (∀ k ∈ bankLines s lines, copyPresented s k = false) →
    ∃ t, exec (.write tag addr len data enables) s = .next t ∧
      t.tagSlot tag = ⟨some ⟨true, addr.toNat, len.toNat⟩, none⟩ ∧
      (∀ k, t.ziu.lineState k = if k ∈ bankLines s lines then .staged else s.ziu.lineState k) ∧
      t.tbp.handed = s.tbp.handed ++ lines.flatMap (completedWords s) ∧
      t.tbp = { (lines.flatMap (completedWords s)).foldl (fun b h => b.setShadow h.word h.value) s.tbp with
        slots := t.tbp.slots, handed := t.tbp.handed } ∧
      (∀ (i : Nat) (l : WriteLine), lines[i]? = some l →
        (stageLine s l.addr = none → t.asked ⟨.busWrite s.tmc.nextJob i l.mask none, readLine s l.addr⟩) ∧
        (∀ k lay, stageLine s l.addr = some k → s.plu.layout = some lay → t.asked ⟨.busWrite s.tmc.nextJob i l.mask
          (if s.mergesFirst l then some (lay.bankLine s.ziu.liveBank k / 64) else none), lay.bankLine s.ziu.stageBank k / 64⟩)) ∧
      t.tmc.jobs = s.tmc.jobs ++ [⟨s.tmc.nextJob, some tag, true, [], false, s.stageWritesOf lines, []⟩] ∧
      t.ziu.stageWrites = s.ziu.stageWrites + s.stageWritesOf lines ∧
      (∀ k rest, s.ziu.zone = .validating → bankLines s lines = k :: rest →
        t.ziu.zone = .idle ∧ t.ziu.result = .stageChanged ∧ t.ziu.detail = k ∧ t.ziu.accepted = s.ziu.started) ∧
      (addr.toNat < 2048 → t.plu = { s.plu with
        copy := s.plu.copy.writeMasked addr.toNat (lines.map (·.mask)).flatten
        inUse := Tunables.ofCopy (s.plu.copy.writeMasked addr.toNat (lines.map (·.mask)).flatten) }) ∧
      (addr.toNat < 2048 → t.plu.inUse ≠ s.plu.inUse → tunablesFollow s t t.plu.inUse) ∧
      (addr.toNat < 2048 → t.plu.inUse = s.plu.inUse →
        t = { s with tmc := t.tmc, tbp := t.tbp, swq := t.swq, ziu := t.ziu, evu := t.evu, plu := t.plu }) ∧
      (∀ u, u ≠ tag → t.tagSlot u = s.tagSlot u) ∧ t.ziu.epoch = s.ziu.epoch ∧ t.ziu.swap = s.ziu.swap ∧ memoryKept s t ∧
      t.tmc.marks = s.tmc.marks ∧
      (2048 ≤ addr.toNat → t = { s with tmc := t.tmc, tbp := t.tbp, swq := t.swq, ziu := t.ziu, evu := t.evu })) ∧
  (∀ (tag : BusTag) (addr : BitVec 32) (len : BitVec 3) (data : List Byte) (enables : List Bool) (s : State)
    (lines : List WriteLine), s.ready = true → (s.tagSlot tag).outstanding = none → ¬formFails s addr.toNat len.toNat →
    lines = writeLines s (lineAddrs addr.toNat len.toNat) data enables →
    classify s true (lineAddrs addr.toNat len.toNat) ((List.range len.toNat).any (fun i => anyEnabled (lineMask data enables i)))
      (lines.any (fun l => anyEnabled l.mask)) = none →
    (∃ k ∈ bankLines s lines, copyPresented s k = true) →
    ∃ t, exec (.write tag addr len data enables) s = .next t ∧
      t.tagSlot tag = ⟨some ⟨true, addr.toNat, len.toNat⟩, none⟩ ∧ (∀ u, u ≠ tag → t.tagSlot u = s.tagSlot u) ∧
      t.tbp = { s.tbp with
        slots := t.tbp.slots, heldWrites := s.tbp.heldWrites ++ [⟨tag, addr.toNat, len.toNat, data, enables⟩] } ∧
      t.tmc.jobs = s.tmc.jobs ∧ backgroundKept s t ∧ t = { s with tmc := t.tmc, tbp := t.tbp, swq := t.swq, evu := t.evu }) ∧
  (∀ (addr len : Nat) (data : List Byte) (enables : List Bool) (s : State), data.length = 64 * len → enables.length = 64 * len →
    tableCarries s addr len enables →
    classify s true (lineAddrs addr len) ((List.range len).any (fun i => anyEnabled (lineMask data enables i)))
      ((writeLines s (lineAddrs addr len) data enables).any (fun l => anyEnabled l.mask)) = none ∧
    ∀ i j, i < len → j < 64 → ∃ l, (writeLines s (lineAddrs addr len) data enables)[i]? = some l ∧ l.addr = addr + 64 * i ∧
      l.mask[j]? = some (if enables[64 * i + j]? = some true ∧ cpOwned s.armed (regionOf s (addr + 64 * i)) j = true then
        data[64 * i + j]? else none))

/-- A request whose tag is outstanding leaves no trace but its BUS_PROTOCOL event: the tag's request, the shadows, the
handed words and table memory stay as they were. The event is of severity WARN and gives the tag, the kind, the address
and the length; it is dropped and counted before the part is ARMED and with the intake full. -/
def Obligations.RequestOnABusyTagIsDiscarded : Prop :=
  ∀ (tag : BusTag) (addr : BitVec 32) (len : BitVec 3) (s : State) (isWrite : Bool) (data : List Byte) (enables : List Bool),
    s.ready = true → (s.tagSlot tag).outstanding.isSome = true →
    ∃ t, exec (if isWrite then .write tag addr len data enables else .read tag addr len) s = .next t ∧
      backgroundKept s t ∧ t.tmc.jobs = s.tmc.jobs ∧
      (s.plu.part = .armed → s.evu.intake.length < 32 → t.evu.intake = s.evu.intake ++
        [⟨(s.evu.sequence + 1) % 65536, s.timestamp, busProtocolEvent tag isWrite addr.toNat len.toNat⟩]) ∧
      (s.plu.part ≠ .armed ∨ 32 ≤ s.evu.intake.length → t.evu.intake = s.evu.intake ∧
        t.evu.lostTotal = min 4294967295 (s.evu.lostTotal + 1)) ∧
      (busProtocolEvent tag isWrite addr.toNat len.toNat).severity = .warn ∧
      t = { s with tmc := t.tmc, swq := t.swq, evu := t.evu }

/-- Reads of the zone windows reach the banks as the swap flag and the dirty map say, line 0 of either window reaching the
control line. -/
def Obligations.WindowReadsFollowSwapAndDirtyMap : Prop :=
  ∀ (s : State) (l : Layout) (k : Nat), s.plu.part = .armed → s.plu.layout = some l →
    l.check (memoryBytes s.tmc.density) = none → 1 ≤ k → k ≤ 4095 →
    readLine s (l.live + 64 * k) = l.bankLine (if s.ziu.swap then 0 else 1) k / 64 ∧
    readLine s (l.stage + 64 * k) =
      l.bankLine (if s.ziu.lineState k = .clean ∨ s.ziu.lineState k = .staged then (if s.ziu.swap then 1 else 0)
        else (if s.ziu.swap then 0 else 1)) k / 64 ∧
    readLine s l.stage = l.stage / 64 ∧ readLine s l.live = l.stage / 64

/-- READ_COMPLETE answers the read whose last line is in progress, OK with its lines or POISON; WRITE_COMPLETE answers OK
and takes the write's share off the stage writes in flight. That memory stays as it was rests on the model's choice that an
access acts at its GRANT (log entry 15). -/
def Obligations.CompletionAnswersTheRequest : Prop :=
  (∀ (s : State) (p : InProgress) (id i : Nat) (j : BusJob) (tag : BusTag), s.tmc.inProgress = some p →
    p.access.kind = .busRead id i → s.tmc.isLast p.access.kind = true →
    s.tmc.jobs.find? (fun x => decide (x.id = id)) = some j → j.tag = some tag →
    ∃ t, exec .readComplete s = .next t ∧
      t.tagSlot tag = ⟨none, some (if j.poisoned then ⟨.poison, []⟩ else ⟨.ok, j.got⟩)⟩ ∧
      (∀ u, u ≠ tag → t.tagSlot u = s.tagSlot u) ∧ t.tmc.inProgress = none ∧ (∀ x ∈ t.tmc.jobs, x.id ≠ id) ∧
      backgroundKept s t ∧ t = { s with tmc := t.tmc, tbp := t.tbp, swq := t.swq, evu := t.evu }) ∧
  (∀ (s : State) (p : InProgress) (id i : Nat) (bytes : List (Option Byte)) (merge : Option Nat) (j : BusJob) (tag : BusTag),
    s.tmc.inProgress = some p → p.access.kind = .busWrite id i bytes merge → s.tmc.isLast p.access.kind = true →
    s.tmc.jobs.find? (fun x => decide (x.id = id)) = some j → j.tag = some tag →
    ∃ t, exec .writeComplete s = .next t ∧ t.tagSlot tag = ⟨none, some ⟨.ok, []⟩⟩ ∧
      (∀ u, u ≠ tag → t.tagSlot u = s.tagSlot u) ∧ t.tmc.inProgress = none ∧ (∀ x ∈ t.tmc.jobs, x.id ≠ id) ∧
      t.ziu = { s.ziu with stageWrites := s.ziu.stageWrites - j.stageWrites } ∧
      backgroundKept s t ∧ t = { s with tmc := t.tmc, tbp := t.tbp, swq := t.swq, ziu := t.ziu, evu := t.evu })

/-! ### Table memory -/

/-- A granted write of one line puts exactly its enabled bytes into table memory and leaves the words' condition as R52 and
R53 say; so does the granted head of the SWQ. A write that copies the live line first lands on the copy, or on the line alone
when the live line is uncorrectable; a resync copy writes the live line's bytes, or nothing. That the access acts at its
GRANT, and that one beyond table memory stops, are the model's choices (log entries 15 and 10); so is that wrong bits come
about at the access (log entry 11). -/
def Obligations.GrantWritesTheEnabledBytes : Prop :=
  (∀ (s : State) (flips : List BitFlip) (job i line : Nat) (bytes : List (Option Byte)), s.tmc.initDone = true →
    s.tmc.power = .active → s.tmc.inProgress = none → s.tmc.debt < 8 →
    s.tmc.presented = [⟨.busWrite job i bytes none, line⟩] → bytes.length = 64 → s.tmc.mem.wf = true →
    (line < memoryLines s.tmc.density → ∃ t, exec (.grant flips) s = .next t ∧
      (∀ x, t.tmc.mem.read x = if 64 * line ≤ x ∧ x < 64 * line + 64 then (bytes.getD (x - 64 * line) none).getD (s.tmc.mem.read x)
        else s.tmc.mem.read x) ∧
      (sparseWf .clean s.tmc.marks = true → writeLeaves s t line flips bytes) ∧
      t.tmc.inProgress = some ⟨⟨.busWrite job i bytes none, line⟩, [], false⟩ ∧
      t = { s with tmc := t.tmc, swq := t.swq, evu := t.evu }) ∧
    (memoryLines s.tmc.density ≤ line → exec (.grant flips) s = .fault .outsideTableMemory)) ∧
  (∀ (s : State) (flips : List BitFlip) (e : SwqEntry) (rest : List SwqEntry), s.grants ⟨.swqHead, e.line⟩ →
    s.swq.entries = e :: rest → e.bytes.length = 64 → s.tmc.mem.wf = true → ∃ t, exec (.grant flips) s = .next t ∧
      writeLeaves s t e.line flips e.bytes ∧ t.tmc.inProgress = some ⟨⟨.swqHead, e.line⟩, [], false⟩ ∧
      t = { s with tmc := t.tmc, swq := t.swq, evu := t.evu }) ∧
  (∀ (s : State) (flips : List BitFlip) (job i line live : Nat) (bytes : List (Option Byte)),
    s.grants ⟨.busWrite job i bytes (some live), line⟩ → line ≠ live → bytes.length = 64 → s.tmc.mem.wf = true →
    ∃ t, exec (.grant flips) s = .next t ∧
      (∀ x, t.tmc.mem.read x = if 64 * line ≤ x ∧ x < 64 * line + 64 then (bytes.getD (x - 64 * line) none).getD
        (if s.foundBad live flips then s.tmc.mem.read x else s.tmc.mem.read (64 * live + (x - 64 * line))) else s.tmc.mem.read x) ∧
      (s.foundBad live flips = false → ∀ k, k < 8 → t.tmc.mark line k = .clean) ∧
      (∀ b k, s.foundBad live flips = true → bankLineOf s line = some (b, k) → t.tmc.jobs = s.tmc.jobs.map
        (fun j => if j.id = job then { j with mergeErrors := j.mergeErrors ++ [k] } else j)) ∧
      (s.foundBad live flips = false → t.tmc.jobs = s.tmc.jobs) ∧
      t.tmc.inProgress = some ⟨⟨.busWrite job i bytes (some live), line⟩, [], s.foundBad live flips⟩ ∧
      t = { s with tmc := t.tmc, swq := t.swq, evu := t.evu }) ∧
  (∀ (s : State) (flips : List BitFlip) (k line live : Nat), s.grants ⟨.resync k live, line⟩ → line ≠ live →
    s.tmc.mem.wf = true → ∃ t, exec (.grant flips) s = .next t ∧
      (s.foundBad live flips = true → memoryKept s t) ∧
      (s.foundBad live flips = false → (∀ x, t.tmc.mem.read x = if 64 * line ≤ x ∧ x < 64 * line + 64 then
        s.tmc.mem.read (64 * live + (x - 64 * line)) else s.tmc.mem.read x) ∧ ∀ j, j < 8 → t.tmc.mark line j = .clean) ∧
      t.tmc.inProgress = some ⟨⟨.resync k live, line⟩, [], s.foundBad live flips⟩ ∧
      t = { s with tmc := t.tmc, swq := t.swq, evu := t.evu })

/-- A grant follows Table 3.4-2 row by row: an urgent refresh; the TBP access due at a count of 3; the internal access due at 6; the
fetch read, the TBP access and the internal access whose turn it is; a refresh while a debt is left; a scrub. The counts and the
rotations move as R57 says. A granted read of the bus, of a fetch, of the validator or of a token delivers the line's bytes and
whether a word of it is uncorrectable, and leaves the words and counters as R49 to R51 say; a patrol read and a deferred scrub leave
words, counters and list as R55 and R51 say, the deferred scrub counting the words whose wrong bit has come about since (R54); one wrong
bit more makes a fresh word correctable and a correctable one uncorrectable
(R47). That a read takes its bytes at its GRANT and wrong bits come about at the access are the model's choices (log entries 15 and
11), and so is that a patrol read of a line with both kinds of word writes nothing (log entry 81); that a write-back poisons
uncorrectable words and that a deferred scrub counts a word that stood clean, that no later read of a blade passes its first, and how token and validator reads take turns are its readings
(log entries 13, 16 and 55). -/
def Obligations.GrantFollowsTheServiceOrder : Prop :=
  (∀ (s : State) (flips : List BitFlip), s.tmc.initDone = true → s.tmc.power = .active → s.tmc.inProgress = none → 8 ≤ s.tmc.debt →
    ∃ t, exec (.grant flips) s = .next t ∧ t.tmc.debt = s.tmc.debt - 1 ∧ t.tmc.inProgress = none ∧ memoryKept s t ∧
      t.tmc.marks = s.tmc.marks ∧ t = { s with tmc := t.tmc, swq := t.swq, evu := t.evu }) ∧
  (∀ (s : State) (flips : List BitFlip) (x f : Access) (job i k : Nat) (b : Slot) (tag : FetchTag), s.tmc.initDone = true →
    s.tmc.power = .active → s.tmc.inProgress = none → s.tmc.debt < 8 → s.tmc.presented = [x, f] → x.kind = .busRead job i →
    f.kind = .fetch b tag k → x.line ≠ f.line → x.line < memoryLines s.tmc.density → f.line < memoryLines s.tmc.density →
    s.tmc.tbpWait ≤ 3 → s.tmc.internalWait < 6 →
    ∃ t, exec (.grant flips) s = .next t ∧
      t.tmc.inProgress.map (·.access) = some (if s.tmc.tbpWait = 3 then x else f) ∧
      t.tmc.tbpWait = (if s.tmc.tbpWait = 3 then 0 else s.tmc.tbpWait + 1) ∧ memoryKept s t ∧
      t = { s with tmc := t.tmc, swq := t.swq, blc := t.blc, evu := t.evu }) ∧
  (∀ (s : State) (flips : List BitFlip) (a : Access), s.tmc.initDone = true → s.tmc.power = .active → s.tmc.channelFree = true →
    a.line < memoryLines s.tmc.density → s.serves a → ∃ t, exec (.grant flips) s = .next t ∧
      t.tmc.inProgress.map (·.access) = some a ∧ t.tmc.debt = s.tmc.debt ∧ grantCounted s t a ∧
      t = { s with tmc := t.tmc, swq := t.swq, blc := t.blc, evu := t.evu }) ∧
  (∀ (s : State) (flips : List BitFlip), s.tmc.initDone = true → s.tmc.power = .active → s.tmc.channelFree = true →
    0 < s.tmc.debt → s.tmc.debt < 8 → s.noTraffic → ∃ t, exec (.grant flips) s = .next t ∧ t.tmc.debt = s.tmc.debt - 1 ∧
      t.tmc.inProgress = none ∧ memoryKept s t ∧ t.tmc.marks = s.tmc.marks ∧
      t = { s with tmc := t.tmc, swq := t.swq, evu := t.evu }) ∧
  (∀ (s : State) (flips : List BitFlip) (line : Nat), s.grants ⟨.patrol, line⟩ → s.tmc.debt = 0 →
    ∃ t, exec (.grant flips) s = .next t ∧ t.tmc.inProgress.map (·.access) = some ⟨.patrol, line⟩ ∧ patrolLeaves s t line flips ∧
      t = { s with tmc := t.tmc, swq := t.swq, evu := t.evu }) ∧
  (∀ (s : State) (flips : List BitFlip) (b : Bank) (k line : Nat), s.grants ⟨.deferredScrub b k, line⟩ → s.tmc.debt = 0 →
    (b, k) ∈ s.tmc.deferred → ∃ t, exec (.grant flips) s = .next t ∧
      t.tmc.inProgress.map (·.access) = some ⟨.deferredScrub b k, line⟩ ∧ deferredLeaves s t line flips ∧
      t = { s with tmc := t.tmc, swq := t.swq, evu := t.evu }) ∧
  (∀ (s : State) (flips : List BitFlip) (job i line : Nat), s.grants ⟨.busRead job i, line⟩ → ∃ t, exec (.grant flips) s = .next t ∧
    t.tmc.jobs = s.tmc.jobs.map (fun j => if j.id = job then
      { j with got := j.got.set i (s.lineData line), poisoned := j.poisoned || s.foundBad line flips } else j) ∧
    readLeaves s t line flips ∧ t = { s with tmc := t.tmc, swq := t.swq, evu := t.evu }) ∧
  (∀ (s : State) (flips : List BitFlip) (b : Slot) (tag : FetchTag) (k line : Nat) (f : FetchSlot), s.grants ⟨.fetch b tag k, line⟩ →
    (s.link b).fetches.get tag = some f → ∃ t, exec (.grant flips) s = .next t ∧
      (t.link b).fetches.get tag = some { f with got := f.got ++ [s.lineData line], failed := f.failed || s.foundBad line flips } ∧
      t.link b = { s.link b with fetches := (s.link b).fetches.put tag ((t.link b).fetches.get tag) } ∧
      (∀ c, c ≠ b → t.link c = s.link c) ∧ readLeaves s t line flips ∧
      t = { s with tmc := t.tmc, swq := t.swq, blc := t.blc, evu := t.evu }) ∧
  (∀ (s : State) (flips : List BitFlip) (a : Access), (∃ run, a.kind = .validator run) ∨ (∃ k, a.kind = .token k) → s.grants a →
    ∃ t, exec (.grant flips) s = .next t ∧ t.tmc.inProgress = some ⟨a, s.lineData a.line, s.foundBad a.line flips⟩ ∧
      readLeaves s t a.line flips ∧ t = { s with tmc := t.tmc, swq := t.swq, evu := t.evu }) ∧
  (∀ (s : State) (line : Nat) (f : BitFlip), sparseWf .clean s.tmc.marks = true →
    s.found line [] = s.tmc.mark line ∧
    s.found line [f] f.word.1 = (match s.tmc.mark line f.word.1 with
      | .clean => if f.double then .twoWrong else .oneWrong
      | .poison => .poison
      | _ => .twoWrong) ∧ ∀ i, i < 8 → i ≠ f.word.1 → s.found line [f] i = s.tmc.mark line i)

/-- REFRESH_DUE adds 1 to the debt, to at most 8, sets the next refresh 7.8 µs on, and at 8 leaves POWER_DOWN. IDLE_TIMEOUT
of an ACTIVE controller enters POWER_DOWN; SELF_REFRESH_ENTRY enters SELF_REFRESH with the debt at 0 and no refresh due,
once the TMC has heard of HOLD and nothing is in its hands; SELF_REFRESH_EXIT makes it ACTIVE with a new interval. That the entry
pays any debt in one step is the model's choice (log entry 59). -/
def Obligations.RefreshAndPowerStates : Prop :=
  (∀ (s : State) (at0 : Nat), s.tmc.refreshAt = some at0 → at0 ≤ s.now → ∃ t, exec .refreshDue s = .next t ∧
    t.tmc.debt = min 8 (s.tmc.debt + 1) ∧ t.tmc.refreshAt = some (at0 + 780) ∧
    (t.tmc.debt = 8 → t.tmc.power ≠ .powerDown) ∧ backgroundKept s t ∧ t = { s with tmc := t.tmc, swq := t.swq, evu := t.evu }) ∧
  (∀ (s : State) (at0 : Nat), s.tmc.power = .active → s.tmc.idleAt = some at0 → at0 ≤ s.now → s.tmc.presented = [] →
    eligibleScrubs s = [] → s.lossTold →
    ∃ t, exec .idleTimeout s = .next t ∧ t.tmc.power = .powerDown ∧ backgroundKept s t ∧
      t = { s with tmc := t.tmc, swq := t.swq, evu := t.evu }) ∧
  (∀ s : State, s.tmc.initDone = true → s.tmc.holdTold = true → s.tmc.power ≠ .selfRefresh → s.tmc.presented = [] →
    s.tmc.inProgress = none → ∃ t, exec .selfRefreshEntry s = .next t ∧ t.tmc.power = .selfRefresh ∧ t.tmc.debt = 0 ∧
      t.tmc.refreshAt = none ∧ backgroundKept s t ∧ t = { s with tmc := t.tmc, swq := t.swq, evu := t.evu }) ∧
  (∀ s : State, s.tmc.exiting = true → s.tmc.power = .selfRefresh → ∃ t, exec .selfRefreshExit s = .next t ∧
    t.tmc.power = .active ∧ t.tmc.debt = 0 ∧ t.tmc.refreshAt = some (s.now + 780) ∧ t.tmc.exiting = false ∧ backgroundKept s t ∧
    t = { s with tmc := t.tmc, swq := t.swq, evu := t.evu })

/-- The patrol presents its line at each 16 µs mark; at a mark at which its last read still waits, or nothing is accepted, it presents
none, and the marks run on. A completed patrol read moves the position on, wrapping after the last line; a completed deferred scrub
leaves its list. REPORT_PERIOD_END raises one MEMORY event for each error counter above 0 and sets the counters to 0. That the events
come in the order corrected, uncorrectable, poisoned write is the model's choice (log entry 88; R54 gives no order), and so is that the
marks run on while nothing is accepted (log entry 18). -/
def Obligations.PatrolScrubsAndReports : Prop :=
  (∀ (s : State) (at0 : Nat), s.tmc.patrolAt = some at0 → at0 ≤ s.now → s.tmc.accepting = true → s.tmc.patrolWaits = false →
    ∃ t, exec .patrolTick s = .next t ∧ t.tmc.patrolAt = some (at0 + usec 16) ∧
      (⟨.patrol, s.tmc.patrolLine⟩ : Access) ∈ t.tmc.presented ∧
      backgroundKept s t ∧
      t = { s with tmc := t.tmc, swq := t.swq, evu := t.evu }) ∧
  (∀ (s : State) (at0 : Nat), s.tmc.patrolAt = some at0 → at0 ≤ s.now → s.tmc.accepting = false ∨ s.tmc.patrolWaits = true →
    ∃ t, exec .patrolTick s = .next t ∧ t.tmc.patrolAt = some (at0 + usec 16) ∧ t.tmc.patrolLine = s.tmc.patrolLine ∧
      t.tmc.patrolHeld = s.tmc.patrolHeld ∧
      t.tmc.presented.filter (fun a => decide (a.kind = .patrol)) = s.tmc.presented.filter (fun a => decide (a.kind = .patrol)) ∧
      backgroundKept s t ∧ t = { s with tmc := t.tmc, swq := t.swq, evu := t.evu }) ∧
  (∀ (s : State) (p : InProgress), s.tmc.inProgress = some p → p.access.kind = .patrol →
    ∃ t, exec .patrolReadComplete s = .next t ∧ t.tmc.inProgress = none ∧
      t.tmc.patrolLine = (if p.access.line + 1 < memoryLines s.tmc.density then p.access.line + 1 else 0) ∧ backgroundKept s t ∧
      t = { s with tmc := t.tmc, swq := t.swq, evu := t.evu }) ∧
  (∀ (s : State) (p : InProgress) (b : Bank) (k : Nat), s.tmc.inProgress = some p → p.access.kind = .deferredScrub b k →
    ∃ t, exec .deferredScrubComplete s = .next t ∧ t.tmc.inProgress = none ∧ t.tmc.deferred = s.tmc.deferred.erase (b, k) ∧
      backgroundKept s t ∧
      t = { s with tmc := t.tmc, swq := t.swq, evu := t.evu }) ∧
  (∀ (s : State) (at0 : Nat), s.tmc.reportAt = some at0 → at0 ≤ s.now → ∃ t, exec .reportPeriodEnd s = .next t ∧
    t.tmc.corrected = .zero ∧ t.tmc.uncorrectable = .zero ∧ t.tmc.poisonedWrite = .zero ∧ t.tmc.reportAt = some (at0 + sec 1) ∧
    (s.plu.part = .armed → s.evu.intake.length ≤ 29 → t.evu.intake.map (·.event) = s.evu.intake.map (·.event) ++
      (if 0 < s.tmc.corrected.count then [memoryReport 0 s.tmc.corrected] else []) ++
      (if 0 < s.tmc.uncorrectable.count then [memoryReport 1 s.tmc.uncorrectable] else []) ++
      (if 0 < s.tmc.poisonedWrite.count then [memoryReport 2 s.tmc.poisonedWrite] else [])) ∧
    backgroundKept s t ∧ t = { s with tmc := t.tmc, swq := t.swq, evu := t.evu })

/-- SWQ_ENTRY_COMPLETE takes the head entry off the queue, gives the EVU its drain report when no later entry is marked for
it, and leaves no READ held for that entry. That memory stays as it was rests on the model's choice that the entry's write acts at
its GRANT (log entry 15). -/
def Obligations.SwqHeadLeavesTheQueue : Prop :=
  ∀ (s : State) (p : InProgress) (e : SwqEntry) (rest : List SwqEntry), s.tmc.inProgress = some p → p.access.kind = .swqHead →
    s.swq.entries = e :: rest → ∃ t, exec .swqEntryComplete s = .next t ∧ t.tmc.inProgress = none ∧
      (∃ l, t.swq.entries.map (·.id) = rest.map (·.id) ++ l) ∧
      (∀ sev, s.evu.phase = .draining sev → (∀ x ∈ rest, x.evuMark = false) → t.evu.phase = .drained sev) ∧
      (∀ h ∈ t.tbp.heldReads, e.id ∉ h.awaits ∧ h.awaits ≠ []) ∧ backgroundKept s t ∧
      t = { s with tmc := t.tmc, tbp := t.tbp, swq := t.swq, evu := t.evu, plu := { s.plu with fill := t.plu.fill } }

/-- SWQ_PLACE_GRANT takes the first waiting write of the next unit in cyclic order: that unit was served last, an entry that had
not been issued holds the write's bytes at their place in the line, and the write has left its unit, with the events behind it
handed on; the zero-fill goes on to its next line. That a merge counts as service is the model's choice (log entry 79). -/
def Obligations.FreedPlaceGoesRound : Prop :=
  ∀ (s : State) (u : UnitId) (item : StatusItem) (rest : List WaitItem) (line : Nat) (bytes : List (Option Byte)),
    s.swq.entries.length < 64 → s.linesWhole → (unitsAfter s.swq.lastServed).find? s.swq.unitWaits = some u →
    s.swq.waits u = .write item :: rest → render s item = some (line, bytes) →
    ∃ t, exec .swqPlaceGrant s = .next t ∧ t.swq.lastServed = u ∧ (∃ e ∈ t.swq.entries, e.line = line) ∧
      ((∀ b, render s .ringHeader ≠ some (line, b)) ∨ (s.lossTold ∧ ∀ e l, rest ≠ .event e :: l) →
        ∃ e ∈ t.swq.entries, e.line = line ∧
          (∀ (i : Nat) (v : Byte), bytes[i]? = some (some v) → e.bytes[i]? = some (some v)) ∧
          (e.issued = false ∨ (t.swq.entries.head? = some e ∧ ∀ x, s.swq.entries.head? = some x → x.issued = false))) ∧
      (∃ l, (∀ x ∈ l, u = .evu ∧ x = .write .ringHeader) ∧
        ((∀ k, item ≠ .zeroFill k) → t.swq.waits u = rest.dropWhile (fun x => !x.isWrite) ++ l) ∧
        (∀ k lay, item = .zeroFill k → s.plu.layout = some lay → t.swq.waits u =
          (if k + 1 < lay.fillLines then .write (.zeroFill (k + 1)) :: rest else rest.dropWhile (fun x => !x.isWrite)) ++ l)) ∧
      backgroundKept s t ∧ t = { s with tmc := t.tmc, swq := t.swq, evu := t.evu, plu := { s.plu with fill := t.plu.fill } }

/-! ### Zone images -/

/-- A COMMIT word with a new sequence is decided by the zone state and the dirty map, in the order BUSY, HELD_LINES,
EPOCH_LIMIT, NO_CHANGE, acceptance. -/
def Obligations.CommitIsDecidedInOrder : Prop :=
  ∀ (s : State) (h : Handed), s.tbp.handed.find? (fun x => x.word.isZone) = some h → wordSequence h.value ≠ s.ziu.seen →
    wordCode h.value = 1 → ∃ t, exec .commit s = .next t ∧
      t.ziu.seen = wordSequence h.value ∧ t.ziu.accepted = wordSequence h.value ∧
      t.ziu.dirty = s.ziu.dirty ∧ t.ziu.epoch = s.ziu.epoch ∧ t.ziu.swap = s.ziu.swap ∧
      (s.ziu.zone ≠ .idle → t.ziu.zone = s.ziu.zone ∧ t.ziu.result = .busy ∧ t.ziu.detail = 1) ∧
      (s.ziu.zone = .idle → 0 < s.ziu.resyncCount → t.ziu.zone = .idle ∧ t.ziu.result = .heldLines ∧
        t.ziu.detail = s.ziu.resyncCount) ∧
      (s.ziu.zone = .idle → s.ziu.resyncCount = 0 → s.ziu.epoch = 4294967295 → t.ziu.zone = .idle ∧ t.ziu.result = .epochLimit) ∧
      (s.ziu.zone = .idle → s.ziu.resyncCount = 0 → s.ziu.epoch ≠ 4294967295 → s.ziu.stagedCount = 0 →
        t.ziu.zone = .idle ∧ t.ziu.result = .noChange) ∧
      (s.ziu.zone = .idle → s.ziu.resyncCount = 0 → s.ziu.epoch ≠ 4294967295 → 0 < s.ziu.stagedCount →
        t.ziu.zone = .validating ∧ t.ziu.result = .pending ∧ t.ziu.declared = wordCount h.value) ∧
      t.tbp = { s.tbp with handed := s.tbp.handed.erase h } ∧ backgroundKept s t ∧
      t = { s with tmc := t.tmc, tbp := t.tbp, swq := t.swq, ziu := t.ziu, evu := t.evu }

/-- An ABORT word with a new sequence turns STAGED lines into RESYNC and starts a resync pass, or ends at once with none
to copy; in AWAIT_ACK and RESYNCING it is BUSY. -/
def Obligations.AbortIsDecidedByZoneState : Prop :=
  ∀ (s : State) (h : Handed), s.tbp.handed.find? (fun x => x.word.isZone) = some h → wordSequence h.value ≠ s.ziu.seen →
    wordCode h.value = 2 → s.plu.layout.isSome = true → (∀ e ∈ s.ziu.dirty, 1 ≤ e.1) →
    ∃ t, exec .abort s = .next t ∧ t.ziu.seen = wordSequence h.value ∧ t.ziu.accepted = wordSequence h.value ∧
      t.ziu.epoch = s.ziu.epoch ∧ t.ziu.swap = s.ziu.swap ∧
      (s.ziu.zone = .awaitAck ∨ s.ziu.zone = .resyncing →
        t.ziu.zone = s.ziu.zone ∧ t.ziu.dirty = s.ziu.dirty ∧ t.ziu.result = .busy ∧ t.ziu.detail = 2) ∧
      (s.ziu.zone = .idle ∨ s.ziu.zone = .validating →
        t.ziu.dirty = s.ziu.dirty.map (fun e => if e.2 = .staged then (e.1, .resync) else e) ∧
        (s.ziu.stagedCount + s.ziu.resyncCount = 0 → t.ziu.zone = .idle ∧ t.ziu.result = .aborted ∧ t.ziu.detail = 0) ∧
        (0 < s.ziu.stagedCount + s.ziu.resyncCount → t.ziu.zone = .resyncing ∧ t.ziu.result = .pending ∧
          t.ziu.aborting = true)) ∧
      backgroundKept s t ∧ t = { s with tmc := t.tmc, tbp := t.tbp, swq := t.swq, ziu := t.ziu, evu := t.evu }

/-- A zone command word with code NONE only records its sequence; one with a code above 2 is BAD_COMMAND with the code as
detail and changes no image. -/
def Obligations.OtherZoneWordsChangeNoImage : Prop :=
  (∀ (s : State) (h : Handed), s.tbp.handed.find? (fun x => x.word.isZone) = some h → wordSequence h.value ≠ s.ziu.seen →
    wordCode h.value = 0 → ∃ t, exec .zoneCommandNone s = .next t ∧ t.ziu = { s.ziu with seen := wordSequence h.value } ∧
      backgroundKept s t ∧ t = { s with tmc := t.tmc, tbp := t.tbp, swq := t.swq, ziu := t.ziu, evu := t.evu }) ∧
  (∀ (s : State) (h : Handed), s.tbp.handed.find? (fun x => x.word.isZone) = some h → wordSequence h.value ≠ s.ziu.seen →
    2 < wordCode h.value → ∃ t, exec .zoneBadCommand s = .next t ∧
      t.ziu = { s.ziu with
        seen := wordSequence h.value, result := .badCommand, detail := wordCode h.value, accepted := wordSequence h.value } ∧
      backgroundKept s t ∧ t = { s with tmc := t.tmc, tbp := t.tbp, swq := t.swq, ziu := t.ziu, evu := t.evu })

/-- VALIDATION_START asks for bank line 1 of the stage bank once no stage write is in flight; a validator read that meets an
uncorrectable error ends the commit with MEMORY_ERROR, with no flip. In the directory pass a line is read after the other up
to bank line 128; then the directory is judged by the checks COUNT, DIRECTORY, DUPLICATE, RANGE and OVERLAP in their order,
and the first that fails ends the commit with the lowest entry that fails it. A directory that passes leads to the first
member line of its first range, and with no zone declared to the flip. That COUNT is judged only after the whole directory has
been read is the model's reading (log entry 34). -/
def Obligations.ValidationStartsAndEndsOnError : Prop :=
  (∀ (s : State) (v : Validator) (l : Layout), s.ziu.validator = some v → s.ziu.zone = .validating → v.started = false →
    s.ziu.stageWrites = 0 → scrubInProgress s.tmc s.ziu.stageBank = false → s.plu.layout = some l →
    ∃ t, exec .validationStart s = .next t ∧ t.ziu = { s.ziu with validator := some { v with started := true } } ∧
      t.asked ⟨.validator v.run, l.bankLine s.ziu.stageBank 1 / 64⟩ ∧ backgroundKept s t ∧
      t = { s with tmc := t.tmc, swq := t.swq, ziu := t.ziu, evu := t.evu }) ∧
  (∀ (s : State) (p : InProgress) (v : Validator), s.tmc.inProgress = some p → p.access.kind = .validator v.run →
    s.ziu.validator = some v → p.uncorrectable = true → ∃ t, exec .validatorReadComplete s = .next t ∧
      t.ziu = { s.ziu with
        zone := .idle, validator := none, result := .memoryError, detail := v.line, accepted := s.ziu.started } ∧
      t.tmc.inProgress = none ∧ backgroundKept s t ∧
      t = { s with tmc := t.tmc, swq := t.swq, ziu := t.ziu, evu := t.evu }) ∧
  (∀ (s : State) (p : InProgress) (v : Validator) (l : Layout) (entries : List DirEntry), s.tmc.inProgress = some p →
    p.access.kind = .validator v.run → s.ziu.validator = some v → p.uncorrectable = false → v.range = none →
    s.plu.layout = some l → entries = v.entries ++ lineEntries p.data → ∃ t, exec .validatorReadComplete s = .next t ∧
      (v.line < 128 → t.ziu = { s.ziu with validator := some { v with line := v.line + 1, entries := entries } } ∧
        t.asked ⟨.validator v.run, l.bankLine s.ziu.stageBank (v.line + 1) / 64⟩) ∧
      (∀ r d, 128 ≤ v.line → directoryJudged s.ziu.declared entries r d → t.ziu = { s.ziu with
        zone := .idle, validator := none, result := r, detail := d, accepted := s.ziu.started }) ∧
      (∀ e, 128 ≤ v.line → directoryPasses s.ziu.declared entries → 0 < s.ziu.declared → entries[0]? = some e →
        t.ziu = { s.ziu with validator := some { v with entries := entries, line := memberLine e.start, range := some 0 } } ∧
        t.asked ⟨.validator v.run, l.bankLine s.ziu.stageBank (memberLine e.start) / 64⟩) ∧
      (128 ≤ v.line → directoryPasses s.ziu.declared entries → s.ziu.declared = 0 →
        t.ziu.swap = !s.ziu.swap ∧ t.ziu.epoch = s.ziu.epoch + 1 ∧ t.ziu.liveZones = 0 ∧ t.ziu.liveMembers = 0) ∧
      backgroundKept s t ∧ t = { s with tmc := t.tmc, swq := t.swq, ziu := t.ziu, blc := t.blc, evu := t.evu })

/-- In the member pass a line is read after the other to the end of a range, and then the ranges in their order. A member entry
of the range that is not valid ends the commit with MEMBER and its number. The read of the last member line flips: the swap flag
toggles and the epoch rises by 1 in one change, STAGED lines become RESYNC, the UP blades owe an acknowledgement within 500 ms, and
the image's figures become the live ones; with no blade UP and no fetch in flight against the old bank, AWAIT_ACK ends at once and the
resync pass has begun. -/
def Obligations.LastMemberLineFlips : Prop :=
  (∀ (s : State) (p : InProgress) (v : Validator) (i : Nat) (e : DirEntry), s.tmc.inProgress = some p →
    p.access.kind = .validator v.run → s.ziu.validator = some v → p.uncorrectable = false → v.range = some i →
    v.entries[i]? = some e → memberFailure e v.line p.data = none → memberLine (e.start + e.count - 1) ≤ v.line →
    i + 1 = s.ziu.declared → s.ziu.declared ≤ v.entries.length → upSlots s ≠ [] →
    ∃ t, exec .validatorReadComplete s = .next t ∧ t.ziu.swap = !s.ziu.swap ∧ t.ziu.epoch = s.ziu.epoch + 1 ∧
      t.ziu.dirty = s.ziu.dirty.map (fun e => if e.2 = .staged then (e.1, .resync) else e) ∧ t.ziu.zone = .awaitAck ∧
      t.ziu.ackSet = upSlots s ∧ t.ziu.ackAt = some (s.now + msec 500) ∧ t.ziu.liveZones = s.ziu.declared ∧
      t.ziu.liveMembers = memberTotal (v.entries.take s.ziu.declared) ∧ backgroundKept s t ∧
      t = { s with tmc := t.tmc, swq := t.swq, ziu := t.ziu, blc := t.blc, evu := t.evu }) ∧
  (∀ (s : State) (p : InProgress) (v : Validator) (i : Nat) (e : DirEntry) (l : Layout), s.tmc.inProgress = some p →
    p.access.kind = .validator v.run → s.ziu.validator = some v → p.uncorrectable = false → v.range = some i →
    v.entries[i]? = some e → memberFailure e v.line p.data = none → memberLine (e.start + e.count - 1) ≤ v.line →
    i + 1 = s.ziu.declared → s.ziu.declared ≤ v.entries.length → upSlots s = [] → s.ziu.inFlight.get s.ziu.liveBank = 0 →
    s.plu.layout = some l → sparseWf .clean s.ziu.dirty = true →
    ∃ t, exec .validatorReadComplete s = .next t ∧ t.ziu.swap = !s.ziu.swap ∧ t.ziu.epoch = s.ziu.epoch + 1 ∧
      t.ziu.dirty = s.ziu.dirty.map (fun e => if e.2 = .staged then (e.1, .resync) else e) ∧ t.ziu.ackSet = [] ∧ t.ziu.ackAt = none ∧
      passGoesOn s t l 1 false ∧ backgroundKept s t ∧
      t = { s with tmc := t.tmc, swq := t.swq, ziu := t.ziu, blc := t.blc, evu := t.evu }) ∧
  (∀ (s : State) (p : InProgress) (v : Validator) (i : Nat) (e : DirEntry) (l : Layout), s.tmc.inProgress = some p →
    p.access.kind = .validator v.run → s.ziu.validator = some v → p.uncorrectable = false → v.range = some i →
    v.entries[i]? = some e → s.plu.layout = some l → 129 ≤ v.line →
    (∀ m, lowest (memberFails e v.line p.data) m → ∃ t, exec .validatorReadComplete s = .next t ∧
      t.ziu = { s.ziu with zone := .idle, validator := none, result := .member, detail := m, accepted := s.ziu.started } ∧
      backgroundKept s t ∧ t = { s with tmc := t.tmc, swq := t.swq, ziu := t.ziu, evu := t.evu }) ∧
    ((∀ m, ¬memberFails e v.line p.data m) → v.line < memberLine (e.start + e.count - 1) →
      ∃ t, exec .validatorReadComplete s = .next t ∧ t.ziu = { s.ziu with validator := some { v with line := v.line + 1 } } ∧
        t.asked ⟨.validator v.run, l.bankLine s.ziu.stageBank (v.line + 1) / 64⟩ ∧ backgroundKept s t ∧
        t = { s with tmc := t.tmc, swq := t.swq, ziu := t.ziu, evu := t.evu }) ∧
    (∀ f, (∀ m, ¬memberFails e v.line p.data m) → memberLine (e.start + e.count - 1) ≤ v.line → i + 1 < s.ziu.declared →
      v.entries[i + 1]? = some f → ∃ t, exec .validatorReadComplete s = .next t ∧
        t.ziu = { s.ziu with validator := some { v with line := memberLine f.start, range := some (i + 1) } } ∧
        t.asked ⟨.validator v.run, l.bankLine s.ziu.stageBank (memberLine f.start) / 64⟩ ∧ backgroundKept s t ∧
        t = { s with tmc := t.tmc, swq := t.swq, ziu := t.ziu, evu := t.evu }))

/-- ACK_TIMEOUT forces the link of every blade that still owes an acknowledgement out of UP, and its blade to LOST or, on a
repeated loss, FAULTED. -/
def Obligations.AckTimeoutForcesBladesOff : Prop :=
  ∀ (s : State) (at0 : Nat), s.ziu.zone = .awaitAck → s.ziu.ackAt = some at0 → at0 ≤ s.now →
    ∃ t, exec .ackTimeout s = .next t ∧ t.ziu.ackSet = [] ∧ t.ziu.epoch = s.ziu.epoch ∧
      (∀ b ∈ s.ziu.ackSet, ((t.link b).state = .lost ∧ (t.blade b).state = .lost ∧ (t.blade b).cause = .epochTimeout) ∨
        ((t.link b).state = .down ∧ (t.blade b).state = .faulted ∧ (t.blade b).cause = .repeatedLoss)) ∧
      (∀ q, (t.port q).asks = (s.port q).asks) ∧ admissionFrame { s with ziu := t.ziu } t

/-- RESYNC_COPY_COMPLETE makes the copied line CLEAN, or error-held when its copy failed, and no other line changes. The pass goes on
to the copy of the next line in RESYNC, and with none left it ends: the zone state is IDLE, the last result is COMMITTED,
COMMITTED_WITH_ERRORS with the number of error-held lines, or after an ABORT ABORTED with that number, and the last accepted sequence
is that of the command that started the pass. That memory stays as it was rests on the model's choice that the copy acts at its GRANT (log entry 15). -/
def Obligations.ResyncCopySettlesItsLine : Prop :=
  ∀ (s : State) (p : InProgress) (line live : Nat), s.tmc.inProgress = some p → p.access.kind = .resync line live →
    s.ziu.copying = some line → s.tbp.heldWrites = [] → sparseWf .clean s.ziu.dirty = true →
    ∃ t, exec .resyncCopyComplete s = .next t ∧
      (∀ k, t.ziu.lineState k = if k = line then (if p.uncorrectable then .errorHeld else .clean) else s.ziu.lineState k) ∧
      (∀ l, s.ziu.zone = .resyncing → s.plu.layout = some l → passGoesOn s t l (line + 1) s.ziu.aborting) ∧
      t.ziu.epoch = s.ziu.epoch ∧ t.ziu.swap = s.ziu.swap ∧ backgroundKept s t ∧
      t = { s with tmc := t.tmc, tbp := t.tbp, swq := t.swq, ziu := t.ziu, evu := t.evu }

/-! ### Blade links -/

/-- A HELLO that passes its checks makes a waiting link and its blade UP; one that fails them is counted and leaves the
link waiting; one on an UP link is answered by a WELCOME and changes no timer. -/
def Obligations.HelloMakesTheLinkUp : Prop :=
  ∀ (b : Slot) (hdrSlot hdrTag rev bodySlot ports : Byte) (base : BitVec 16) (s : State),
    ((s.link b).state.waits = true → rev = 1#8 → hdrSlot.toNat = b.1 → bodySlot.toNat = b.1 →
      (ports = 24#8 ∨ ports = 32#8 ∨ ports = 48#8) → ∃ t, exec (.hello b hdrSlot hdrTag rev bodySlot ports base) s = .next t ∧
        (t.link b).state = .up ∧ (t.link b).portCount = some ports.toNat ∧ (t.link b).keepAt = some (s.now + sec 2) ∧
        (t.link b).helloAt = none ∧ (t.blade b).state = .up ∧ (t.blade b).portCount = some ports.toNat ∧
        (t.blade b).cause = .none ∧ (t.blade b).base = min 8000 base.toNat ∧ (t.blade b).powerEn = true ∧
        (∀ q, (t.port q).asks = (s.port q).asks) ∧ otherBladesKept s t b ∧ admissionFrame s t) ∧
    ((s.link b).state.waits = true → ¬(rev = 1#8 ∧ hdrSlot.toNat = b.1 ∧ bodySlot.toNat = b.1 ∧
      (ports = 24#8 ∨ ports = 32#8 ∨ ports = 48#8)) → (s.link b).errors < 65535 →
      ∃ t, exec (.hello b hdrSlot hdrTag rev bodySlot ports base) s = .next t ∧
        t.link b = { s.link b with errors := (s.link b).errors + 1 } ∧ (t.blade b).state = (s.blade b).state ∧ backgroundKept s t ∧
        t = { s with tmc := t.tmc, swq := t.swq, blc := t.blc, pau := t.pau, evu := t.evu }) ∧
    ((s.link b).state = .up → ∃ t, exec (.hello b hdrSlot hdrTag rev bodySlot ports base) s = .next t ∧
        ((t.link b).welcome = some s.ziu.epoch ∨ (t.link b).sending = some ⟨.welcome s.ziu.epoch, true⟩) ∧
        (t.link b).keepAt = (s.link b).keepAt ∧ backgroundKept s t ∧
        t = { s with tmc := t.tmc, swq := t.swq, blc := t.blc, evu := t.evu })

/-- A FETCH on a free tag of an UP link is bound to the live bank and epoch and counted in flight, outside HOLD and within
the window, and the read of each of its lines in the live bank is asked of the TMC; otherwise it is answered without lines and counts
nothing. On a link that waits for HELLO a FETCH on a free tag is answered NOT_READY. With all four tags occupied a FETCH is counted as
a link error and answered OVERRUN, occupying no tag, or discarded while an OVERRUN for its tag waits; on its own occupied tag it is
discarded and counted, with a LINK event. On a link that is DOWN or LOST it is discarded. -/
def Obligations.FetchBindsToTheLiveBank : Prop :=
  (∀ (b : Slot) (tag : FetchTag) (first : BitVec 16) (count : Byte) (s : State), (s.link b).state = .up →
    (s.link b).fetches.get tag = none → ∃ t, exec (.fetch b tag first count) s = .next t ∧
      (t.link b).keepAt = some (s.now + sec 2) ∧ (t.link b).errors = (s.link b).errors ∧
      (s.pbu.hold = false → 1 ≤ count.toNat → count.toNat ≤ 4 → 1 ≤ first.toNat → first.toNat + count.toNat ≤ 4096 →
        (t.link b).fetches.get tag = some ⟨first.toNat, count.toNat, some (s.ziu.liveBank, s.ziu.epoch), [], false⟩ ∧
        t.ziu = { s.ziu with inFlight := Vector.put s.ziu.inFlight s.ziu.liveBank (s.ziu.inFlight.get s.ziu.liveBank + 1) } ∧
        ∀ l i, s.plu.layout = some l → i < count.toNat →
          t.asked ⟨.fetch b tag i, l.bankLine s.ziu.liveBank (first.toNat + i) / 64⟩) ∧
      (s.pbu.hold = true → (t.link b).holdsData ⟨tag, s.ziu.epoch, .hold, []⟩ ∧ t.ziu = s.ziu) ∧
      (s.pbu.hold = false → (count.toNat = 0 ∨ 4 < count.toNat ∨ first.toNat = 0 ∨ 4096 < first.toNat + count.toNat) →
        (t.link b).holdsData ⟨tag, s.ziu.epoch, .range, []⟩ ∧ t.ziu = s.ziu) ∧
      backgroundKept s t ∧ t = { s with tmc := t.tmc, swq := t.swq, ziu := t.ziu, blc := t.blc, evu := t.evu }) ∧
  (∀ (b : Slot) (tag : FetchTag) (first : BitVec 16) (count : Byte) (s : State), (s.link b).state.waits = true →
    (s.link b).fetches.get tag = none → ∃ t, exec (.fetch b tag first count) s = .next t ∧
      (t.link b).holdsData ⟨tag, s.ziu.epoch, .notReady, []⟩ ∧
      (t.link b).fetches = Vector.put (s.link b).fetches tag (some ⟨first.toNat, count.toNat, none, [], false⟩) ∧
      (t.link b).errors = (s.link b).errors ∧ (t.link b).keepAt = (s.link b).keepAt ∧ (∀ c, c ≠ b → t.link c = s.link c) ∧
      backgroundKept s t ∧ t = { s with tmc := t.tmc, swq := t.swq, blc := t.blc, evu := t.evu }) ∧
  (∀ (b : Slot) (tag : FetchTag) (first : BitVec 16) (count : Byte) (s : State),
    (s.link b).state.waits = true ∨ (s.link b).state = .up → (∀ k, (s.link b).fetches.get k ≠ none) →
    ∃ t, exec (.fetch b tag first count) s = .next t ∧ (t.link b).errors = max (s.link b).errors (min 65535 ((s.link b).errors + 1)) ∧
      (t.link b).fetches = (s.link b).fetches ∧
      ((∀ d ∈ (s.link b).ready, d.tag = tag → d.status ≠ .overrun) → (t.link b).holdsData ⟨tag, s.ziu.epoch, .overrun, []⟩) ∧
      ((∃ d ∈ (s.link b).ready, d.tag = tag ∧ d.status = .overrun) →
        (t.link b).ready = (s.link b).ready ∧ (t.link b).sending = (s.link b).sending) ∧
      ((s.link b).state = .up → (t.link b).keepAt = some (s.now + sec 2)) ∧ (∀ c, c ≠ b → t.link c = s.link c) ∧
      backgroundKept s t ∧ t = { s with tmc := t.tmc, swq := t.swq, blc := t.blc, pau := t.pau, evu := t.evu }) ∧
  (∀ (b : Slot) (tag : FetchTag) (first : BitVec 16) (count : Byte) (s : State),
    (s.link b).state.waits = true ∨ (s.link b).state = .up → (∃ k, (s.link b).fetches.get k = none) →
    (s.link b).fetches.get tag ≠ none → ∃ t, exec (.fetch b tag first count) s = .next t ∧
      (t.link b).errors = max (s.link b).errors (min 65535 ((s.link b).errors + 1)) ∧
      (t.link b).fetches = (s.link b).fetches ∧ (t.link b).ready = (s.link b).ready ∧ (t.link b).sending = (s.link b).sending ∧
      ((s.link b).state = .up → (t.link b).keepAt = some (s.now + sec 2)) ∧ (∀ c, c ≠ b → t.link c = s.link c) ∧
      (s.plu.part = .armed → s.evu.intake.length < 32 → t.evu.intake = s.evu.intake ++
        [⟨(s.evu.sequence + 1) % 65536, s.timestamp, linkEvent b .fetchTagReuse 2 tag.1⟩]) ∧
      backgroundKept s t ∧ t = { s with tmc := t.tmc, swq := t.swq, blc := t.blc, pau := t.pau, evu := t.evu }) ∧
  (∀ (b : Slot) (tag : FetchTag) (first : BitVec 16) (count : Byte) (s : State),
    (s.link b).state = .down ∨ (s.link b).state = .lost → exec (.fetch b tag first count) s = .next s)

/-- FETCH_COMPLETION of a bound fetch builds its FETCH_DATA with the bound epoch, its lines or MEMORY, and the bank's count
falls; that of an abandoned read lowers the count alone. Where that leaves no fetch in flight against the old bank in AWAIT_ACK and no
blade owes an acknowledgement, AWAIT_ACK ends: the timer stops and the resync pass has begun. That memory stays as it was rests on the model's choice that a read acts at
its GRANT (log entry 15). -/
def Obligations.FetchCompletionAnswersWithTheBoundEpoch : Prop :=
  (∀ (s : State) (p : InProgress) (b : Slot) (tag : FetchTag) (i : Nat) (f : FetchSlot) (bank : Bank) (epoch : Nat),
    s.tmc.inProgress = some p → p.access.kind = .fetch b tag i → s.tmc.isLast p.access.kind = true →
    (s.link b).fetches.get tag = some f → f.bound = some (bank, epoch) → ∃ t, exec .fetchCompletion s = .next t ∧
      (t.link b).holdsData ⟨tag, epoch, if f.failed then .memory else .ok, if f.failed then [] else f.got⟩ ∧
      t.ziu.inFlight = Vector.put s.ziu.inFlight bank (s.ziu.inFlight.get bank - 1) ∧ awaitJudged s t ∧ backgroundKept s t ∧
      t = { s with tmc := t.tmc, swq := t.swq, ziu := t.ziu, blc := t.blc, evu := t.evu }) ∧
  (∀ (s : State) (p : InProgress) (bank : Bank), s.tmc.inProgress = some p → p.access.kind = .abandoned bank →
    ∃ t, exec .fetchCompletion s = .next t ∧ t.blc = s.blc ∧
      t.ziu.inFlight = Vector.put s.ziu.inFlight bank (s.ziu.inFlight.get bank - 1) ∧ awaitJudged s t ∧ backgroundKept s t ∧
      t = { s with tmc := t.tmc, swq := t.swq, ziu := t.ziu, blc := t.blc, evu := t.evu })

/-- A STATUS on an UP link hands its readings to the FTU with the time of delivery, a reading outside −40 to 125 °C as
127, and restarts the keepalive timer; on any other link it is discarded. With both readings in range the temperature is fresh, and
curve input, thermal state, latches and demand follow by R153, R154 and R156; a blade that enters HOT has its ports leave (R98). With
one out of range the temperature is not fresh and thermal state, latches and demand stay. -/
def Obligations.StatusIsHandedToTheFanUnit : Prop :=
  ∀ (b : Slot) (inlet hotspot : Byte) (s : State),
    ((s.link b).state = .up → s.linkFollows b → ∃ t, exec (.status b inlet hotspot) s = .next t ∧
      (t.ftu.temps.get b).inlet = some (if -40 ≤ inlet.toInt ∧ inlet.toInt ≤ 125 then inlet.toInt else 127) ∧
      (t.ftu.temps.get b).hotspot = some (if -40 ≤ hotspot.toInt ∧ hotspot.toInt ≤ 125 then hotspot.toInt else 127) ∧
      (t.ftu.temps.get b).taken = s.now ∧ (t.ftu.temps.get b).freshAt = some (s.now + sec 3) ∧
      (-40 ≤ inlet.toInt → inlet.toInt ≤ 125 → -40 ≤ hotspot.toInt → hotspot.toInt ≤ 125 →
        temperatureFollows s t b inlet.toInt hotspot.toInt s.plu.inUse ∧ heatFollows s t b) ∧
      (inlet.toInt < -40 ∨ 125 < inlet.toInt ∨ hotspot.toInt < -40 ∨ 125 < hotspot.toInt → (t.ftu.temps.get b).fresh = false ∧
        (t.ftu.temps.get b).thermal = (s.ftu.temps.get b).thermal ∧ (t.ftu.temps.get b).latches = (s.ftu.temps.get b).latches ∧
        (t.ftu.temps.get b).demand = (s.ftu.temps.get b).demand) ∧
      (∀ c, c ≠ b → t.ftu.temps.get c = s.ftu.temps.get c) ∧
      (t.link b).state = .up ∧ (t.link b).keepAt = some (s.now + sec 2) ∧ (∀ q, (t.port q).asks = (s.port q).asks) ∧
      otherBladesKept s t b ∧ t.blade b = s.blade b ∧ admissionFrame { s with ftu := t.ftu } t) ∧
    ((s.link b).state ≠ .up → exec (.status b inlet hotspot) s = .next s)

/-- A PORT_NOTE within the link's port count records the port's optic class; one beyond it, or with a class above 3, is
counted; both restart the keepalive timer. -/
def Obligations.PortNoteRecordsTheOptic : Prop :=
  ∀ (b : Slot) (hdrTag port opticClass : Byte) (n : Nat) (s : State), (s.link b).state = .up → (s.link b).portCount = some n →
    (∀ (hp : port.toNat < 48) (hc : opticClass.toNat < 4), port.toNat < n → ∃ t, exec (.portNote b hdrTag port opticClass) s = .next t ∧
      (t.port ⟨b, ⟨port.toNat, hp⟩⟩).optic = some ⟨opticClass.toNat, hc⟩ ∧
      (∀ q, q ≠ (⟨b, ⟨port.toNat, hp⟩⟩ : PortRef) → (t.port q).asks = (s.port q).asks) ∧
      ((s.blade b).state ≠ .waitPower → (t.link b).keepAt = some (s.now + sec 2)) ∧ otherBladesKept s t b ∧ admissionFrame s t) ∧
    ((48 ≤ port.toNat ∨ n ≤ port.toNat ∨ 4 ≤ opticClass.toNat) → (s.link b).errors < 65535 →
      ∃ t, exec (.portNote b hdrTag port opticClass) s = .next t ∧ (t.link b).errors = (s.link b).errors + 1 ∧
        (t.link b).keepAt = some (s.now + sec 2) ∧ (∀ q, t.port q = s.port q) ∧ backgroundKept s t ∧
        t = { s with tmc := t.tmc, swq := t.swq, blc := t.blc, pau := t.pau, evu := t.evu })

/-- An ORDER_ACK for an outstanding tag decides the port's state. ENABLE or RECONFIG answered DONE: a port no longer wanted, or
one with a leaving flag, is GOING_DOWN with the cause; a port that is wanted as granted is ONLINE in HOLD or where projected draw
fits A, computed afresh, and otherwise ONLINE or shed. REFUSED: an ENABLE leaves the port OFFLINE, a RECONFIG sends it GOING_DOWN,
both with FE_REFUSED. DISABLE, DONE or REFUSED: an unwanted port is OFFLINE; a wanted one is in SHED with its cause POWER or THERMAL
(no restore due at once), OFFLINE with FE_REFUSED, or, with cause REQUEST, asks for admission again. A tag with no order outstanding
is counted as a link error. -/
def Obligations.OrderAckDecidesThePort : Prop :=
  (∀ (b : Slot) (tag : OrderTag) (s : State) (o : OutOrder) (p : PortRef) (c : PortConfig), (s.link b).state = .up →
    (s.link b).orders.get tag = some o → p = ⟨b, o.order.port⟩ → s.idlePort p → (s.port p).granted = some c →
    ((s.port p).state = .goingUp → o.order.action = .enable ∨ o.order.action = .reconfig →
      ∃ t, exec (.orderAck b (BitVec.ofNat 8 tag.1) .done) s = .next t ∧
        ((s.port p).desired = false → (t.port p).state = .goingDown ∧ (t.port p).cause = .request) ∧
        ((s.port p).desired = true → (s.port p).leaving ≠ .clear →
          (t.port p).state = .goingDown ∧ (t.port p).cause = (s.port p).leaving.cause) ∧
        ((s.port p).desired = true → (s.port p).leaving = .clear → (s.port p).request = some c →
          ((t.port p).state = .online ∨ ((t.port p).state = .goingDown ∧ (t.port p).cause = .power)) ∧
          (s.pbu.hold = true ∨ s.projected ≤ (computeFigures s).available → (t.port p).state = .online)) ∧
        (((s.port p).desired = true → (s.port p).leaving = .clear → (s.port p).request = some c) → (t.port p).granted = some c) ∧
        (∀ q, (t.port q).asks = (s.port q).asks) ∧ admissionFrame s t) ∧
    ((s.port p).state = .goingUp → o.order.action = .enable → ∃ t, exec (.orderAck b (BitVec.ofNat 8 tag.1) .refused) s = .next t ∧
        (t.port p).state = .offline ∧ (t.port p).cause = .feRefused ∧ (t.port p).granted = none ∧
        (∀ q, (t.port q).asks = (s.port q).asks) ∧ admissionFrame s t) ∧
    ((s.port p).state = .goingUp → o.order.action = .reconfig → ∃ t, exec (.orderAck b (BitVec.ofNat 8 tag.1) .refused) s = .next t ∧
        (t.port p).state = .goingDown ∧ (t.port p).cause = .feRefused ∧ (t.port p).granted = some c ∧
        (∀ q, (t.port q).asks = (s.port q).asks) ∧ admissionFrame s t) ∧
    (∀ r, (s.port p).state = .goingDown → o.order.action = .disable →
      ∃ t, exec (.orderAck b (BitVec.ofNat 8 tag.1) r) s = .next t ∧
        ((s.port p).desired = false → (t.port p).state = .offline ∧
          (t.port p).cause = .request ∧ (t.port p).granted = none) ∧
        ((s.port p).desired = true → (s.port p).cause = .power ∨ (s.port p).cause = .thermal →
          s.pbu.hold = true ∨ s.pbu.holdoffAt ≠ none ∨ s.hot b = true →
          (t.port p).state = .shed ∧ (t.port p).cause = (s.port p).cause ∧ (t.port p).granted = some c) ∧
        ((s.port p).desired = true → (s.port p).cause = .feRefused → (t.port p).state = .offline ∧
          (t.port p).cause = .feRefused ∧ (t.port p).granted = none) ∧
        (∀ d, (s.port p).desired = true → (s.port p).cause = .request → (s.port p).request = some d → d.xd = false →
          (t.port p).state = .goingUp ∨ (t.port p).state = .waitLicense ∨ (t.port p).state = .waitPower ∨ (t.port p).state = .shed) ∧
        (∀ q, (t.port q).asks = (s.port q).asks) ∧ admissionFrame s t)) ∧
  (∀ (b : Slot) (tag : Byte) (r : OrderResult) (s : State), (s.link b).state = .up → (s.link b).errors < 65535 →
    (∀ k : OrderTag, k.1 = tag.toNat → (s.link b).orders.get k = none) → ∃ t, exec (.orderAck b tag r) s = .next t ∧
      t.link b = { s.link b with errors := (s.link b).errors + 1, keepAt := some (s.now + sec 2) } ∧
      (∀ c, c ≠ b → t.link c = s.link c) ∧ (∀ q, t.port q = s.port q) ∧
      (s.plu.part = .armed → s.evu.intake.length < 32 → t.evu.intake = s.evu.intake ++
        [⟨(s.evu.sequence + 1) % 65536, s.timestamp, linkEvent b .unknownOrderTag 5 tag.toNat⟩]) ∧
      backgroundKept s t ∧ t = { s with tmc := t.tmc, swq := t.swq, blc := t.blc, pau := t.pau, evu := t.evu })

/-- An EPOCH_ACK with the live epoch takes its blade out of the acknowledgement set in AWAIT_ACK; the timer stops with the last blade,
and where no fetch is in flight against the old bank either, AWAIT_ACK ends and the resync pass has begun. Any other EPOCH_ACK only
restarts the keepalive timer. -/
def Obligations.EpochAckLeavesTheSet : Prop :=
  ∀ (b : Slot) (epoch : BitVec 32) (s : State), (s.link b).state = .up → ∃ t, exec (.epochAck b epoch) s = .next t ∧
    (t.link b).keepAt = some (s.now + sec 2) ∧
    (s.ziu.zone = .awaitAck → epoch.toNat = s.ziu.epoch → t.ziu.ackSet = s.ziu.ackSet.filter (fun c => decide (c ≠ b))) ∧
    (s.ziu.zone = .awaitAck → epoch.toNat = s.ziu.epoch → b ∈ s.ziu.ackSet → awaitJudged s t ∧ (t.ziu.ackSet = [] → t.ziu.ackAt = none) ∧
      (t.ziu.ackSet ≠ [] → t.ziu = { s.ziu with ackSet := t.ziu.ackSet })) ∧
    (¬(s.ziu.zone = .awaitAck ∧ epoch.toNat = s.ziu.epoch ∧ b ∈ s.ziu.ackSet) → t.ziu = s.ziu) ∧
    t.ziu.epoch = s.ziu.epoch ∧ backgroundKept s t ∧
      t = { s with tmc := t.tmc, swq := t.swq, ziu := t.ziu, blc := t.blc, evu := t.evu }

/-- A loss of an UP link, by RESET, by the keepalive or by an order's deadline, and a return wait that runs out: the link
is LOST for 1 s and the blade LOST with the cause, or on the third loss within 60 s the link is DOWN and the blade FAULTED
without power; in both cases no fetch and no order is left. -/
def Obligations.LossOfALinkLosesTheBlade : Prop :=
  ∀ (b : Slot) (c : Instr) (cause : BladeCause) (s : State),
    (c = .reset b ∧ cause = .engineReset ∧ (s.link b).state = .up) ∨
    (c = .keepaliveExpiry b ∧ cause = .keepalive ∧ (s.link b).state = .up ∧ ranOut (s.link b).keepAt s.now = true) ∨
    (∃ tag o d, c = .orderDeadline b tag ∧ cause = .orderTimeout ∧ (s.link b).state = .up ∧
      (s.link b).orders.get tag = some o ∧ o.deadline = some d ∧ d ≤ s.now) ∨
    (c = .helloWaitExpiry b ∧ cause = .noHello ∧ (s.link b).state = .returnWait ∧ ranOut (s.link b).helloAt s.now = true) →
    ∃ t, exec c s = .next t ∧ (∀ tag, (t.link b).fetches.get tag = none) ∧ (∀ tag, (t.link b).orders.get tag = none) ∧
      (t.link b).queue = [] ∧ b ∉ t.ziu.ackSet ∧
      ((s.link b).repeatedLoss s.now = false → (t.link b).state = .lost ∧ (t.link b).holdoffAt = some (s.now + sec 1) ∧
        (t.blade b).state = .lost ∧ (t.blade b).cause = cause) ∧
      ((s.link b).repeatedLoss s.now = true → (t.link b).state = .down ∧ (t.link b).losses = [] ∧
        (t.blade b).state = .faulted ∧ (t.blade b).cause = .repeatedLoss ∧ (t.blade b).powerEn = false ∧ (t.blade b).base = 0) ∧
      (∀ q, (t.port q).asks = (s.port q).asks) ∧ otherBladesKept s t b ∧ admissionFrame { s with ziu := t.ziu } t

/-- The expiry of the LOST holdoff begins a return wait of 10 s; the expiry of a first wait makes the link DOWN and the
blade FAULTED with HELLO_TIMEOUT, its power off. At the end of a transmission a FETCH_DATA other than OVERRUN frees its tag and
an ORDER starts its 250 ms deadline; a waiting WELCOME goes next, and an EPOCH notice goes ahead of orders and fetch data. -/
def Obligations.LinkWaitsAndTransmissionsEnd : Prop :=
  (∀ (b : Slot) (s : State), (s.link b).state = .lost → ranOut (s.link b).holdoffAt s.now = true →
    ∃ t, exec (.lostHoldoffExpiry b) s = .next t ∧
      t.link b = { s.link b with state := .returnWait, holdoffAt := none, helloAt := some (s.now + sec 10) } ∧
      (∀ c, c ≠ b → t.link c = s.link c) ∧ backgroundKept s t ∧
        t = { s with tmc := t.tmc, swq := t.swq, blc := t.blc, evu := t.evu }) ∧
  (∀ (b : Slot) (s : State), (s.link b).state = .firstWait → ranOut (s.link b).helloAt s.now = true →
    ∃ t, exec (.helloWaitExpiry b) s = .next t ∧ (t.link b).state = .down ∧ (t.link b).losses = [] ∧
      (t.blade b).state = .faulted ∧ (t.blade b).cause = .helloTimeout ∧ (t.blade b).powerEn = false ∧ (t.blade b).base = 0 ∧
      (∀ q, (t.port q).asks = (s.port q).asks) ∧ otherBladesKept s t b ∧ admissionFrame { s with ziu := t.ziu } t) ∧
  (∀ (b : Slot) (s : State) (m : Sending), (s.link b).sending = some m → ∃ t, exec (.transmissionComplete b) s = .next t ∧
    (∀ d, m = ⟨.fetchData d, true⟩ → d.status ≠ .overrun → (t.link b).fetches.get d.tag = none) ∧
    (∀ tag o x, m = ⟨.order tag o, true⟩ → (s.link b).orders.get tag = some x →
      (t.link b).orders.get tag = some { x with deadline := some (s.now + msec 250) }) ∧
    (∀ e, (s.link b).state.sends = true → (s.link b).welcome = some e →
      (t.link b).sending = some ⟨.welcome e, true⟩ ∧ (t.link b).welcome = none) ∧
    (∀ e, (s.link b).state.sends = true → (s.link b).welcome = none → (s.link b).notice = some e →
      (t.link b).sending = some ⟨.epoch e, true⟩ ∧ (t.link b).notice = none) ∧
    (∀ c, c ≠ b → t.link c = s.link c) ∧ backgroundKept s t ∧ t = { s with tmc := t.tmc, swq := t.swq, blc := t.blc, evu := t.evu })

/-- A message that fails a reception check, on a link that is not DOWN, is counted once and restarts no timer; every failure but
that of the CRC raises a LINK event. Bytes that are laid out as Table 11.7-1 gives them, little-endian and with their CRC,
pass the checks, spell the message, and are taken as it. That the last two bytes are the CRC, and how a byte count that is not
that of the length field fails, are the model's choices (log entry 40). -/
def Obligations.InvalidMessageIsCounted : Prop :=
  (∀ (b : Slot) (raw : List Byte) (f : ReceptionFailure) (s : State), receptionFailure b raw = some f → (s.link b).state ≠ .down →
    (s.link b).errors < 65535 → ∃ t, exec (.invalidMessage b raw) s = .next t ∧
      t.link b = { s.link b with errors := (s.link b).errors + 1 } ∧ (∀ c, c ≠ b → t.link c = s.link c) ∧
      (∀ r, f.reason = some r → s.plu.part = .armed → s.evu.intake.length < 32 →
        t.evu.intake = s.evu.intake ++ [⟨(s.evu.sequence + 1) % 65536, s.timestamp,
          linkEvent b r (raw.getD 0 0#8).toNat (raw.getD 4 0#8).toNat⟩]) ∧
      (f = .crc → t.evu.intake = s.evu.intake) ∧ backgroundKept s t ∧
      t = { s with tmc := t.tmc, swq := t.swq, blc := t.blc, pau := t.pau, evu := t.evu }) ∧
  (∀ (b : Slot) (m : EngineMessage) (s : State), receptionFailure b (m.wire b) = none ∧ EngineMessage.ofBytes (m.wire b) = some m ∧
    exec (.invalidMessage b (m.wire b)) s = exec (m.command b) s)

/-! ### Blades and fabric ports -/

/-- A blade seated in an ABSENT slot settles for 1 s; one pulled is ABSENT with nothing charged and its power off, its
thermal record at the reset values and the optic classes of its ports unknown. The ports of a slot whose blade is seated stay as they
are; every port of one whose blade is pulled is OFFLINE with no units and no draw. Both rest on the invariant that the waiting lists hold
waiting ports, each once, which every step keeps. -/
def Obligations.BladeSeatedAndPulled : Prop :=
  (∀ (b : Slot) (s : State), s.pins.bladePresent.get b = false → (s.blade b).state = .absent →
    ∃ t, exec (.bladeInserted b) s = .next t ∧ t.pins = { s.pins with bladePresent := Vector.put s.pins.bladePresent b true } ∧
      (t.blade b).state = .settling ∧
      (t.blade b).debounceAt = some (s.now + sec 1) ∧ (t.blade b).powerEn = false ∧ otherBladesKept s t b ∧
      (s.waitsMatch → (∀ i, (s.port ⟨b, i⟩).state = .offline) → ∀ i, t.port ⟨b, i⟩ = s.port ⟨b, i⟩) ∧
      (∀ q, (t.port q).asks = (s.port q).asks) ∧ admissionFrame { s with pins := t.pins, ftu := t.ftu } t) ∧
  (∀ (b : Slot) (s : State), s.pins.bladePresent.get b = true → ∃ t, exec (.bladeRemoved b) s = .next t ∧
    t.pins = { s.pins with bladePresent := Vector.put s.pins.bladePresent b false } ∧
    (t.blade b).state = .absent ∧ (t.blade b).cause = .removed ∧ (t.blade b).base = 0 ∧
    (t.blade b).powerEn = false ∧ (t.blade b).portCount = none ∧ t.ftu.temps.get b = BladeTemp.reset ∧
    (s.waitsMatch → ∀ i, (t.port ⟨b, i⟩).state = .offline ∧ (t.port ⟨b, i⟩).units = 0 ∧ (t.port ⟨b, i⟩).xdUnits = 0 ∧
      (t.port ⟨b, i⟩).draw t.plu.inUse = 0) ∧
    (∀ i, (t.port ⟨b, i⟩).optic = none) ∧ otherBladesKept s t b ∧
    (∀ q, q.slot ≠ b → (t.port q).asks = (s.port q).asks) ∧ admissionFrame { s with pins := t.pins, ftu := t.ftu, ziu := t.ziu } t) ∧
  (∀ s t : State, s.waitsMatch → step s = .next t → t.waitsMatch)

/-- A settled blade passes to the blade power check of an ARMED part: POWERING with the default base draw charged and its
link waiting for HELLO, or WAIT_POWER; a part that is not ARMED keeps it. LINK_ERROR_COUNT_WRITE has the two bytes of the changed
count written to the blade's figures in status page line 40: the write waits, or an SWQ entry holds them. -/
def Obligations.SettledBladeIsPoweredOrWaits : Prop :=
  (∀ (b : Slot) (s : State), (s.blade b).state = .settling → ranOut (s.blade b).debounceAt s.now = true →
    (s.link b).state = .down → ∃ t, exec (.debounceExpiry b) s = .next t ∧
      (s.plu.part ≠ .armed → (t.blade b).state = .settling ∧ (t.blade b).debounced = true) ∧
      (s.plu.part = .armed → s.bladeFits = true → (t.blade b).state = .powering ∧ (t.blade b).powerEn = true ∧
        (t.blade b).base = s.plu.inUse.defaultBase ∧ (t.link b).state = .firstWait ∧
        (t.link b).helloAt = some (s.now + sec 10)) ∧
      (s.plu.part = .armed → s.bladeFits = false → (t.blade b).state = .waitPower ∧ (t.blade b).powerEn = false) ∧
      (∀ q, (t.port q).asks = (s.port q).asks) ∧ otherBladesKept s t b ∧ admissionFrame s t) ∧
  (∀ (b : Slot) (s : State), ranOut (s.blade b).errorsAt s.now = true → s.linesWhole → ∃ t, exec (.linkErrorCountWrite b) s = .next t ∧
    t.blade b = { s.blade b with errorsAt := none } ∧
    writeGiven s t .pau (.bladeErrors b) 40 (maskAt (8 * b.1 + 6) (leBytes 2 (s.link b).errors)) ∧
    (∀ c, c ≠ b → t.blade c = s.blade c) ∧ (∀ q, t.port q = s.port q) ∧ backgroundKept s t ∧
    t = { s with tmc := t.tmc, swq := t.swq, pau := t.pau, evu := t.evu })

/-- A request word with a new sequence is decided by the checks of R93 and by Table 5.2-2. ON for an OFFLINE port of an UP blade is
admitted: with no XD_PORTS unit free it is OFFLINE with NO_XD_LICENSE, else with a licence check that fails it joins its licence
queue, else with a power check that fails it joins the power wait list, and else it is charged and GOING_UP, or SHED with THERMAL
on a HOT blade. ON for an ONLINE port with another configuration is a reconfiguration by R97: applied with a RECONFIG, or refused with
SPEED_HELD; ON with the same configuration takes the priority alone, and for a port that waits it keeps its place, or moves to its
new one. OFF sends an ONLINE port GOING_DOWN and makes a waiting or SHED port OFFLINE. A port beyond the known count is refused with
NO_SUCH_PORT, and on a blade that is not UP the request is stored, an OFFLINE port takes BLADE_DOWN and a SHED one given OFF is
OFFLINE. A malformed word is refused with BAD_REQUEST in every port state: request, state, granted configuration and leaving flag
stay, with its queue or list, and so does the cause in GOING_DOWN and SHED; a shed selection that an arbitrary state makes due at once
is ruled out where the port could be shed. That the priority is in use at once, and that the DISABLE of a port given
OFF carries its granted configuration, are the model's choices (log entries 97 and 104); that a waiting port given another configuration is OFFLINE
between its leaving and its admission is the model's reading (log entry 49). -/
def Obligations.RequestWordsMoveThePort : Prop :=
  ∀ (s : State) (h : Handed) (p : PortRef), s.tbp.handed.find? (fun x => x.word.isRequest) = some h → h.word = .portRequest p →
    (RequestWord.ofBits h.value).sequence ≠ (s.port p).lastSeq →
    (∀ (c : PortConfig) (q : Fin 8), (RequestWord.ofBits h.value).form = .on c q →
      ∃ t, exec .portRequestOn s = .next t ∧ requestStored s t h p true (some c) q ∧
        (s.beyondCount p = true → (s.port p).state = .offline → (t.port p).state = .offline ∧ (t.port p).cause = .noSuchPort) ∧
        (s.beyondCount p = false → (s.blade p.slot).state ≠ .up → (t.port p).state = (s.port p).state ∧
          (t.port p).cause = if (s.port p).state = .offline then .bladeDown else (s.port p).cause) ∧
        (s.beyondCount p = false → (s.blade p.slot).state = .up →
          ((s.port p).state = .offline → admissionDecides s t p c q) ∧
          ((s.port p).state = .waitLicense → s.waitsMatch → (s.port p).request = some c →
            t.port p = { s.port p with lastSeq := (t.port p).lastSeq, desired := true, priority := q } ∧
            t.queue p.slot = s.queue p.slot) ∧
          ((s.port p).state = .waitLicense → s.waitsMatch → (s.port p).request ≠ some c → c.xd = false →
            (t.port p).state ≠ .offline ∧ ((t.port p).state = .waitLicense → ∃ e ∈ t.queue p.slot, e.port = p.port ∧ e.units = c.units)) ∧
          ((s.port p).state = .waitPower → s.waitsMatch → (s.port p).request = some c → (∃ e ∈ s.pbu.waitList, e.port = p) →
            (t.port p).state = .waitPower ∧ (∀ e ∈ s.pbu.waitList, e.port = p → { e with priority := q } ∈ t.pbu.waitList) ∧
            ∀ e, e.port ≠ p → (e ∈ t.pbu.waitList ↔ e ∈ s.pbu.waitList)) ∧
          ((s.port p).state = .waitPower → s.waitsMatch → (s.port p).request ≠ some c → c.xd = false → (t.port p).state ≠ .offline) ∧
          ((s.port p).state = .goingUp ∨ (s.port p).state = .goingDown → (t.port p).state = (s.port p).state ∧
            (t.port p).granted = (s.port p).granted) ∧
          (∀ g, (s.port p).state = .online → s.waitsMatch → (s.port p).granted = some g → reconfigurationDecides s t p g c) ∧
          (∀ g, (s.port p).state = .shed → s.waitsMatch → (s.port p).granted = some g → (t.port p).state = .shed ∧
            (t.port p).granted = some g ∧ (t.port p).cause = (s.port p).cause))) ∧
    ((RequestWord.ofBits h.value).form = .off →
      ∃ t, exec .portRequestOff s = .next t ∧ requestStored s t h p false (s.port p).request (s.port p).priority ∧
        (s.beyondCount p = true → (s.port p).state = .offline → (t.port p).state = .offline ∧ (t.port p).cause = .noSuchPort) ∧
        (s.beyondCount p = false → (s.port p).state = .shed → s.waitsMatch → (t.port p).state = .offline ∧ (t.port p).cause = .request ∧
          (t.port p).granted = none) ∧
        (s.beyondCount p = false → (s.blade p.slot).state ≠ .up → (s.port p).state ≠ .shed → (t.port p).state = (s.port p).state ∧
          (t.port p).cause = if (s.port p).state = .offline then .bladeDown else (s.port p).cause) ∧
        (s.beyondCount p = false → (s.blade p.slot).state = .up → s.waitsMatch →
          ((s.port p).state = .waitLicense ∨ (s.port p).state = .waitPower → (t.port p).state = .offline ∧
            (t.port p).cause = .request ∧ (∀ e ∈ t.queue p.slot, e.port ≠ p.port) ∧ ∀ e ∈ t.pbu.waitList, e.port ≠ p) ∧
          ((s.port p).state = .online → (t.port p).state = .goingDown ∧ (t.port p).cause = .request ∧
            ∀ g, (s.port p).granted = some g → (s.link p.slot).state = .up → (t.link p.slot).holdsOrder ⟨p.port, .disable, g⟩) ∧
          ((s.port p).state = .offline ∨ (s.port p).state = .goingUp ∨ (s.port p).state = .goingDown →
            (t.port p).state = (s.port p).state ∧ (t.port p).cause = (s.port p).cause))) ∧
    ((RequestWord.ofBits h.value).form = .off → s.beyondCount p = false → (s.blade p.slot).state = .up → (s.port p).state = .online →
      s.idlePort p → ∃ t, exec .portRequestOff s = .next t ∧ (t.port p).state = .goingDown ∧ (t.port p).cause = .request ∧
        requestStored s t h p false (s.port p).request (s.port p).priority) ∧
    ((RequestWord.ofBits h.value).form = .invalid →
      ∃ t, exec .portRequestInvalid s = .next t ∧ requestStored s t h p (s.port p).desired (s.port p).request (s.port p).priority ∧
        (∀ b, t.queue b = s.queue b) ∧ t.pbu.waitList = s.pbu.waitList ∧
        (¬s.shedCandidate p ∨ s.pbu.hold = true ∨ s.projected ≤ (computeFigures s).available → t.port p = { s.port p with
          lastSeq := (RequestWord.ofBits h.value).sequence
          cause := if (s.port p).state = .goingDown ∨ (s.port p).state = .shed then (s.port p).cause else .badRequest }))

/-! ### Licences -/

/-- SUBMIT queues an EMPTY or DONE token slot behind the others and answers BUSY to a slot in hand; SUBMIT_NONE only records
its sequence; the head of the queue is checked when no slot is in hand. -/
def Obligations.SubmissionsAreQueuedAndChecked : Prop :=
  (∀ (s : State) (h : Handed) (k : TokenIx), s.tbp.handed.find? (fun x => x.word.isSubmit) = some h → h.word = .tokenSubmit k →
    wordSequence h.value ≠ (s.lu.slots.get k).seen → wordCode h.value = 1 → ∃ t, exec .submit s = .next t ∧
      ((s.lu.slots.get k).state = .empty ∨ (s.lu.slots.get k).state = .done →
        t.lu.slots.get k = { s.lu.slots.get k with state := .queued, seen := wordSequence h.value, current := wordSequence h.value } ∧
        t.lu.fifo = s.lu.fifo ++ [k]) ∧
      (¬((s.lu.slots.get k).state = .empty ∨ (s.lu.slots.get k).state = .done) →
        t.lu.slots.get k = { s.lu.slots.get k with seen := wordSequence h.value, busySeq := wordSequence h.value } ∧
        t.lu.fifo = s.lu.fifo) ∧
      (∀ j, j ≠ k → t.lu.slots.get j = s.lu.slots.get j) ∧ backgroundKept s t ∧
        t = { s with tmc := t.tmc, tbp := { s.tbp with handed := s.tbp.handed.erase h }, swq := t.swq, lu := t.lu, evu := t.evu }) ∧
  (∀ (s : State) (h : Handed) (k : TokenIx), s.tbp.handed.find? (fun x => x.word.isSubmit) = some h → h.word = .tokenSubmit k →
    wordSequence h.value ≠ (s.lu.slots.get k).seen → wordCode h.value ≠ 1 → ∃ t, exec .submitNone s = .next t ∧
      t.lu = { s.lu with slots := Vector.put s.lu.slots k { s.lu.slots.get k with seen := wordSequence h.value } } ∧
        backgroundKept s t ∧
        t = { s with tmc := t.tmc, tbp := { s.tbp with handed := s.tbp.handed.erase h }, swq := t.swq, lu := t.lu, evu := t.evu }) ∧
  (∀ (s : State) (k : TokenIx) (rest : List TokenIx) (l : Layout), s.lu.fifo = k :: rest → s.lu.occupied = false → s.plu.layout = some l →
    ∃ t, exec .tokenCheckStart s = .next t ∧ t.lu.fifo = rest ∧ (t.lu.slots.get k).state = .checking ∧
      t.asked ⟨.token k, l.licence / 64 + k.1⟩ ∧ backgroundKept s t ∧
        t = { s with tmc := t.tmc, swq := t.swq, lu := t.lu, evu := t.evu })

/-- TOKEN_READ_COMPLETE decides the token by the checks of Table 6.6-1 in their order: a failure leaves the entitlements and floors, a
token at the floor reinstates its units at once, one above it enters PROGRAMMING for 4 ms. The slot shows the token's feature, units
and sequence as read. That a MEMORY_ERROR keeps the slot's feature, units and sequence, and gives as its detail the byte offset of the
line, is the model's choice (log entry 53); R115 says only the line's offset. The serial and the key are constants of the part, left
open (log entry 7). -/
def Obligations.TokenIsDecidedByItsChecks : Prop :=
  ∀ (s : State) (p : InProgress) (k : TokenIx), s.tmc.inProgress = some p → p.access.kind = .token k →
    (s.lu.slots.get k).state = .checking → ∃ t, exec .tokenReadComplete s = .next t ∧
      (p.uncorrectable = true → t.lu.slots.get k = { s.lu.slots.get k with
        state := .done, result := .memoryError, detail := 64 * p.access.line, resultSeq := (s.lu.slots.get k).current } ∧
        (∀ f, t.lu.feature f = s.lu.feature f)) ∧
      (∀ r d, p.uncorrectable = false → tokenFails s p.data r d →
        (t.lu.slots.get k).state = .done ∧ (t.lu.slots.get k).result = r ∧ (t.lu.slots.get k).detail = d ∧
        (t.lu.slots.get k).resultSeq = (s.lu.slots.get k).current ∧ ∀ f, t.lu.feature f = s.lu.feature f) ∧
      (∀ f, p.uncorrectable = false → tokenPasses s p.data f → tokenField p.data 4 4 = (s.lu.feature f).floor →
        (t.lu.slots.get k).state = .done ∧ (t.lu.slots.get k).result = .reinstated ∧
        (t.lu.slots.get k).detail = tokenField p.data 2 2 ∧ (t.lu.slots.get k).resultSeq = (s.lu.slots.get k).current ∧
        t.lu.feature f = { s.lu.feature f with entitlement := tokenField p.data 2 2, reinstated := true } ∧
        ∀ g, g ≠ f → t.lu.feature g = s.lu.feature g) ∧
      (∀ f, p.uncorrectable = false → tokenPasses s p.data f → (s.lu.feature f).floor < tokenField p.data 4 4 →
        (t.lu.slots.get k).state = .programming ∧ (∀ g, t.lu.feature g = s.lu.feature g) ∧
        t.lu.program = some ⟨k, f, tokenField p.data 2 2, tokenField p.data 4 4, s.now + msec 4⟩) ∧
      (p.uncorrectable = false → (t.lu.slots.get k).feature = tokenField p.data 0 2 ∧
        (t.lu.slots.get k).units = tokenField p.data 2 2 ∧ (t.lu.slots.get k).tokenSeq = tokenField p.data 4 4) ∧
      t.tmc.inProgress = none ∧ (∀ j, j ≠ k → t.lu.slots.get j = s.lu.slots.get j) ∧ (∀ q, (t.port q).asks = (s.port q).asks) ∧
      t.lu.fifo = s.lu.fifo ∧ t.lu.reserves = s.lu.reserves ∧ admissionFrame { s with lu := t.lu } t

/-- NV_PROGRAM_COMPLETE: a verified program raises the floor to the token's sequence and gives its units; one that does not verify
leaves floor and entitlement, with NV_FAULT. Where the PORT_UNITS entitlement in use for checks has risen, a grant round
follows, where the waiting lists hold waiting ports, each once (the invariant that every step keeps): each slot's head that its
unused reserve holds leaves WAIT_LICENSE; where no head is so held, the head of the
candidate with the largest counter, its weight added, and of those the lowest slot, does; and the round leaves no head that
either pass could grant. That the licence check of the round is made for the units with which an entry joined is the model's
reading (log entry 56). -/
def Obligations.ProgramEndsAppliedOrFaulted : Prop :=
  ∀ (s : State) (p : Program) (verified : Bool), s.lu.program = some p → p.doneAt ≤ s.now →
    ∃ t, exec (.nvProgramComplete verified) s = .next t ∧ t.lu.program = none ∧
      (verified = true → (t.lu.feature p.feature).floor = p.seq ∧ (t.lu.feature p.feature).entitlement = p.units ∧
        (t.lu.feature p.feature).reinstated = true ∧ (t.lu.slots.get p.slot).state = .done ∧
        (t.lu.slots.get p.slot).result = .applied ∧ (t.lu.slots.get p.slot).detail = p.units) ∧
      (verified = false → (t.lu.feature p.feature).floor = (s.lu.feature p.feature).floor ∧
        (t.lu.feature p.feature).entitlement = (s.lu.feature p.feature).entitlement ∧
        (t.lu.slots.get p.slot).state = .done ∧ (t.lu.slots.get p.slot).result = .nvFault ∧
        (t.lu.slots.get p.slot).detail = (s.lu.feature p.feature).floor) ∧
      (∀ r, s.waitsMatch → s.lu.entitlementInUse .portUnits < t.lu.entitlementInUse .portUnits →
        r = s.setLu { s.lu with portUnits := t.lu.portUnits, xdPorts := t.lu.xdPorts, program := none } →
        (∀ b e, (s.queue b).head? = some e → (s.port ⟨b, e.port⟩).request ≠ none →
          e.units ≤ r.unusedReserve (t.lu.entitlementInUse .portUnits) b → (t.port ⟨b, e.port⟩).state ≠ .waitLicense) ∧
        (∀ b e, (∀ c x, (s.queue c).head? = some x → r.unusedReserve (t.lu.entitlementInUse .portUnits) c < x.units) →
          (s.queue b).head? = some e → (s.port ⟨b, e.port⟩).request ≠ none → 0 < r.weight b → r.licenceFits b e.units = true →
          (∀ c x, c ≠ b → (s.queue c).head? = some x → 0 < r.weight c → r.licenceFits c x.units = true →
            clampCounter (s.lu.counters.get c + r.weight c) < clampCounter (s.lu.counters.get b + r.weight b) ∨
            (clampCounter (s.lu.counters.get c + r.weight c) = clampCounter (s.lu.counters.get b + r.weight b) ∧ b < c)) →
          (t.port ⟨b, e.port⟩).state ≠ .waitLicense) ∧
        roundEnded t) ∧
      (∀ f, f ≠ p.feature → t.lu.feature f = s.lu.feature f) ∧
      (∀ j, j ≠ p.slot → t.lu.slots.get j = s.lu.slots.get j) ∧ (∀ q, (t.port q).asks = (s.port q).asks) ∧
      t.lu.fifo = s.lu.fifo ∧ t.lu.reserves = s.lu.reserves ∧ admissionFrame { s with lu := t.lu } t

/-! ### Power supplies and the budget -/

/-- A supply seated in an EMPTY bay settles for 2 s; its capacity code is then latched and its lines decide its state; one pulled
is EMPTY with its timers stopped. HOLD and the budget follow: HOLD stands while no supply is ONLINE and one is INPUT_LOST, its
declaration answers what the TBP holds with RETRY and freezes the budget, and outside it P by the redundancy mode, S, T and A
are computed. That the capacity code comes with SETTLE_EXPIRY is the model's choice (log entry 60). -/
def Obligations.SupplySeatedSettledAndPulled : Prop :=
  (∀ (i : Bay) (s : State), s.pins.psuPresent.get i = false → (s.pbu.psus.get i).state = .empty →
    ∃ t, exec (.psuInserted i) s = .next t ∧ (t.pbu.psus.get i).state = .settling ∧
      (t.pbu.psus.get i).settleAt = some (s.now + sec 2) ∧ (∀ j, j ≠ i → t.pbu.psus.get j = s.pbu.psus.get j) ∧
      t.pins = { s.pins with psuPresent := Vector.put s.pins.psuPresent i true } ∧ holdFollows s t ∧
      (∀ q, (t.port q).asks = (s.port q).asks) ∧ admissionFrame { s with pins := t.pins, tbp := t.tbp, pbu := t.pbu } t) ∧
  (∀ (i : Bay) (s : State), s.pins.psuPresent.get i = true → (s.pbu.psus.get i).state ≠ .empty →
    ∃ t, exec (.psuRemoved i) s = .next t ∧ (t.pbu.psus.get i).state = .empty ∧ (t.pbu.psus.get i).settleAt = none ∧
      (t.pbu.psus.get i).graceAt = none ∧ (t.pbu.psus.get i).capacity = none ∧ (t.pbu.psus.get i).counted = false ∧
      (∀ j, j ≠ i → t.pbu.psus.get j = s.pbu.psus.get j) ∧
      t.pins = { s.pins with psuPresent := Vector.put s.pins.psuPresent i false } ∧ holdFollows s t ∧
      (∀ q, (t.port q).asks = (s.port q).asks) ∧ admissionFrame { s with pins := t.pins, tbp := t.tbp, pbu := t.pbu } t) ∧
  (∀ (i : Bay) (code : BitVec 2) (s : State), (s.pbu.psus.get i).state = .settling → ranOut (s.pbu.psus.get i).settleAt s.now = true →
    ∃ t, exec (.settleExpiry i code) s = .next t ∧ (t.pbu.psus.get i).capacity = some (12000 + 6000 * code.toNat) ∧
      (t.pbu.psus.get i).state = (if s.pins.powerGood.get i then (if s.pins.acOk.get i then .online else .inputLost)
        else (if s.pins.acOk.get i then .faulted else .unpowered)) ∧
      (∀ j, j ≠ i → t.pbu.psus.get j = s.pbu.psus.get j) ∧
      t.pins = { s.pins with capacity := Vector.put s.pins.capacity i code } ∧ holdFollows s t ∧
      (∀ q, (t.port q).asks = (s.port q).asks) ∧ admissionFrame { s with pins := t.pins, tbp := t.tbp, pbu := t.pbu } t)

/-- An edge of POWER_GOOD or AC_OK moves a settled supply as Table 7.1-3 says, by the other line's level; in every other
case the state stays, and with it the budget, HOLD and the table bus. After a move HOLD and the budget follow. -/
def Obligations.SupplyFollowsItsLines : Prop :=
  (∀ (i : Bay) (s : State), s.pins.powerGood.get i = false → ∃ t, exec (.powerGoodRise i) s = .next t ∧
    t.pins = { s.pins with powerGood := Vector.put s.pins.powerGood i true } ∧
    (t.pbu.psus.get i).state = (match (s.pbu.psus.get i).state with
      | .faulted => .online
      | .unpowered => if s.pins.acOk.get i then .online else .unpowered
      | st => st) ∧ supplyMoved s t i) ∧
  (∀ (i : Bay) (s : State), s.pins.powerGood.get i = true → ∃ t, exec (.powerGoodFall i) s = .next t ∧
    t.pins = { s.pins with powerGood := Vector.put s.pins.powerGood i false } ∧
    (t.pbu.psus.get i).state = (match (s.pbu.psus.get i).state with
      | .online => if s.pins.acOk.get i then .faulted else .unpowered
      | .inputLost => .unpowered
      | st => st) ∧ supplyMoved s t i) ∧
  (∀ (i : Bay) (s : State), s.pins.acOk.get i = false → ∃ t, exec (.acOkRise i) s = .next t ∧
    t.pins = { s.pins with acOk := Vector.put s.pins.acOk i true } ∧
    (t.pbu.psus.get i).state = (match (s.pbu.psus.get i).state with
      | .inputLost => .online
      | .unpowered => if s.pins.powerGood.get i then .online else .unpowered
      | st => st) ∧ supplyMoved s t i) ∧
  (∀ (i : Bay) (s : State), s.pins.acOk.get i = true → ∃ t, exec (.acOkFall i) s = .next t ∧
    t.pins = { s.pins with acOk := Vector.put s.pins.acOk i false } ∧
    (t.pbu.psus.get i).state = (match (s.pbu.psus.get i).state with
      | .online => .inputLost
      | .faulted => .unpowered
      | st => st) ∧ supplyMoved s t i)

/-- Outside HOLD a change of LOW_LINE has the budget computed afresh: P by the redundancy mode, S = floor(P × (100 − r) / 100), T =
floor(T_base × f / 100) and A = min(S, T), and A is 0 when no supply is counted, when f is 0 or when T_base is 0. With projected
draw above A, ports are sent off in the shed order, no more than are needed, and POWER_CRITICAL stands while it is still above A. -/
def Obligations.BudgetFollowsItsFormulas : Prop :=
  ∀ (i : Bay) (level : Bool) (s : State), s.pins.lowLine.get i ≠ level → s.pbu.hold = false →
    ∃ t, exec (.lowLineChange i level) s = .next t ∧ t.pins = { s.pins with lowLine := Vector.put s.pins.lowLine i level } ∧
      t.pbu.reserved = t.pbu.supply * (100 - s.plu.inUse.reserve) / 100 ∧
      t.pbu.ceiling = s.plu.inUse.thermalBase * s.pbu.derate / 100 ∧
      t.pbu.available = min t.pbu.reserved t.pbu.ceiling ∧ supplyLaw t ∧ shedLaw s t ∧
      ((∀ j, (s.pbu.psus.get j).counted = false) → t.pbu.available = 0) ∧ (s.pbu.derate = 0 → t.pbu.available = 0) ∧
      (s.plu.inUse.thermalBase = 0 → t.pbu.available = 0) ∧
      (∀ j c, (s.pbu.psus.get j).counted = true → (s.pbu.psus.get j).capacity = some c →
        t.usableOf j = if t.pins.lowLine.get j then c * 55 / 100 else c) ∧
      (s.bounded → s.plu.inUse.reserve ≤ 20 ∧ s.plu.inUse.thermalBase ≤ 1000000 ∧ s.pbu.derate ≤ 100) ∧
      (t.pbu.supply = 31200 → s.plu.inUse.reserve = 5 → s.plu.inUse.thermalBase = 52000 → s.pbu.derate = 95 →
        t.pbu.reserved = 29640 ∧ t.pbu.ceiling = 49400 ∧ t.pbu.available = 29640) ∧
      (∀ q, (t.port q).asks = (s.port q).asks) ∧ admissionFrame { s with pins := t.pins } t

/-- GRACE_EXPIRY leaves the supply in INPUT_LOST, marked expired and no longer counted, and HOLD and the budget follow.
RESTORE_HOLDOFF_EXPIRY stops the holdoff and, in HOLD, marks the restore pending. Outside HOLD the restore process runs, and its first
candidate decides: the lowest blade in WAIT_POWER is POWERING, else the first port of the restore order leaves SHED for GOING_UP, else
the first of the power wait list that is not on a HOT blade is admitted, each where its draw and the margin fit the headroom; and
where the first candidate does not fit, nothing is restored. What is said of ports rests on the invariant that the waiting lists hold
waiting ports, each once, which every step keeps. -/
def Obligations.PowerTimersRunOut : Prop :=
  (∀ (i : Bay) (s : State), (s.pbu.psus.get i).state = .inputLost → ranOut (s.pbu.psus.get i).graceAt s.now = true →
    ∃ t, exec (.graceExpiry i) s = .next t ∧ t.pbu.psus.get i = { s.pbu.psus.get i with graceAt := none, expired := true } ∧
      (t.pbu.psus.get i).counted = false ∧ t.usableOf i = 0 ∧ (∀ j, j ≠ i → t.pbu.psus.get j = s.pbu.psus.get j) ∧
      holdFollows s t ∧ (∀ q, (t.port q).asks = (s.port q).asks) ∧ admissionFrame { s with tbp := t.tbp, pbu := t.pbu } t) ∧
  (∀ s : State, ranOut s.pbu.holdoffAt s.now = true → ∃ t, exec .restoreHoldoffExpiry s = .next t ∧ t.pbu.holdoffAt = none ∧
    t.pbu.restorePending = s.pbu.hold ∧ (s.pbu.hold = true → t.pau = s.pau ∧ t.blc = s.blc ∧ t.lu = s.lu) ∧
    (s.pbu.hold = false → restoreFollows s t) ∧
    (∀ q, (t.port q).asks = (s.port q).asks) ∧ admissionFrame s t)

/-! ### Fans and temperatures -/

/-- A TACH_PULSE counts in its rotor's window, up to 1023; the end of the window records the count, the speed and the expected
minimum of every rotor, starts the counts again, and ends the next window 1 s later. Each rotor in OK, SLOW or STALLED is
judged; a zone whose target has risen by 20 points above the duty driven has its rotors in OK spin up. A driven duty rises to
its target at once and falls towards it by at most 5 points. The order of these effects in one window end is the model's
reading (log entry 67). -/
def Obligations.TachPulsesAreCountedByTheWindow : Prop :=
  (∀ (r : Rotor) (s : State), ∃ t, exec (.tachPulse r) s = .next t ∧
    t.ftu.rotors.get r = { s.ftu.rotors.get r with count := min 1023 ((s.ftu.rotors.get r).count + 1) } ∧
    (∀ q, q ≠ r → t.ftu.rotors.get q = s.ftu.rotors.get q) ∧ backgroundKept s t ∧
    t = { s with tmc := t.tmc, swq := t.swq, ftu := { s.ftu with rotors := t.ftu.rotors }, evu := t.evu }) ∧
  (∀ s : State, s.ftu.windowAt ≤ s.now → ∃ t, exec .measurementWindowEnd s = .next t ∧ t.ftu.windowAt = s.ftu.windowAt + sec 1 ∧
    (∀ r, (t.ftu.rotors.get r).count = 0 ∧ (t.ftu.rotors.get r).lastCount = (s.ftu.rotors.get r).count ∧
      (t.ftu.rotors.get r).speed = 30 * (s.ftu.rotors.get r).count ∧
      (t.ftu.rotors.get r).expected = s.plu.inUse.ratedSpeed * (s.ftu.zones.get (zoneOfRotor r)).lowest * 70 / 10000) ∧
    (∀ r st, st = judgement (s.ftu.rotors.get r) (s.plu.inUse.ratedSpeed * (s.ftu.zones.get (zoneOfRotor r)).lowest * 70 / 10000) →
      (t.ftu.rotors.get r).state =
        if (st = .ok ∨ st = .spinup) ∧ (s.ftu.zones.get (zoneOfRotor r)).driven + 20 ≤ (t.ftu.zones.get (zoneOfRotor r)).target then
          .spinup else st) ∧
    (∀ z, (t.ftu.zones.get z).lowest = (t.ftu.zones.get z).driven ∧ (t.ftu.zones.get z).target = t.targetDuty z ∧
      (t.ftu.zones.get z).driven = if (s.ftu.zones.get z).driven ≤ (t.ftu.zones.get z).target then (t.ftu.zones.get z).target
        else max (t.ftu.zones.get z).target ((s.ftu.zones.get z).driven - 5)) ∧
    t.fansFollow ∧ t.ftu.temps = s.ftu.temps ∧
    (∀ q, (t.port q).asks = (s.port q).asks) ∧ admissionFrame { s with ftu := t.ftu } t)

/-- A tray seated sends its two rotors to SPINUP, a tray pulled makes them ABSENT; a rotor whose spin-up has run out is OK.
The tray states, the lost-rotor count, which is the number of rotors STALLED or ABSENT, and the derate factor follow, as every step
keeps them. FRESHNESS_EXPIRY makes a blade's temperature not fresh, and the target of its zone 100 while the blade is present. -/
def Obligations.TraysRotorsAndFreshness : Prop :=
  (∀ (k : Tray) (s : State), s.pins.trayPresent.get k = false → ∃ t, exec (.trayInserted k) s = .next t ∧
    t.pins = { s.pins with trayPresent := Vector.put s.pins.trayPresent k true } ∧
    (t.ftu.rotors.get (rotorA k)).state = .spinup ∧ (t.ftu.rotors.get (rotorB k)).state = .spinup ∧ t.ftu.trays.get k = .ok ∧
    t.fansFollow ∧ t.ftu.temps = s.ftu.temps ∧
    (∀ q, (t.port q).asks = (s.port q).asks) ∧ admissionFrame { s with pins := t.pins, ftu := t.ftu } t) ∧
  (∀ (k : Tray) (s : State), s.pins.trayPresent.get k = true → ∃ t, exec (.trayRemoved k) s = .next t ∧
    t.pins = { s.pins with trayPresent := Vector.put s.pins.trayPresent k false } ∧
    (t.ftu.rotors.get (rotorA k)).state = .absent ∧ (t.ftu.rotors.get (rotorB k)).state = .absent ∧ t.ftu.trays.get k = .failed ∧
    t.fansFollow ∧ 2 ≤ t.ftu.lost ∧ (t.ftu.zones.get (zoneOfTray k)).target = 100 ∧ t.ftu.temps = s.ftu.temps ∧
    (∀ q, (t.port q).asks = (s.port q).asks) ∧ admissionFrame { s with pins := t.pins, ftu := t.ftu } t) ∧
  (∀ (r : Rotor) (s : State), (s.ftu.rotors.get r).state = .spinup → ranOut (s.ftu.rotors.get r).spinupAt s.now = true →
    s.fansFollow → s.dutyLaw (zoneOfRotor r) → ∃ t, exec (.spinupExpiry r) s = .next t ∧
      (t.ftu.rotors.get r).state = .ok ∧ t.fansFollow ∧ t.ftu.lost = s.ftu.lost ∧ t.ftu.temps = s.ftu.temps ∧
    (∀ q, (t.port q).asks = (s.port q).asks) ∧ admissionFrame { s with ftu := t.ftu } t) ∧
  (∀ (b : Slot) (s : State), ranOut (s.ftu.temps.get b).freshAt s.now = true → ∃ t, exec (.freshnessExpiry b) s = .next t ∧
    (t.ftu.temps.get b).fresh = false ∧ (t.ftu.temps.get b).freshAt = none ∧
    ((s.blade b).state ≠ .absent → (t.ftu.zones.get (zoneOfSlot b)).target = 100 ∧ 100 ≤ (t.ftu.zones.get (zoneOfSlot b)).driven) ∧
    (∀ c, c ≠ b → t.ftu.temps.get c = s.ftu.temps.get c) ∧
    (∀ q, (t.port q).asks = (s.port q).asks) ∧ admissionFrame { s with ftu := t.ftu } t) ∧
  (∀ s t : State, s.fansFollow → step s = .next t → t.fansFollow)

/-! ### Chassis events -/

/-- The EVU writes a held RING_LOST first, with the figures of that moment, and keeps it held while the ring is full; otherwise it
takes the oldest event of its intake, which is dropped and counted with the ring full. With room the record, of its sequence,
time and event, is written to the slot at the producer index: the write waits, or an SWQ entry holds its 32 bytes. The drained
record is published by moving the producer index on, and in DEASSERTED attention is asserted when the unconsumed count is then at or
above the coalesce count, when the record is CRITICAL or when the coalesce time is 0 with the timer idle; otherwise an idle coalescing
timer starts and a running one is left. That the figures of a RING_LOST are those of the moment at which it is
written is the model's reading (log entry 70), and that a record is published at its drain report also in HOLD, and that a
running timer is left also with a coalesce time of 0, are its choices (log entries 103 and 105). -/
def Obligations.RecordsAreWrittenAndPublished : Prop :=
  (∀ (s : State) (e : Stamped) (rest : List Stamped), s.mayRecord = true → s.evu.ringLost = none → s.evu.intake = e :: rest →
    ∃ t, exec .recordWrite s = .next t ∧ t.evu.intake = rest ∧ t.evu.producer = s.evu.producer ∧
      (s.evu.full s.capacity = false → t.evu.lostTotal = s.evu.lostTotal ∧
        (t.evu.phase = .placing e.event.severity ∨ t.evu.phase = .draining e.event.severity ∨ t.evu.phase = .drained e.event.severity) ∧
        ∀ l record, s.plu.layout = some l → s.linesWhole → record = recordBytes e.seq e.time e.event →
          writeGiven s t .evu (.eventRecord s.evu.producer record) (l.ring / 64 + 1 + s.evu.producer / 2)
            (maskAt (32 * (s.evu.producer % 2)) record)) ∧
      (s.evu.full s.capacity = true → t.evu.phase = .idle ∧ t.evu.lostTotal = min 4294967295 (s.evu.lostTotal + 1)) ∧
      backgroundKept s t ∧ t = { s with tmc := t.tmc, swq := t.swq, evu := t.evu }) ∧
  (∀ (s : State) (r : RingLost), s.mayRecord = true → s.evu.ringLost = some r →
    (s.evu.full s.capacity = true → exec .recordWrite s = .next s) ∧
    (s.evu.full s.capacity = false → ∃ t, exec .recordWrite s = .next t ∧ t.evu.ringLost = none ∧ t.evu.pending = 0 ∧
      t.evu.intake = s.evu.intake ∧ t.evu.producer = s.evu.producer ∧ t.evu.lostTotal = s.evu.lostTotal ∧
      (t.evu.phase = .placing .warn ∨ t.evu.phase = .draining .warn ∨ t.evu.phase = .drained .warn) ∧
      (∀ l record, s.plu.layout = some l → s.linesWhole →
        record = recordBytes r.seq r.time (ringLostEvent r.beforeArm s.evu.pending s.evu.lostTotal) →
        writeGiven s t .evu (.eventRecord s.evu.producer record) (l.ring / 64 + 1 + s.evu.producer / 2)
          (maskAt (32 * (s.evu.producer % 2)) record)) ∧
      backgroundKept s t ∧ t = { s with tmc := t.tmc, swq := t.swq, evu := t.evu })) ∧
  (∀ (s : State) (sev : Severity), s.evu.phase = .drained sev → ∃ t, exec .eventPublish s = .next t ∧ t.evu.phase = .idle ∧
    t.evu.producer = (s.evu.producer + 1) % s.capacity ∧ attentionFollows s t sev ∧
    t.evu.consumer = s.evu.consumer ∧ t.evu.intake = s.evu.intake ∧ memoryKept s t ∧
      t = { s with tmc := t.tmc, swq := t.swq, evu := t.evu })

/-- A consumer index in the ring that does not pass the producer is accepted, and one that is not is ignored. An accepted index that
empties the ring deasserts ATTN and stops the coalescing timer; one that leaves records unconsumed, one equal to the present index and
an ignored one leave both as they were. The coalescing timer asserts ATTN. UPTIME_TICK sets the uptime to the timestamp in whole
seconds. -/
def Obligations.ConsumerIndexAndAttention : Prop :=
  (∀ (s : State) (h : Handed), s.tbp.handed.find? (fun x => x.word.isConsumer) = some h → ∃ t, exec .consumerIndexWrite s = .next t ∧
    (h.value.toNat < s.capacity ∧ (h.value.toNat + s.capacity - s.evu.consumer) % s.capacity ≤
        (s.evu.producer + s.capacity - s.evu.consumer) % s.capacity →
      t.evu.consumer = h.value.toNat ∧
        (h.value.toNat ≠ s.evu.consumer → (s.evu.producer + s.capacity - h.value.toNat) % s.capacity = 0 →
          t.evu.asserted = false ∧ t.evu.coalesceAt = none) ∧
        (h.value.toNat = s.evu.consumer ∨ (s.evu.producer + s.capacity - h.value.toNat) % s.capacity ≠ 0 →
          t.evu.asserted = s.evu.asserted ∧ t.evu.coalesceAt = s.evu.coalesceAt)) ∧
    (¬(h.value.toNat < s.capacity ∧ (h.value.toNat + s.capacity - s.evu.consumer) % s.capacity ≤
        (s.evu.producer + s.capacity - s.evu.consumer) % s.capacity) →
      t.evu.consumer = s.evu.consumer ∧ t.evu.asserted = s.evu.asserted ∧ t.evu.coalesceAt = s.evu.coalesceAt) ∧
    t.evu.producer = s.evu.producer ∧ memoryKept s t ∧
    t = { s with tmc := t.tmc, tbp := { s.tbp with handed := s.tbp.handed.erase h }, swq := t.swq, evu := t.evu }) ∧
  (∀ s : State, ranOut s.evu.coalesceAt s.now = true → ∃ t, exec .coalescingTimerExpiry s = .next t ∧ t.evu.asserted = true ∧
    t.evu.coalesceAt = none ∧ memoryKept s t ∧ t = { s with tmc := t.tmc, swq := t.swq, evu := t.evu }) ∧
  (∀ s : State, s.plu.uptimeAt ≤ s.now → ∃ t, exec .uptimeTick s = .next t ∧ t.plu.uptime = s.timestamp / 1000000 ∧
    t.plu.uptimeAt = s.plu.uptimeAt + sec 1 ∧ backgroundKept s t ∧
    t = { s with tmc := t.tmc, swq := t.swq, evu := t.evu, plu := { s.plu with uptime := t.plu.uptime, uptimeAt := t.plu.uptimeAt } })

/-! ### The policy block -/

/-- An ARM word with a new sequence: in UNCONFIGURED and ARM_FAILED the layout as policy lines 0 and 1 give it is checked by Table
10.2-1, and the part enters ARMING with it frozen or ARM_FAILED with the first failure; in ARMING it is BUSY, in ARMED ALREADY_ARMED. A
word with another code arms nothing. That the detail is 0 with IN_PROGRESS, BUSY and ALREADY_ARMED is the model's choice (log entry
95), and that a layout that fails never shows ARMING its reading (log entry 64). -/
def Obligations.ArmIsDecidedByPartStateAndLayout : Prop :=
  (∀ (s : State) (h : Handed), s.tbp.handed.find? (fun x => x.word.isPolicy) = some h → wordSequence h.value ≠ s.plu.seen →
    wordCode h.value = 1 → ∃ t, exec .arm s = .next t ∧ t.plu.seen = wordSequence h.value ∧ t.plu.armSeq = wordSequence h.value ∧
      (s.plu.part = .arming → t.plu.part = .arming ∧ t.plu.result = .busy ∧ t.plu.detail = 0 ∧ t.plu.layout = s.plu.layout) ∧
      (s.plu.part = .armed → t.plu.part = .armed ∧ t.plu.result = .alreadyArmed ∧ t.plu.detail = 0 ∧ t.plu.layout = s.plu.layout) ∧
      (∀ l r d, s.plu.part = .unconfigured ∨ s.plu.part = .armFailed → layoutFrozen s.plu.copy l →
        layoutFails l (memoryBytes s.tmc.density) r d →
        t.plu.part = .armFailed ∧ t.plu.result = r ∧ t.plu.detail = d ∧ t.plu.layout = none) ∧
      (∀ l, s.plu.part = .unconfigured ∨ s.plu.part = .armFailed → layoutFrozen s.plu.copy l →
        layoutPasses l (memoryBytes s.tmc.density) →
        t.plu.part = .arming ∧ t.plu.result = .inProgress ∧ t.plu.detail = 0 ∧ t.plu.layout = some l) ∧
          t.plu.inUse = s.plu.inUse ∧ t.plu.copy = s.plu.copy ∧ backgroundKept s t ∧
      t = { s with tmc := t.tmc, tbp := { s.tbp with handed := s.tbp.handed.erase h }, swq := t.swq, evu := t.evu, plu := t.plu }) ∧
  (∀ (s : State) (h : Handed), s.tbp.handed.find? (fun x => x.word.isPolicy) = some h → wordSequence h.value ≠ s.plu.seen →
    wordCode h.value = 0 → ∃ t, exec .policyCommandNone s = .next t ∧ t.plu = { s.plu with seen := wordSequence h.value } ∧
      t.plu.inUse = s.plu.inUse ∧ t.plu.copy = s.plu.copy ∧ backgroundKept s t ∧
      t = { s with tmc := t.tmc, tbp := { s.tbp with handed := s.tbp.handed.erase h }, swq := t.swq, evu := t.evu, plu := t.plu }) ∧
  (∀ (s : State) (h : Handed), s.tbp.handed.find? (fun x => x.word.isPolicy) = some h → wordSequence h.value ≠ s.plu.seen →
    1 < wordCode h.value → ∃ t, exec .policyBadCommand s = .next t ∧
      t.plu = { s.plu with
        seen := wordSequence h.value, result := .badCommand, detail := wordCode h.value, armSeq := wordSequence h.value } ∧
      t.plu.inUse = s.plu.inUse ∧ t.plu.copy = s.plu.copy ∧ backgroundKept s t ∧
      t = { s with tmc := t.tmc, tbp := { s.tbp with handed := s.tbp.handed.erase h }, swq := t.swq, evu := t.evu, plu := t.plu })

/-- ENTER_ARMED makes the part ARMED with the arm result ARMED and gives every unit its starting point for the armed part (the table of
R170). The ZIU: live epoch 1, swap flag 0, dirty map CLEAN, zone state IDLE, result NONE, its counts and sequences 0 and its
acknowledgement set empty. The PAU: all 384 port records as power-on reset leaves them, and each settled blade through the blade power
check in slot order. The LU: the frozen reserves, and its queues, submit FIFO, token slots and selection counters cleared; entitlements,
floors and a program stay. The PBU: the power wait list empty and the entry number 0, no blade that waits for power but by this entry's
checks, and the figures and alarms computed outside HOLD. The FTU: the targets computed, with every other figure as it was but for a
driven duty below its target. The EVU: indices 0, the event sequence from 0, and a RING_LOST with code BEFORE_ARM of sequence 1 when
drops are pending, before any event of the entry. The TBP's shadows have a statement of their own, and the status writes of the entry are
not said here. That the RING_LOST's sequence is 1 and that it comes first is read from R160 and R161 (log entries 70 and 71), and that it
is made also while WARM_RST_N is asserted is the model's choice (log entry 87). -/
def Obligations.EnterArmedStartsTheUnits : Prop :=
  ∀ s : State, s.plu.part = .arming → s.plu.fill = .drained → ∃ t, exec .enterArmed s = .next t ∧
    t.plu.part = .armed ∧ t.plu.result = .armed ∧ t.plu.detail = 0 ∧ t.plu.armSeq = s.plu.started ∧ t.plu.layout = s.plu.layout ∧
    t.plu.inUse = s.plu.inUse ∧ t.plu.copy = s.plu.copy ∧
    t.ziu.epoch = 1 ∧ t.ziu.swap = false ∧ t.ziu.dirty = [] ∧ t.ziu.zone = .idle ∧ t.ziu.ackSet = [] ∧ t.ziu.seen = 0 ∧
    (∀ b, t.ziu.inFlight.get b = 0) ∧ t.ziu.stageWrites = 0 ∧ t.ziu.result = .none ∧ t.ziu.detail = 0 ∧ t.ziu.accepted = 0 ∧
    t.ziu.liveZones = 0 ∧ t.ziu.liveMembers = 0 ∧
    (∀ q, t.port q = Port.reset) ∧ settledBladesFollow s t ∧
    (∀ b, t.queue b = []) ∧ t.lu.fifo = [] ∧ (∀ k, t.lu.slots.get k = TokenSlot.reset) ∧ (∀ b, t.lu.counters.get b = 0) ∧
    (∀ l, s.plu.layout = some l → t.lu.reserves = l.reserves) ∧ (∀ f, t.lu.feature f = s.lu.feature f) ∧ t.lu.program = s.lu.program ∧
    budgetStarts s t ∧ targetsStart s t ∧ eventsStart s t ∧ memoryKept s t ∧
    t = { s with tmc := t.tmc, tbp := t.tbp, swq := t.swq, ziu := t.ziu, blc := t.blc, pau := t.pau, lu := t.lu, pbu := t.pbu,
                 ftu := t.ftu, evu := t.evu, plu := t.plu }

/-- Power-on reset clears every watch shadow, warm reset keeps them all, and entry to ARMED sets the shadows of the zone
command, request, submit and consumer words to zero and keeps the policy control word's. -/
def Obligations.WatchShadowsThroughResetAndArming : Prop :=
  (∀ (p : PowerOn) (s : State), ∃ t, exec (.powerOnReset p) s = .next t ∧ t.tbp.policyShadow = 0#64 ∧ t.tbp.zoneShadow = 0#64 ∧
    (∀ b i, (t.tbp.portShadow.get b).get i = 0#64) ∧ (∀ k, t.tbp.submitShadow.get k = 0#64) ∧ t.tbp.consumerShadow = 0#64) ∧
  (∀ s : State, s.pins.warm = false → ∃ t, exec .warmReset s = .next t ∧ t.tbp.policyShadow = s.tbp.policyShadow ∧
    t.tbp.zoneShadow = s.tbp.zoneShadow ∧ t.tbp.portShadow = s.tbp.portShadow ∧ t.tbp.submitShadow = s.tbp.submitShadow ∧
    t.tbp.consumerShadow = s.tbp.consumerShadow) ∧
  (∀ s : State, s.plu.part = .arming → s.plu.fill = .drained → ∃ t, exec .enterArmed s = .next t ∧ t.plu.part = .armed ∧
    t.tbp.policyShadow = s.tbp.policyShadow ∧ t.tbp.zoneShadow = 0#64 ∧ (∀ b i, (t.tbp.portShadow.get b).get i = 0#64) ∧
    (∀ k, t.tbp.submitShadow.get k = 0#64) ∧ t.tbp.consumerShadow = 0#64)
end

