-- ==== Sys2Proof/Laws/State.lean ====
section
/-! SUPPORT. One lemma for each field under each setter of State, each true by `rfl`, so that no proof unfolds
a record update; and the same for the setters of one link, blade and port, and for the work record. -/

set_option Elab.async false

namespace Sys2Proof.Machine

@[simp] theorem State.setPins_pending (s : State) (x) : (s.setPins x).pending = s.pending := rfl
@[simp] theorem State.setPins_now (s : State) (x) : (s.setPins x).now = s.now := rfl
@[simp] theorem State.setPins_pins (s : State) (x) : (s.setPins x).pins = x := rfl
@[simp] theorem State.setPins_tmc (s : State) (x) : (s.setPins x).tmc = s.tmc := rfl
@[simp] theorem State.setPins_tbp (s : State) (x) : (s.setPins x).tbp = s.tbp := rfl
@[simp] theorem State.setPins_swq (s : State) (x) : (s.setPins x).swq = s.swq := rfl
@[simp] theorem State.setPins_ziu (s : State) (x) : (s.setPins x).ziu = s.ziu := rfl
@[simp] theorem State.setPins_blc (s : State) (x) : (s.setPins x).blc = s.blc := rfl
@[simp] theorem State.setPins_pau (s : State) (x) : (s.setPins x).pau = s.pau := rfl
@[simp] theorem State.setPins_lu (s : State) (x) : (s.setPins x).lu = s.lu := rfl
@[simp] theorem State.setPins_pbu (s : State) (x) : (s.setPins x).pbu = s.pbu := rfl
@[simp] theorem State.setPins_ftu (s : State) (x) : (s.setPins x).ftu = s.ftu := rfl
@[simp] theorem State.setPins_evu (s : State) (x) : (s.setPins x).evu = s.evu := rfl
@[simp] theorem State.setPins_plu (s : State) (x) : (s.setPins x).plu = s.plu := rfl
@[simp] theorem State.setTmc_pending (s : State) (x) : (s.setTmc x).pending = s.pending := rfl
@[simp] theorem State.setTmc_now (s : State) (x) : (s.setTmc x).now = s.now := rfl
@[simp] theorem State.setTmc_pins (s : State) (x) : (s.setTmc x).pins = s.pins := rfl
@[simp] theorem State.setTmc_tmc (s : State) (x) : (s.setTmc x).tmc = x := rfl
@[simp] theorem State.setTmc_tbp (s : State) (x) : (s.setTmc x).tbp = s.tbp := rfl
@[simp] theorem State.setTmc_swq (s : State) (x) : (s.setTmc x).swq = s.swq := rfl
@[simp] theorem State.setTmc_ziu (s : State) (x) : (s.setTmc x).ziu = s.ziu := rfl
@[simp] theorem State.setTmc_blc (s : State) (x) : (s.setTmc x).blc = s.blc := rfl
@[simp] theorem State.setTmc_pau (s : State) (x) : (s.setTmc x).pau = s.pau := rfl
@[simp] theorem State.setTmc_lu (s : State) (x) : (s.setTmc x).lu = s.lu := rfl
@[simp] theorem State.setTmc_pbu (s : State) (x) : (s.setTmc x).pbu = s.pbu := rfl
@[simp] theorem State.setTmc_ftu (s : State) (x) : (s.setTmc x).ftu = s.ftu := rfl
@[simp] theorem State.setTmc_evu (s : State) (x) : (s.setTmc x).evu = s.evu := rfl
@[simp] theorem State.setTmc_plu (s : State) (x) : (s.setTmc x).plu = s.plu := rfl
@[simp] theorem State.setTbp_pending (s : State) (x) : (s.setTbp x).pending = s.pending := rfl
@[simp] theorem State.setTbp_now (s : State) (x) : (s.setTbp x).now = s.now := rfl
@[simp] theorem State.setTbp_pins (s : State) (x) : (s.setTbp x).pins = s.pins := rfl
@[simp] theorem State.setTbp_tmc (s : State) (x) : (s.setTbp x).tmc = s.tmc := rfl
@[simp] theorem State.setTbp_tbp (s : State) (x) : (s.setTbp x).tbp = x := rfl
@[simp] theorem State.setTbp_swq (s : State) (x) : (s.setTbp x).swq = s.swq := rfl
@[simp] theorem State.setTbp_ziu (s : State) (x) : (s.setTbp x).ziu = s.ziu := rfl
@[simp] theorem State.setTbp_blc (s : State) (x) : (s.setTbp x).blc = s.blc := rfl
@[simp] theorem State.setTbp_pau (s : State) (x) : (s.setTbp x).pau = s.pau := rfl
@[simp] theorem State.setTbp_lu (s : State) (x) : (s.setTbp x).lu = s.lu := rfl
@[simp] theorem State.setTbp_pbu (s : State) (x) : (s.setTbp x).pbu = s.pbu := rfl
@[simp] theorem State.setTbp_ftu (s : State) (x) : (s.setTbp x).ftu = s.ftu := rfl
@[simp] theorem State.setTbp_evu (s : State) (x) : (s.setTbp x).evu = s.evu := rfl
@[simp] theorem State.setTbp_plu (s : State) (x) : (s.setTbp x).plu = s.plu := rfl
@[simp] theorem State.setSwq_pending (s : State) (x) : (s.setSwq x).pending = s.pending := rfl
@[simp] theorem State.setSwq_now (s : State) (x) : (s.setSwq x).now = s.now := rfl
@[simp] theorem State.setSwq_pins (s : State) (x) : (s.setSwq x).pins = s.pins := rfl
@[simp] theorem State.setSwq_tmc (s : State) (x) : (s.setSwq x).tmc = s.tmc := rfl
@[simp] theorem State.setSwq_tbp (s : State) (x) : (s.setSwq x).tbp = s.tbp := rfl
@[simp] theorem State.setSwq_swq (s : State) (x) : (s.setSwq x).swq = x := rfl
@[simp] theorem State.setSwq_ziu (s : State) (x) : (s.setSwq x).ziu = s.ziu := rfl
@[simp] theorem State.setSwq_blc (s : State) (x) : (s.setSwq x).blc = s.blc := rfl
@[simp] theorem State.setSwq_pau (s : State) (x) : (s.setSwq x).pau = s.pau := rfl
@[simp] theorem State.setSwq_lu (s : State) (x) : (s.setSwq x).lu = s.lu := rfl
@[simp] theorem State.setSwq_pbu (s : State) (x) : (s.setSwq x).pbu = s.pbu := rfl
@[simp] theorem State.setSwq_ftu (s : State) (x) : (s.setSwq x).ftu = s.ftu := rfl
@[simp] theorem State.setSwq_evu (s : State) (x) : (s.setSwq x).evu = s.evu := rfl
@[simp] theorem State.setSwq_plu (s : State) (x) : (s.setSwq x).plu = s.plu := rfl
@[simp] theorem State.setZiu_pending (s : State) (x) : (s.setZiu x).pending = s.pending := rfl
@[simp] theorem State.setZiu_now (s : State) (x) : (s.setZiu x).now = s.now := rfl
@[simp] theorem State.setZiu_pins (s : State) (x) : (s.setZiu x).pins = s.pins := rfl
@[simp] theorem State.setZiu_tmc (s : State) (x) : (s.setZiu x).tmc = s.tmc := rfl
@[simp] theorem State.setZiu_tbp (s : State) (x) : (s.setZiu x).tbp = s.tbp := rfl
@[simp] theorem State.setZiu_swq (s : State) (x) : (s.setZiu x).swq = s.swq := rfl
@[simp] theorem State.setZiu_ziu (s : State) (x) : (s.setZiu x).ziu = x := rfl
@[simp] theorem State.setZiu_blc (s : State) (x) : (s.setZiu x).blc = s.blc := rfl
@[simp] theorem State.setZiu_pau (s : State) (x) : (s.setZiu x).pau = s.pau := rfl
@[simp] theorem State.setZiu_lu (s : State) (x) : (s.setZiu x).lu = s.lu := rfl
@[simp] theorem State.setZiu_pbu (s : State) (x) : (s.setZiu x).pbu = s.pbu := rfl
@[simp] theorem State.setZiu_ftu (s : State) (x) : (s.setZiu x).ftu = s.ftu := rfl
@[simp] theorem State.setZiu_evu (s : State) (x) : (s.setZiu x).evu = s.evu := rfl
@[simp] theorem State.setZiu_plu (s : State) (x) : (s.setZiu x).plu = s.plu := rfl
@[simp] theorem State.setBlc_pending (s : State) (x) : (s.setBlc x).pending = s.pending := rfl
@[simp] theorem State.setBlc_now (s : State) (x) : (s.setBlc x).now = s.now := rfl
@[simp] theorem State.setBlc_pins (s : State) (x) : (s.setBlc x).pins = s.pins := rfl
@[simp] theorem State.setBlc_tmc (s : State) (x) : (s.setBlc x).tmc = s.tmc := rfl
@[simp] theorem State.setBlc_tbp (s : State) (x) : (s.setBlc x).tbp = s.tbp := rfl
@[simp] theorem State.setBlc_swq (s : State) (x) : (s.setBlc x).swq = s.swq := rfl
@[simp] theorem State.setBlc_ziu (s : State) (x) : (s.setBlc x).ziu = s.ziu := rfl
@[simp] theorem State.setBlc_blc (s : State) (x) : (s.setBlc x).blc = x := rfl
@[simp] theorem State.setBlc_pau (s : State) (x) : (s.setBlc x).pau = s.pau := rfl
@[simp] theorem State.setBlc_lu (s : State) (x) : (s.setBlc x).lu = s.lu := rfl
@[simp] theorem State.setBlc_pbu (s : State) (x) : (s.setBlc x).pbu = s.pbu := rfl
@[simp] theorem State.setBlc_ftu (s : State) (x) : (s.setBlc x).ftu = s.ftu := rfl
@[simp] theorem State.setBlc_evu (s : State) (x) : (s.setBlc x).evu = s.evu := rfl
@[simp] theorem State.setBlc_plu (s : State) (x) : (s.setBlc x).plu = s.plu := rfl
@[simp] theorem State.setPau_pending (s : State) (x) : (s.setPau x).pending = s.pending := rfl
@[simp] theorem State.setPau_now (s : State) (x) : (s.setPau x).now = s.now := rfl
@[simp] theorem State.setPau_pins (s : State) (x) : (s.setPau x).pins = s.pins := rfl
@[simp] theorem State.setPau_tmc (s : State) (x) : (s.setPau x).tmc = s.tmc := rfl
@[simp] theorem State.setPau_tbp (s : State) (x) : (s.setPau x).tbp = s.tbp := rfl
@[simp] theorem State.setPau_swq (s : State) (x) : (s.setPau x).swq = s.swq := rfl
@[simp] theorem State.setPau_ziu (s : State) (x) : (s.setPau x).ziu = s.ziu := rfl
@[simp] theorem State.setPau_blc (s : State) (x) : (s.setPau x).blc = s.blc := rfl
@[simp] theorem State.setPau_pau (s : State) (x) : (s.setPau x).pau = x := rfl
@[simp] theorem State.setPau_lu (s : State) (x) : (s.setPau x).lu = s.lu := rfl
@[simp] theorem State.setPau_pbu (s : State) (x) : (s.setPau x).pbu = s.pbu := rfl
@[simp] theorem State.setPau_ftu (s : State) (x) : (s.setPau x).ftu = s.ftu := rfl
@[simp] theorem State.setPau_evu (s : State) (x) : (s.setPau x).evu = s.evu := rfl
@[simp] theorem State.setPau_plu (s : State) (x) : (s.setPau x).plu = s.plu := rfl
@[simp] theorem State.setLu_pending (s : State) (x) : (s.setLu x).pending = s.pending := rfl
@[simp] theorem State.setLu_now (s : State) (x) : (s.setLu x).now = s.now := rfl
@[simp] theorem State.setLu_pins (s : State) (x) : (s.setLu x).pins = s.pins := rfl
@[simp] theorem State.setLu_tmc (s : State) (x) : (s.setLu x).tmc = s.tmc := rfl
@[simp] theorem State.setLu_tbp (s : State) (x) : (s.setLu x).tbp = s.tbp := rfl
@[simp] theorem State.setLu_swq (s : State) (x) : (s.setLu x).swq = s.swq := rfl
@[simp] theorem State.setLu_ziu (s : State) (x) : (s.setLu x).ziu = s.ziu := rfl
@[simp] theorem State.setLu_blc (s : State) (x) : (s.setLu x).blc = s.blc := rfl
@[simp] theorem State.setLu_pau (s : State) (x) : (s.setLu x).pau = s.pau := rfl
@[simp] theorem State.setLu_lu (s : State) (x) : (s.setLu x).lu = x := rfl
@[simp] theorem State.setLu_pbu (s : State) (x) : (s.setLu x).pbu = s.pbu := rfl
@[simp] theorem State.setLu_ftu (s : State) (x) : (s.setLu x).ftu = s.ftu := rfl
@[simp] theorem State.setLu_evu (s : State) (x) : (s.setLu x).evu = s.evu := rfl
@[simp] theorem State.setLu_plu (s : State) (x) : (s.setLu x).plu = s.plu := rfl
@[simp] theorem State.setPbu_pending (s : State) (x) : (s.setPbu x).pending = s.pending := rfl
@[simp] theorem State.setPbu_now (s : State) (x) : (s.setPbu x).now = s.now := rfl
@[simp] theorem State.setPbu_pins (s : State) (x) : (s.setPbu x).pins = s.pins := rfl
@[simp] theorem State.setPbu_tmc (s : State) (x) : (s.setPbu x).tmc = s.tmc := rfl
@[simp] theorem State.setPbu_tbp (s : State) (x) : (s.setPbu x).tbp = s.tbp := rfl
@[simp] theorem State.setPbu_swq (s : State) (x) : (s.setPbu x).swq = s.swq := rfl
@[simp] theorem State.setPbu_ziu (s : State) (x) : (s.setPbu x).ziu = s.ziu := rfl
@[simp] theorem State.setPbu_blc (s : State) (x) : (s.setPbu x).blc = s.blc := rfl
@[simp] theorem State.setPbu_pau (s : State) (x) : (s.setPbu x).pau = s.pau := rfl
@[simp] theorem State.setPbu_lu (s : State) (x) : (s.setPbu x).lu = s.lu := rfl
@[simp] theorem State.setPbu_pbu (s : State) (x) : (s.setPbu x).pbu = x := rfl
@[simp] theorem State.setPbu_ftu (s : State) (x) : (s.setPbu x).ftu = s.ftu := rfl
@[simp] theorem State.setPbu_evu (s : State) (x) : (s.setPbu x).evu = s.evu := rfl
@[simp] theorem State.setPbu_plu (s : State) (x) : (s.setPbu x).plu = s.plu := rfl
@[simp] theorem State.setFtu_pending (s : State) (x) : (s.setFtu x).pending = s.pending := rfl
@[simp] theorem State.setFtu_now (s : State) (x) : (s.setFtu x).now = s.now := rfl
@[simp] theorem State.setFtu_pins (s : State) (x) : (s.setFtu x).pins = s.pins := rfl
@[simp] theorem State.setFtu_tmc (s : State) (x) : (s.setFtu x).tmc = s.tmc := rfl
@[simp] theorem State.setFtu_tbp (s : State) (x) : (s.setFtu x).tbp = s.tbp := rfl
@[simp] theorem State.setFtu_swq (s : State) (x) : (s.setFtu x).swq = s.swq := rfl
@[simp] theorem State.setFtu_ziu (s : State) (x) : (s.setFtu x).ziu = s.ziu := rfl
@[simp] theorem State.setFtu_blc (s : State) (x) : (s.setFtu x).blc = s.blc := rfl
@[simp] theorem State.setFtu_pau (s : State) (x) : (s.setFtu x).pau = s.pau := rfl
@[simp] theorem State.setFtu_lu (s : State) (x) : (s.setFtu x).lu = s.lu := rfl
@[simp] theorem State.setFtu_pbu (s : State) (x) : (s.setFtu x).pbu = s.pbu := rfl
@[simp] theorem State.setFtu_ftu (s : State) (x) : (s.setFtu x).ftu = x := rfl
@[simp] theorem State.setFtu_evu (s : State) (x) : (s.setFtu x).evu = s.evu := rfl
@[simp] theorem State.setFtu_plu (s : State) (x) : (s.setFtu x).plu = s.plu := rfl
@[simp] theorem State.setEvu_pending (s : State) (x) : (s.setEvu x).pending = s.pending := rfl
@[simp] theorem State.setEvu_now (s : State) (x) : (s.setEvu x).now = s.now := rfl
@[simp] theorem State.setEvu_pins (s : State) (x) : (s.setEvu x).pins = s.pins := rfl
@[simp] theorem State.setEvu_tmc (s : State) (x) : (s.setEvu x).tmc = s.tmc := rfl
@[simp] theorem State.setEvu_tbp (s : State) (x) : (s.setEvu x).tbp = s.tbp := rfl
@[simp] theorem State.setEvu_swq (s : State) (x) : (s.setEvu x).swq = s.swq := rfl
@[simp] theorem State.setEvu_ziu (s : State) (x) : (s.setEvu x).ziu = s.ziu := rfl
@[simp] theorem State.setEvu_blc (s : State) (x) : (s.setEvu x).blc = s.blc := rfl
@[simp] theorem State.setEvu_pau (s : State) (x) : (s.setEvu x).pau = s.pau := rfl
@[simp] theorem State.setEvu_lu (s : State) (x) : (s.setEvu x).lu = s.lu := rfl
@[simp] theorem State.setEvu_pbu (s : State) (x) : (s.setEvu x).pbu = s.pbu := rfl
@[simp] theorem State.setEvu_ftu (s : State) (x) : (s.setEvu x).ftu = s.ftu := rfl
@[simp] theorem State.setEvu_evu (s : State) (x) : (s.setEvu x).evu = x := rfl
@[simp] theorem State.setEvu_plu (s : State) (x) : (s.setEvu x).plu = s.plu := rfl
@[simp] theorem State.setPlu_pending (s : State) (x) : (s.setPlu x).pending = s.pending := rfl
@[simp] theorem State.setPlu_now (s : State) (x) : (s.setPlu x).now = s.now := rfl
@[simp] theorem State.setPlu_pins (s : State) (x) : (s.setPlu x).pins = s.pins := rfl
@[simp] theorem State.setPlu_tmc (s : State) (x) : (s.setPlu x).tmc = s.tmc := rfl
@[simp] theorem State.setPlu_tbp (s : State) (x) : (s.setPlu x).tbp = s.tbp := rfl
@[simp] theorem State.setPlu_swq (s : State) (x) : (s.setPlu x).swq = s.swq := rfl
@[simp] theorem State.setPlu_ziu (s : State) (x) : (s.setPlu x).ziu = s.ziu := rfl
@[simp] theorem State.setPlu_blc (s : State) (x) : (s.setPlu x).blc = s.blc := rfl
@[simp] theorem State.setPlu_pau (s : State) (x) : (s.setPlu x).pau = s.pau := rfl
@[simp] theorem State.setPlu_lu (s : State) (x) : (s.setPlu x).lu = s.lu := rfl
@[simp] theorem State.setPlu_pbu (s : State) (x) : (s.setPlu x).pbu = s.pbu := rfl
@[simp] theorem State.setPlu_ftu (s : State) (x) : (s.setPlu x).ftu = s.ftu := rfl
@[simp] theorem State.setPlu_evu (s : State) (x) : (s.setPlu x).evu = s.evu := rfl
@[simp] theorem State.setPlu_plu (s : State) (x) : (s.setPlu x).plu = x := rfl
@[simp] theorem State.setLink_pending (s : State) (b : Slot) (x : Link) : (s.setLink b x).pending = s.pending := rfl
@[simp] theorem State.setLink_now (s : State) (b : Slot) (x : Link) : (s.setLink b x).now = s.now := rfl
@[simp] theorem State.setLink_pins (s : State) (b : Slot) (x : Link) : (s.setLink b x).pins = s.pins := rfl
@[simp] theorem State.setLink_tmc (s : State) (b : Slot) (x : Link) : (s.setLink b x).tmc = s.tmc := rfl
@[simp] theorem State.setLink_tbp (s : State) (b : Slot) (x : Link) : (s.setLink b x).tbp = s.tbp := rfl
@[simp] theorem State.setLink_swq (s : State) (b : Slot) (x : Link) : (s.setLink b x).swq = s.swq := rfl
@[simp] theorem State.setLink_ziu (s : State) (b : Slot) (x : Link) : (s.setLink b x).ziu = s.ziu := rfl
@[simp] theorem State.setLink_pau (s : State) (b : Slot) (x : Link) : (s.setLink b x).pau = s.pau := rfl
@[simp] theorem State.setLink_lu (s : State) (b : Slot) (x : Link) : (s.setLink b x).lu = s.lu := rfl
@[simp] theorem State.setLink_pbu (s : State) (b : Slot) (x : Link) : (s.setLink b x).pbu = s.pbu := rfl
@[simp] theorem State.setLink_ftu (s : State) (b : Slot) (x : Link) : (s.setLink b x).ftu = s.ftu := rfl
@[simp] theorem State.setLink_evu (s : State) (b : Slot) (x : Link) : (s.setLink b x).evu = s.evu := rfl
@[simp] theorem State.setLink_plu (s : State) (b : Slot) (x : Link) : (s.setLink b x).plu = s.plu := rfl
@[simp] theorem State.setBlade_pending (s : State) (b : Slot) (x : Blade) : (s.setBlade b x).pending = s.pending := rfl
@[simp] theorem State.setBlade_now (s : State) (b : Slot) (x : Blade) : (s.setBlade b x).now = s.now := rfl
@[simp] theorem State.setBlade_pins (s : State) (b : Slot) (x : Blade) : (s.setBlade b x).pins = s.pins := rfl
@[simp] theorem State.setBlade_tmc (s : State) (b : Slot) (x : Blade) : (s.setBlade b x).tmc = s.tmc := rfl
@[simp] theorem State.setBlade_tbp (s : State) (b : Slot) (x : Blade) : (s.setBlade b x).tbp = s.tbp := rfl
@[simp] theorem State.setBlade_swq (s : State) (b : Slot) (x : Blade) : (s.setBlade b x).swq = s.swq := rfl
@[simp] theorem State.setBlade_ziu (s : State) (b : Slot) (x : Blade) : (s.setBlade b x).ziu = s.ziu := rfl
@[simp] theorem State.setBlade_blc (s : State) (b : Slot) (x : Blade) : (s.setBlade b x).blc = s.blc := rfl
@[simp] theorem State.setBlade_lu (s : State) (b : Slot) (x : Blade) : (s.setBlade b x).lu = s.lu := rfl
@[simp] theorem State.setBlade_pbu (s : State) (b : Slot) (x : Blade) : (s.setBlade b x).pbu = s.pbu := rfl
@[simp] theorem State.setBlade_ftu (s : State) (b : Slot) (x : Blade) : (s.setBlade b x).ftu = s.ftu := rfl
@[simp] theorem State.setBlade_evu (s : State) (b : Slot) (x : Blade) : (s.setBlade b x).evu = s.evu := rfl
@[simp] theorem State.setBlade_plu (s : State) (b : Slot) (x : Blade) : (s.setBlade b x).plu = s.plu := rfl
@[simp] theorem State.setPort_pending (s : State) (b : PortRef) (x : Port) : (s.setPort b x).pending = s.pending := rfl
@[simp] theorem State.setPort_now (s : State) (b : PortRef) (x : Port) : (s.setPort b x).now = s.now := rfl
@[simp] theorem State.setPort_pins (s : State) (b : PortRef) (x : Port) : (s.setPort b x).pins = s.pins := rfl
@[simp] theorem State.setPort_tmc (s : State) (b : PortRef) (x : Port) : (s.setPort b x).tmc = s.tmc := rfl
@[simp] theorem State.setPort_tbp (s : State) (b : PortRef) (x : Port) : (s.setPort b x).tbp = s.tbp := rfl
@[simp] theorem State.setPort_swq (s : State) (b : PortRef) (x : Port) : (s.setPort b x).swq = s.swq := rfl
@[simp] theorem State.setPort_ziu (s : State) (b : PortRef) (x : Port) : (s.setPort b x).ziu = s.ziu := rfl
@[simp] theorem State.setPort_blc (s : State) (b : PortRef) (x : Port) : (s.setPort b x).blc = s.blc := rfl
@[simp] theorem State.setPort_lu (s : State) (b : PortRef) (x : Port) : (s.setPort b x).lu = s.lu := rfl
@[simp] theorem State.setPort_pbu (s : State) (b : PortRef) (x : Port) : (s.setPort b x).pbu = s.pbu := rfl
@[simp] theorem State.setPort_ftu (s : State) (b : PortRef) (x : Port) : (s.setPort b x).ftu = s.ftu := rfl
@[simp] theorem State.setPort_evu (s : State) (b : PortRef) (x : Port) : (s.setPort b x).evu = s.evu := rfl
@[simp] theorem State.setPort_plu (s : State) (b : PortRef) (x : Port) : (s.setPort b x).plu = s.plu := rfl

/-! ### The work record -/

@[simp] theorem Work.start_st (s : State) : (Work.start s).st = s := rfl
@[simp] theorem Work.start_events (s : State) : (Work.start s).events = [] := rfl
@[simp] theorem Work.start_rewrites (s : State) : (Work.start s).rewrites = [] := rfl
@[simp] theorem Work.start_grantDue (s : State) : (Work.start s).grantDue = false := rfl
@[simp] theorem Work.start_restoreDue (s : State) : (Work.start s).restoreDue = false := rfl
@[simp] theorem Work.map_st (w : Work) (f) : (w.map f).st = f w.st := rfl
@[simp] theorem Work.map_events (w : Work) (f) : (w.map f).events = w.events := rfl
@[simp] theorem Work.raise_st (w : Work) (u e) : (w.raise u e).st = w.st := rfl
@[simp] theorem Work.raise_events (w : Work) (u e) : (w.raise u e).events = w.events ++ [⟨some u, e⟩] := rfl
@[simp] theorem Work.raiseDirect_st (w : Work) (e) : (w.raiseDirect e).st = w.st := rfl
@[simp] theorem Work.raiseDirect_events (w : Work) (e) : (w.raiseDirect e).events = w.events ++ [⟨none, e⟩] := rfl
@[simp] theorem Work.rewrite_st (w : Work) (l) : (w.rewrite l).st = w.st := rfl
@[simp] theorem Work.rewrite_events (w : Work) (l) : (w.rewrite l).events = w.events := rfl
@[simp] theorem Work.dueGrant_st (w : Work) : w.dueGrant.st = w.st := rfl
@[simp] theorem Work.dueRestore_st (w : Work) : w.dueRestore.st = w.st := rfl
@[simp] theorem Work.setZiu_st (w : Work) (z) : (w.setZiu z).st = w.st.setZiu z := rfl
@[simp] theorem Work.setTmc_st (w : Work) (x) : (w.setTmc x).st = w.st.setTmc x := rfl
@[simp] theorem Work.setTbp_st (w : Work) (x) : (w.setTbp x).st = w.st.setTbp x := rfl
@[simp] theorem Work.setPbu_st (w : Work) (x) : (w.setPbu x).st = w.st.setPbu x := rfl
@[simp] theorem Work.setFtu_st (w : Work) (x) : (w.setFtu x).st = w.st.setFtu x := rfl
@[simp] theorem Work.setLink_st (w : Work) (b l) : (w.setLink b l).st = w.st.setLink b l := rfl
@[simp] theorem Work.setBlade_st (w : Work) (b x) : (w.setBlade b x).st = w.st.setBlade b x := rfl
@[simp] theorem Work.setPort_st (w : Work) (p x) : (w.setPort p x).st = w.st.setPort p x := rfl

/-! ### The outcome of a command -/

/-- Outside the SWQ, the TMC and the EVU, publication leaves what the command's work reached. -/
@[simp] theorem publish_swq (o : State) (w : Work) : (publish o w).swq = (publishState o w).swq := rfl
@[simp] theorem publish_tmc (o : State) (w : Work) : (publish o w).tmc = (publishState o w).tmc := rfl
@[simp] theorem publish_evu (o : State) (w : Work) : (publish o w).evu = (publishState o w).evu := rfl
@[simp] theorem publish_pending (o : State) (w : Work) : (publish o w).pending = w.st.pending := rfl
@[simp] theorem publish_now (o : State) (w : Work) : (publish o w).now = w.st.now := rfl
@[simp] theorem publish_pins (o : State) (w : Work) : (publish o w).pins = w.st.pins := rfl
@[simp] theorem publish_tbp (o : State) (w : Work) : (publish o w).tbp = w.st.tbp := rfl
@[simp] theorem publish_ziu (o : State) (w : Work) : (publish o w).ziu = w.st.ziu := rfl
@[simp] theorem publish_blc (o : State) (w : Work) : (publish o w).blc = w.st.blc := rfl
@[simp] theorem publish_pau (o : State) (w : Work) : (publish o w).pau = w.st.pau := rfl
@[simp] theorem publish_lu (o : State) (w : Work) : (publish o w).lu = w.st.lu := rfl
@[simp] theorem publish_pbu (o : State) (w : Work) : (publish o w).pbu = w.st.pbu := rfl
@[simp] theorem publish_ftu (o : State) (w : Work) : (publish o w).ftu = w.st.ftu := rfl
@[simp] theorem publish_plu (o : State) (w : Work) : (publish o w).plu = w.st.plu := rfl

/-- A finished command always answers a next state. -/
theorem finish_eq (o : State) (w : Work) : finish o w = .next (publish o w) := rfl

/-- A command whose occasion is given does its work. -/
theorem act_of_occasion {c : Bool} (s : State) (op : Work → Work) (h : c = true) :
    act c s op = .next (publish s (op (Work.start s))) := by simp [act, h, finish]

/-- A command without its occasion changes nothing. -/
theorem act_of_not {c : Bool} (s : State) (op : Work → Work) (h : c = false) : act c s op = .next s := by simp [act, h]

/-- A command of this kind answers a next state in every state. -/
theorem act_next (c : Bool) (s : State) (op : Work → Work) : ∃ t, act c s op = .next t := by
  cases c
  · exact ⟨s, rfl⟩
  · exact ⟨_, rfl⟩

end Sys2Proof.Machine
end

