-- ==== Sys2Proof/Laws/Tables.lean ====
section
/-! SUPPORT. The laws of the tables: sparse tables keep their canonical form and read back what was put, table
memory byte for byte, and tables of fixed size. -/

set_option Elab.async false

namespace Sys2Proof.Machine

/-! ### Sparse tables -/

section Sparse

variable {α : Type} [DecidableEq α] (d : α)

theorem sparseWfFrom_mono {lo lo' : Nat} (h : lo' ≤ lo) : ∀ m : List (Nat × α), sparseWfFrom d lo m = true → sparseWfFrom d lo' m = true
  | [], _ => rfl
  | (k, v) :: rest, hw => by
    simp only [sparseWfFrom, Bool.and_eq_true, decide_eq_true_eq] at hw ⊢
    exact ⟨⟨le_trans h hw.1.1, hw.1.2⟩, hw.2⟩

/-- Putting keeps the canonical form above any bound below the key. -/
theorem sparseWfFrom_put (i : Nat) (x : α) : ∀ (m : List (Nat × α)) (lo : Nat), lo ≤ i → sparseWfFrom d lo m = true →
    sparseWfFrom d lo (sparsePut d i x m) = true
  | [], lo, hi, _ => by
    by_cases hx : x = d <;> simp [sparsePut, sparseWfFrom, hx, hi]
  | (k, v) :: rest, lo, hi, hw => by
    have hw' := hw
    simp only [sparseWfFrom, Bool.and_eq_true, decide_eq_true_eq] at hw
    obtain ⟨⟨hlo, hv⟩, hrest⟩ := hw
    unfold sparsePut
    by_cases h1 : i < k
    · by_cases hx : x = d
      · simpa [h1, hx] using hw'
      · simp [h1, hx, sparseWfFrom, hi, hv, hrest]
    · by_cases h2 : k = i
      · subst h2
        by_cases hx : x = d
        · simp only [lt_irrefl, if_false, if_true, hx]
          exact sparseWfFrom_mono d (by omega) rest hrest
        · simp [hx, sparseWfFrom, hlo, hrest]
      · simp only [h1, h2, if_false, sparseWfFrom, Bool.and_eq_true, decide_eq_true_eq]
        exact ⟨⟨hlo, hv⟩, sparseWfFrom_put i x rest (k + 1) (by omega) hrest⟩

/-- Putting keeps the canonical form. -/
theorem sparseWf_put (i : Nat) (x : α) (m : List (Nat × α)) (h : sparseWf d m = true) : sparseWf d (sparsePut d i x m) = true :=
  sparseWfFrom_put d i x m 0 (Nat.zero_le _) h

theorem sparseGet_of_lt {lo : Nat} : ∀ (m : List (Nat × α)) {j : Nat}, sparseWfFrom d lo m = true → j < lo → sparseGet d m j = d
  | [], _, _, _ => rfl
  | (k, v) :: rest, j, hw, hj => by
    simp only [sparseWfFrom, Bool.and_eq_true, decide_eq_true_eq] at hw
    have hk : k ≠ j := by omega
    simp only [sparseGet, hk, if_false]
    exact sparseGet_of_lt rest hw.2 (by omega)

/-- In a canonical table a put is read back at its key, and every other key reads as before. -/
theorem sparseGet_put (i j : Nat) (x : α) : ∀ (m : List (Nat × α)) (lo : Nat), sparseWfFrom d lo m = true →
    sparseGet d (sparsePut d i x m) j = if j = i then x else sparseGet d m j
  | [], _, _ => by
    by_cases hx : x = d <;> by_cases hj : j = i <;> simp [sparsePut, sparseGet, hx, hj, eq_comm]
    intro h; exact absurd h.symm hj
  | (k, v) :: rest, lo, hw => by
    simp only [sparseWfFrom, Bool.and_eq_true, decide_eq_true_eq] at hw
    obtain ⟨⟨_, _⟩, hrest⟩ := hw
    have ih := sparseGet_put i j x rest (k + 1) hrest
    unfold sparsePut
    by_cases h1 : i < k
    · by_cases hx : x = d
      · by_cases hj : j = i
        · subst hj
          have hkj : k ≠ j := by omega
          simp [h1, hx, sparseGet, hkj, sparseGet_of_lt d rest hrest (show j < k + 1 by omega)]
        · simp [h1, hx, sparseGet, hj]
      · by_cases hj : j = i
        · subst hj; simp [h1, hx, sparseGet]
        · have : i ≠ j := fun h => hj h.symm
          simp [h1, hx, sparseGet, hj, this]
    · by_cases h2 : k = i
      · subst h2
        by_cases hj : j = k
        · subst hj
          by_cases hx : x = d
          · simp [hx, sparseGet_of_lt d rest hrest (show j < j + 1 by omega)]
          · simp [hx, sparseGet]
        · have hkj : k ≠ j := fun h => hj h.symm
          by_cases hx : x = d <;> simp [hx, sparseGet, hj, hkj]
      · by_cases hj : j = k
        · subst hj
          simp [h1, h2, sparseGet]
        · have hkj : k ≠ j := fun h => hj h.symm
          simp only [h1, h2, if_false, sparseGet, hkj]
          exact ih

end Sparse

/-! ### Table memory -/

theorem Memory.write_wf (m : Memory) (a : Nat) (b : Byte) (h : m.wf = true) : (m.write a b).wf = true :=
  sparseWf_put 0#8 a b m h

/-- A byte written is read back, and every other byte reads as before. -/
theorem Memory.read_write (m : Memory) (a : Nat) (b : Byte) (h : m.wf = true) (j : Nat) :
    (m.write a b).read j = if j = a then b else m.read j := sparseGet_put 0#8 a j b m 0 h

theorem Memory.writeMasked_wf : ∀ (bytes : List (Option Byte)) (m : Memory) (a : Nat), m.wf = true → (m.writeMasked a bytes).wf = true
  | [], _, _, h => h
  | some b :: rest, m, a, h => Memory.writeMasked_wf rest (m.write a b) (a + 1) (m.write_wf a b h)
  | none :: rest, m, a, h => Memory.writeMasked_wf rest m (a + 1) h

/-- After a masked write a byte holds the byte written if it was enabled, and otherwise what it held before. -/
theorem Memory.read_writeMasked : ∀ (bytes : List (Option Byte)) (m : Memory) (a : Nat), m.wf = true → ∀ j,
    (m.writeMasked a bytes).read j = if a ≤ j then ((bytes.getD (j - a) none).getD (m.read j)) else m.read j
  | [], m, a, _, j => by simp [Memory.writeMasked]
  | x :: rest, m, a, h, j => by
    cases x with
    | none =>
      rw [Memory.writeMasked, Memory.read_writeMasked rest m (a + 1) h j]
      rcases lt_trichotomy j a with hj | hj | hj
      · simp [show ¬ a ≤ j by omega, show ¬ a + 1 ≤ j by omega]
      · subst hj; simp
      · obtain ⟨k, rfl⟩ : ∃ k, j = a + 1 + k := ⟨j - (a + 1), by omega⟩
        simp [show a ≤ a + 1 + k by omega, show a + 1 + k - a = k + 1 by omega]
    | some b =>
      rw [Memory.writeMasked, Memory.read_writeMasked rest (m.write a b) (a + 1) (m.write_wf a b h) j, m.read_write a b h j]
      rcases lt_trichotomy j a with hj | hj | hj
      · simp [show ¬ a ≤ j by omega, show ¬ a + 1 ≤ j by omega, show j ≠ a by omega]
      · subst hj; simp
      · obtain ⟨k, rfl⟩ : ∃ k, j = a + 1 + k := ⟨j - (a + 1), by omega⟩
        simp [show a ≤ a + 1 + k by omega, show a + 1 + k - a = k + 1 by omega, show a + 1 + k ≠ a by omega]

theorem Memory.readBytes_length : ∀ (n : Nat) (m : Memory) (a : Nat), (m.readBytes a n).length = n
  | 0, _, _ => rfl
  | n + 1, m, a => by simp [Memory.readBytes, Memory.readBytes_length n]

/-- Memory right after power-on reset is in canonical form and every byte of it reads 0. -/
theorem State.reset_mem_wf : State.reset.tmc.mem.wf = true := rfl

theorem State.reset_mem_read (a : Nat) : State.reset.tmc.mem.read a = 0#8 := rfl

/-! ### Tables of fixed size -/

@[simp] theorem Vector.get_put {α : Type} {n : Nat} (v : Vector α n) (i j : Fin n) (x : α) :
    (Vector.put v i x).get j = if j = i then x else v.get j := by
  change (v.set i.1 x i.2)[j.1]'j.2 = _
  rw [Vector.getElem_set]
  by_cases h : i = j
  · subst h; simp
  · have h1 : i.1 ≠ j.1 := fun e => h (Fin.ext e)
    simp only [h1, if_false, if_neg (fun e : j = i => h e.symm)]
    rfl

theorem mem_indicesFrom {n : Nat} : ∀ (k : Nat) (h : k ≤ n) (acc : List (Fin n)) (i : Fin n),
    i ∈ indicesFrom n k h acc ↔ i.1 < k ∨ i ∈ acc
  | 0, _, acc, i => by simp [indicesFrom]
  | k + 1, h, acc, i => by
    rw [indicesFrom, mem_indicesFrom k (Nat.le_of_succ_le h)]
    constructor
    · rintro (hk | hm)
      · exact .inl (by omega)
      · rcases List.mem_cons.1 hm with rfl | hm
        · exact .inl (Nat.lt_succ_self _)
        · exact .inr hm
    · rintro (hk | hm)
      · by_cases he : i.1 = k
        · exact .inr (List.mem_cons.2 (.inl (Fin.ext he)))
        · exact .inl (by omega)
      · exact .inr (List.mem_cons.2 (.inr hm))

/-- Every index of a table is listed. -/
@[simp] theorem mem_indices {n : Nat} (i : Fin n) : i ∈ indices n := by simp [indices, mem_indicesFrom, i.2]

theorem nodup_indicesFrom {n : Nat} : ∀ (k : Nat) (h : k ≤ n) (acc : List (Fin n)), acc.Nodup → (∀ i ∈ acc, k ≤ i.1) →
    (indicesFrom n k h acc).Nodup
  | 0, _, _, ha, _ => ha
  | k + 1, h, acc, ha, hk => by
    refine nodup_indicesFrom k (Nat.le_of_succ_le h) _ (List.nodup_cons.2 ⟨fun hm => ?_, ha⟩) ?_
    · have := hk _ hm; simp at this
    · intro i hi
      rcases List.mem_cons.1 hi with rfl | hi
      · simp
      · have := hk i hi; omega

/-- No index is listed twice. -/
theorem nodup_indices (n : Nat) : (indices n).Nodup := nodup_indicesFrom n _ [] List.nodup_nil (by simp)

theorem foldl_put_get {α : Type} {n : Nat} (f : Fin n → α → α) : ∀ (l : List (Fin n)) (v : Vector α n) (i : Fin n), l.Nodup →
    (l.foldl (fun acc i => Vector.put acc i (f i (acc.get i))) v).get i = if i ∈ l then f i (v.get i) else v.get i
  | [], v, i, _ => by simp
  | a :: l, v, i, h => by
    obtain ⟨ha, hl⟩ := List.nodup_cons.1 h
    rw [List.foldl_cons, foldl_put_get f l _ i hl]
    by_cases hi : i = a
    · subst hi; simp [ha]
    · simp [hi]

/-- A change applied to every element is read at each index. -/
@[simp] theorem Vector.get_mapIx {α : Type} {n : Nat} (v : Vector α n) (f : Fin n → α → α) (i : Fin n) :
    (Vector.mapIx v f).get i = f i (v.get i) := by
  simp [Vector.mapIx, foldl_put_get f (indices n) v i (nodup_indices n)]

/-! ### Links, blades and ports -/

@[simp] theorem State.link_setLink (s : State) (b c : Slot) (l : Link) : (s.setLink b l).link c = if c = b then l else s.link c := by
  simp [State.link, State.setLink]

@[simp] theorem State.blade_setBlade (s : State) (b c : Slot) (x : Blade) :
    (s.setBlade b x).blade c = if c = b then x else s.blade c := by
  simp [State.blade, State.setBlade]

@[simp] theorem State.port_setPort (s : State) (p q : PortRef) (x : Port) :
    (s.setPort p x).port q = if q = p then x else s.port q := by
  obtain ⟨ps, pp⟩ := p; obtain ⟨qs, qp⟩ := q
  simp only [State.port, State.setPort, State.setPau_pau, Vector.get_put, PortRef.mk.injEq]
  by_cases h : qs = ps
  · subst h; simp
  · simp [h]

@[simp] theorem State.blade_setPort (s : State) (p : PortRef) (x : Port) (b : Slot) : (s.setPort p x).blade b = s.blade b := rfl
@[simp] theorem State.port_setBlade (s : State) (p : PortRef) (b : Slot) (x : Blade) : (s.setBlade b x).port p = s.port p := rfl
@[simp] theorem State.link_setBlade (s : State) (b c : Slot) (x : Blade) : (s.setBlade b x).link c = s.link c := rfl
@[simp] theorem State.link_setPort (s : State) (p : PortRef) (x : Port) (c : Slot) : (s.setPort p x).link c = s.link c := rfl
@[simp] theorem State.blade_setLink (s : State) (b c : Slot) (l : Link) : (s.setLink b l).blade c = s.blade c := rfl
@[simp] theorem State.port_setLink (s : State) (b : Slot) (l : Link) (p : PortRef) : (s.setLink b l).port p = s.port p := rfl

/-! ### Little-endian fields -/

@[simp] theorem leBytes_length : ∀ w n : Nat, (leBytes w n).length = w
  | 0, _ => rfl
  | w + 1, n => by simp [leBytes, leBytes_length w]

/-- A number written as `w` bytes reads back as itself modulo 256 to the `w`. -/
theorem leNat_leBytes : ∀ w n : Nat, leNat (leBytes w n) = n % 256 ^ w
  | 0, n => by simp [leBytes, leNat, Nat.mod_one]
  | w + 1, n => by
    simp only [leBytes, leNat, leNat_leBytes w, byteOf, BitVec.toNat_ofNat]
    rw [show 256 ^ (w + 1) = 256 * 256 ^ w from Nat.pow_succ', Nat.mod_mul]

end Sys2Proof.Machine
end

