-- ==== Sys2Proof/Laws/Settling.lean ====
section
/-! SUPPORT. What the settling of an event can do, said once: the budget, the grant round and the restore process
change port states, granted configurations, queues and lists, budget figures, and the blades that wait for power with
their links, and nothing else. -/

set_option Elab.async false

namespace Sys2Proof.Machine

/-- What a link keeps while orders pass through it. -/
structure LinkKept (l m : Link) : Prop where
  state : m.state = l.state
  helloAt : m.helloAt = l.helloAt
  keepAt : m.keepAt = l.keepAt
  holdoffAt : m.holdoffAt = l.holdoffAt
  portCount : m.portCount = l.portCount
  fetches : m.fetches = l.fetches
  losses : m.losses = l.losses
  errors : m.errors = l.errors

theorem LinkKept.refl (l : Link) : LinkKept l l := ⟨rfl, rfl, rfl, rfl, rfl, rfl, rfl, rfl⟩

theorem LinkKept.trans {l m n : Link} (h : LinkKept l m) (k : LinkKept m n) : LinkKept l n :=
  ⟨k.1.trans h.1, k.2.trans h.2, k.3.trans h.3, k.4.trans h.4, k.5.trans h.5, k.6.trans h.6, k.7.trans h.7, k.8.trans h.8⟩

/-- What a port record keeps while its state moves: what the control processor asked for and the optic class. -/
structure PortKept (x y : Port) : Prop where
  desired : y.desired = x.desired
  request : y.request = x.request
  priority : y.priority = x.priority
  optic : y.optic = x.optic
  lastSeq : y.lastSeq = x.lastSeq

theorem PortKept.refl (x : Port) : PortKept x x := ⟨rfl, rfl, rfl, rfl, rfl⟩

theorem PortKept.trans {x y z : Port} (h : PortKept x y) (k : PortKept y z) : PortKept x z :=
  ⟨k.1.trans h.1, k.2.trans h.2, k.3.trans h.3, k.4.trans h.4, k.5.trans h.5⟩

/-- What settling leaves of a state: the units that take no part in it, and the records it does not write. -/
structure Settled (s t : State) : Prop where
  pending : t.pending = s.pending
  now : t.now = s.now
  pins : t.pins = s.pins
  tmc : t.tmc = s.tmc
  tbp : t.tbp = s.tbp
  swq : t.swq = s.swq
  ziu : t.ziu = s.ziu
  ftu : t.ftu = s.ftu
  evu : t.evu = s.evu
  plu : t.plu = s.plu
  portUnits : t.lu.portUnits = s.lu.portUnits
  xdPorts : t.lu.xdPorts = s.lu.xdPorts
  reserves : t.lu.reserves = s.lu.reserves
  slots : t.lu.slots = s.lu.slots
  fifo : t.lu.fifo = s.lu.fifo
  program : t.lu.program = s.lu.program
  psus : t.pbu.psus = s.pbu.psus
  derate : t.pbu.derate = s.pbu.derate
  hold : t.pbu.hold = s.pbu.hold
  blade : ∀ b, (s.blade b).state ≠ .waitPower → t.blade b = s.blade b
  link : ∀ b, (s.blade b).state ≠ .waitPower → LinkKept (s.link b) (t.link b)
  port : ∀ p, PortKept (s.port p) (t.port p)

theorem Settled.refl (s : State) : Settled s s where
  pending := rfl
  now := rfl
  pins := rfl
  tmc := rfl
  tbp := rfl
  swq := rfl
  ziu := rfl
  ftu := rfl
  evu := rfl
  plu := rfl
  portUnits := rfl
  xdPorts := rfl
  reserves := rfl
  slots := rfl
  fifo := rfl
  program := rfl
  psus := rfl
  derate := rfl
  hold := rfl
  blade _ _ := rfl
  link _ _ := .refl _
  port _ := .refl _

theorem Settled.trans {s t u : State} (h : Settled s t) (k : Settled t u) : Settled s u where
  pending := k.pending.trans h.pending
  now := k.now.trans h.now
  pins := k.pins.trans h.pins
  tmc := k.tmc.trans h.tmc
  tbp := k.tbp.trans h.tbp
  swq := k.swq.trans h.swq
  ziu := k.ziu.trans h.ziu
  ftu := k.ftu.trans h.ftu
  evu := k.evu.trans h.evu
  plu := k.plu.trans h.plu
  portUnits := k.portUnits.trans h.portUnits
  xdPorts := k.xdPorts.trans h.xdPorts
  reserves := k.reserves.trans h.reserves
  slots := k.slots.trans h.slots
  fifo := k.fifo.trans h.fifo
  program := k.program.trans h.program
  psus := k.psus.trans h.psus
  derate := k.derate.trans h.derate
  hold := k.hold.trans h.hold
  blade b hb := by
    have e := h.blade b hb
    rw [k.blade b (by rw [e]; exact hb), e]
  link b hb := (h.link b hb).trans (k.link b (by rw [h.blade b hb]; exact hb))
  port p := (h.port p).trans (k.port p)

/-! ### Single changes -/

section Single

variable {s t : State}

theorem Settled.setPort (h : Settled s t) (p : PortRef) (x : Port) (hx : PortKept (t.port p) x := by exact ⟨rfl, rfl, rfl, rfl, rfl⟩) :
    Settled s (t.setPort p x) where
  pending := h.pending
  now := h.now
  pins := h.pins
  tmc := h.tmc
  tbp := h.tbp
  swq := h.swq
  ziu := h.ziu
  ftu := h.ftu
  evu := h.evu
  plu := h.plu
  portUnits := h.portUnits
  xdPorts := h.xdPorts
  reserves := h.reserves
  slots := h.slots
  fifo := h.fifo
  program := h.program
  psus := h.psus
  derate := h.derate
  hold := h.hold
  blade b hb := h.blade b hb
  link b hb := h.link b hb
  port q := by
    rw [State.port_setPort]
    by_cases e : q = p
    · subst e; simpa using (h.port q).trans hx
    · simpa [e] using h.port q

theorem Settled.setLink (h : Settled s t) (b : Slot) (l : Link) (hl : LinkKept (t.link b) l := by exact ⟨rfl, rfl, rfl, rfl, rfl, rfl, rfl, rfl⟩) :
    Settled s (t.setLink b l) where
  pending := h.pending
  now := h.now
  pins := h.pins
  tmc := h.tmc
  tbp := h.tbp
  swq := h.swq
  ziu := h.ziu
  ftu := h.ftu
  evu := h.evu
  plu := h.plu
  portUnits := h.portUnits
  xdPorts := h.xdPorts
  reserves := h.reserves
  slots := h.slots
  fifo := h.fifo
  program := h.program
  psus := h.psus
  derate := h.derate
  hold := h.hold
  blade b hb := h.blade b hb
  link c hc := by
    rw [State.link_setLink]
    by_cases e : c = b
    · subst e; simpa using (h.link c hc).trans hl
    · simpa [e] using h.link c hc
  port q := h.port q

/-- A blade that waits for power, and its link, may be changed. -/
theorem Settled.setLinkOfWaiting (h : Settled s t) (b : Slot) (hb : (s.blade b).state = .waitPower) (l : Link) :
    Settled s (t.setLink b l) where
  pending := h.pending
  now := h.now
  pins := h.pins
  tmc := h.tmc
  tbp := h.tbp
  swq := h.swq
  ziu := h.ziu
  ftu := h.ftu
  evu := h.evu
  plu := h.plu
  portUnits := h.portUnits
  xdPorts := h.xdPorts
  reserves := h.reserves
  slots := h.slots
  fifo := h.fifo
  program := h.program
  psus := h.psus
  derate := h.derate
  hold := h.hold
  blade b hb := h.blade b hb
  link c hc := by
    have e : c ≠ b := fun e => hc (e ▸ hb)
    simpa [e] using h.link c hc
  port q := h.port q

theorem Settled.setBladeOfWaiting (h : Settled s t) (b : Slot) (hb : (s.blade b).state = .waitPower) (x : Blade) :
    Settled s (t.setBlade b x) where
  pending := h.pending
  now := h.now
  pins := h.pins
  tmc := h.tmc
  tbp := h.tbp
  swq := h.swq
  ziu := h.ziu
  ftu := h.ftu
  evu := h.evu
  plu := h.plu
  portUnits := h.portUnits
  xdPorts := h.xdPorts
  reserves := h.reserves
  slots := h.slots
  fifo := h.fifo
  program := h.program
  psus := h.psus
  derate := h.derate
  hold := h.hold
  blade c hc := by
    have e : c ≠ b := fun e => hc (e ▸ hb)
    simpa [e] using h.blade c hc
  link c hc := h.link c hc
  port q := h.port q

theorem Settled.setLu (h : Settled s t) (x : Lu) (h1 : x.portUnits = t.lu.portUnits) (h2 : x.xdPorts = t.lu.xdPorts)
    (h3 : x.reserves = t.lu.reserves) (h4 : x.slots = t.lu.slots) (h5 : x.fifo = t.lu.fifo) (h6 : x.program = t.lu.program) :
    Settled s (t.setLu x) where
  pending := h.pending
  now := h.now
  pins := h.pins
  tmc := h.tmc
  tbp := h.tbp
  swq := h.swq
  ziu := h.ziu
  ftu := h.ftu
  evu := h.evu
  plu := h.plu
  portUnits := h1.trans h.portUnits
  xdPorts := h2.trans h.xdPorts
  reserves := h3.trans h.reserves
  slots := h4.trans h.slots
  fifo := h5.trans h.fifo
  program := h6.trans h.program
  psus := h.psus
  derate := h.derate
  hold := h.hold
  blade b hb := h.blade b hb
  link b hb := h.link b hb
  port q := h.port q

theorem Settled.setPbu (h : Settled s t) (x : Pbu) (h1 : x.psus = t.pbu.psus) (h2 : x.derate = t.pbu.derate) (h3 : x.hold = t.pbu.hold) :
    Settled s (t.setPbu x) where
  pending := h.pending
  now := h.now
  pins := h.pins
  tmc := h.tmc
  tbp := h.tbp
  swq := h.swq
  ziu := h.ziu
  ftu := h.ftu
  evu := h.evu
  plu := h.plu
  portUnits := h.portUnits
  xdPorts := h.xdPorts
  reserves := h.reserves
  slots := h.slots
  fifo := h.fifo
  program := h.program
  psus := h1.trans h.psus
  derate := h2.trans h.derate
  hold := h3.trans h.hold
  blade b hb := h.blade b hb
  link b hb := h.link b hb
  port q := h.port q

end Single

/-! ### The transmitter -/

theorem Link.takeOrder_kept (l : Link) : LinkKept l l.takeOrder := by
  unfold Link.takeOrder
  split
  · exact ⟨rfl, rfl, rfl, rfl, rfl, rfl, rfl, rfl⟩
  · exact .refl l

theorem Link.takeData_kept (l : Link) : LinkKept l l.takeData := by
  unfold Link.takeData
  split
  · exact ⟨rfl, rfl, rfl, rfl, rfl, rfl, rfl, rfl⟩
  · exact .refl l

/-- The transmitter changes no state, timer, window or count of its link. -/
theorem Link.pump_kept (l : Link) : LinkKept l l.pump := by
  unfold Link.pump
  split
  · exact .refl l
  · split
    · exact ⟨rfl, rfl, rfl, rfl, rfl, rfl, rfl, rfl⟩
    · split
      · exact ⟨rfl, rfl, rfl, rfl, rfl, rfl, rfl, rfl⟩
      · split
        · exact l.takeOrder_kept
        · split
          · split
            · exact l.takeOrder_kept
            · exact .refl l
          · exact l.takeData_kept

theorem Settled.pumpLink {s t : State} (h : Settled s t) (b : Slot) : Settled s (pumpLink t b) :=
  h.setLink b _ (Link.pump_kept _)

theorem Settled.handOrder {s t : State} (h : Settled s t) (b : Slot) (o : Order) : Settled s (handOrder t b o) := by
  unfold Sys2Proof.Machine.handOrder
  split
  · exact (h.setLink b _).pumpLink b
  · exact h

/-! ### Port operations -/

theorem settled_ite_fst {s : State} {β : Type} {c : Prop} [Decidable c] {a b : Work × β} (ha : Settled s a.1.st)
    (hb : Settled s b.1.st) : Settled s (if c then a else b).1.st := by
  split
  · exact ha
  · exact hb

/-- A choice between two works settles when both do. -/
theorem settled_ite {s : State} {c : Prop} [Decidable c] {a b : Work} (ha : Settled s a.st) (hb : Settled s b.st) :
    Settled s (if c then a else b).st := by
  split
  · exact ha
  · exact hb

section Ports

variable {s : State} {w : Work}

theorem settled_orderPort (h : Settled s w.st) (p a c) : Settled s (orderPort w p a c).st := h.handOrder _ _

theorem settled_raisePort (h : Settled s w.st) (p c v a) : Settled s (raisePort w p c v a).st := h

theorem settled_released (h : Settled s w.st) (x : Port) : Settled s (released w x).st := by
  unfold released
  dsimp only
  split <;> split <;> exact h

theorem settled_joinLicence (h : Settled s w.st) (p u) : Settled s (joinLicence w p u).st := by
  have h1 := h.setPort p { w.st.port p with state := .waitLicense } 
  exact h1.setLu _ rfl rfl rfl rfl rfl rfl

theorem settled_leaveLicence (h : Settled s w.st) (p) : Settled s (leaveLicence w p).st := by
  have h1 : Settled s (w.st.setQueue p.slot ((w.st.queue p.slot).filter (fun e => decide (e.port ≠ p.port)))) :=
    h.setLu _ rfl rfl rfl rfl rfl rfl
  unfold leaveLicence
  dsimp only
  split <;> exact h1

theorem settled_joinPower (h : Settled s w.st) (p) : Settled s (joinPower w p).st := by
  have h1 := h.setPort p { w.st.port p with state := .waitPower } 
  exact h1.setPbu _ rfl rfl rfl

theorem settled_leavePower (h : Settled s w.st) (p) : Settled s (leavePower w p).st := h.setPbu _ rfl rfl rfl

theorem settled_leaveWait (h : Settled s w.st) (p) : Settled s (leaveWait w p).st := by
  unfold leaveWait
  split
  · exact settled_leaveLicence h p
  · exact settled_leavePower h p
  · exact h

theorem settled_toOffline (h : Settled s w.st) (p c) : Settled s (toOffline w p c).st :=
  settled_released (w := w.setPort p { w.st.port p with state := .offline, cause := c, leaving := .clear, granted := none })
    (h.setPort p { w.st.port p with state := .offline, cause := c, leaving := .clear, granted := none }) _

theorem settled_toShed (h : Settled s w.st) (p c) : Settled s (toShed w p c).st := by
  have h1 := h.setPort p { w.st.port p with state := .shed, cause := c, leaving := .clear } 
  unfold toShed
  refine settled_raisePort ?_ _ _ _ _
  split <;> exact h1

theorem settled_toGoingDown (h : Settled s w.st) (p c) : Settled s (toGoingDown w p c).st := by
  have h1 := h.setPort p { w.st.port p with state := .goingDown, cause := c, leaving := .clear } 
  unfold toGoingDown
  dsimp only
  split
  · exact settled_orderPort h1 _ _ _
  · exact h1

theorem settled_toGoingUp (h : Settled s w.st) (p c a) : Settled s (toGoingUp w p c a).st :=
  settled_orderPort (w := w.setPort p { w.st.port p with state := .goingUp, cause := .none, granted := some c })
    (h.setPort p { w.st.port p with state := .goingUp, cause := .none, granted := some c }) _ _ _

theorem settled_refusePort (h : Settled s w.st) (p c) : Settled s (refusePort w p c).st := by
  have h1 := h.setPort p { w.st.port p with cause := c }
  show Settled s (if (w.st.port p).state = .goingDown ∨ (w.st.port p).state = .shed then w
    else w.setPort p { w.st.port p with cause := c }).st
  split
  · exact h
  · exact h1

theorem settled_chargePort (h : Settled s w.st) (p c) : Settled s (chargePort w p c).st := by
  unfold chargePort
  split
  · have h1 := h.setPort p { w.st.port p with granted := some c }
    exact settled_toShed (w := w.setPort p { w.st.port p with granted := some c }) h1 _ _
  · exact settled_toGoingUp h _ _ _

theorem settled_refuseXd (h : Settled s w.st) (p) : Settled s (refuseXd w p).st :=
  settled_raisePort (w := w.setPort p { w.st.port p with state := .offline, cause := .noXdLicense })
    (h.setPort p { w.st.port p with state := .offline, cause := .noXdLicense }) _ _ _ _

theorem settled_decideAdmission (h : Settled s w.st) (p c l q) : Settled s (decideAdmission w p c l q).st := by
  unfold decideAdmission
  split
  · split
    · exact settled_chargePort h _ _
    · exact settled_joinPower h _
  · exact settled_joinLicence h _ _

theorem settled_admitPort (h : Settled s w.st) (p) : Settled s (admitPort w p).st := by
  unfold admitPort
  dsimp only
  split
  · exact h
  · split
    · exact settled_refuseXd h _
    · exact settled_decideAdmission h _ _ _ _

theorem settled_completeMove (h : Settled s w.st) (p l q) : Settled s (completeMove w p l q).st := by
  unfold completeMove
  split
  · exact h
  · split
    · exact settled_refuseXd h _
    · exact settled_decideAdmission h _ _ _ _

theorem settled_leavePort (h : Settled s w.st) (p c) : Settled s (leavePort w p c).st := by
  unfold leavePort
  split
  · exact settled_toGoingDown h _ _
  · exact h.setPort p { w.st.port p with leaving := c.flag }
  · exact h

theorem settled_restorePort (h : Settled s w.st) (p) : Settled s (restorePort w p).st := by
  unfold restorePort
  split
  · exact settled_raisePort (settled_toGoingUp h _ _ _) _ _ _ _
  · exact h

end Ports

/-! ### The grant round -/

theorem settled_grantHead {s : State} {w : Work} (h : Settled s w.st) (b e) : Settled s (grantHead w b e).st := by
  unfold grantHead
  exact settled_completeMove (w := w.map fun s => s.setQueue b (s.queue b).tail) (h.setLu _ rfl rfl rfl rfl rfl rfl) _ _ _

theorem settled_reservePass {s : State} {w : Work} (h : Settled s w.st) : Settled s (reservePass w).1.st := by
  unfold reservePass
  suffices H : ∀ (l : List Slot) (acc : Work × Bool), Settled s acc.1.st → Settled s (l.foldl reserveStep acc).1.st from
    H _ (w, false) h
  intro l
  induction l with
  | nil => exact fun _ h => h
  | cons b l ih =>
    intro acc ha
    refine ih _ ?_
    unfold reserveStep
    split
    · split
      · exact settled_grantHead ha _ _
      · exact ha
    · exact ha

theorem settled_roundFrom {s : State} : ∀ (n : Nat) (w : Work), Settled s w.st → Settled s (roundFrom n w).st
  | 0, _, h => h
  | n + 1, w, h => by
    unfold roundFrom
    dsimp only
    split
    · exact settled_roundFrom n _ (settled_reservePass h)
    · split
      · exact h
      · have h1 : ∀ c, Settled s (w.map fun s => s.setLu { s.lu with counters := c }).st :=
          fun c => Settled.setLu h _ rfl rfl rfl rfl rfl rfl
        split
        · exact settled_roundFrom n _ (settled_grantHead (h1 _) _ _)
        · exact h1 _

theorem settled_grantRound {s : State} {w : Work} (h : Settled s w.st) : Settled s (grantRound w).st := by
  have h1 := settled_roundFrom (w.st.queued + 1) w h
  unfold grantRound
  generalize roundFrom (w.st.queued + 1) w = r at h1 ⊢
  exact h1

theorem settled_grantIfDue {s : State} {w : Work} (h : Settled s w.st) : Settled s (grantIfDue w).st := by
  unfold grantIfDue
  split
  · exact settled_grantRound h
  · exact h

/-! ### The budget -/

theorem settled_selectShed {s : State} (a : Nat) : ∀ (l : List (PortRef × Port)) (p n : Nat) (w : Work), Settled s w.st →
    Settled s (selectShed a l p n w).1.st
  | [], _, _, _, h => h
  | (p, x) :: rest, q, n, w, h => by
    unfold selectShed
    split
    · exact h
    · exact settled_selectShed a rest _ _ _ (settled_leavePort h _ _)

theorem settled_raiseBudget {s : State} {w : Work} (h : Settled s w.st) (o n) : Settled s (raiseBudget w o n).st := h

theorem settled_setCritical {s : State} {w : Work} (c : Bool) (h : Settled s w.st) : Settled s (setCritical w c).st := by
  unfold setCritical
  split
  · exact h
  · exact Settled.setPbu h _ rfl rfl rfl

theorem settled_shedSelection {s : State} {w : Work} (r) (h : Settled s w.st) : Settled s (shedSelection r w).st := by
  have h1 := settled_selectShed w.st.pbu.available (shedOrder (shedCandidates w.st r)) w.st.projected 0 w h
  have h3 := settled_ite (c := 0 < (selectShed w.st.pbu.available (shedOrder (shedCandidates w.st r)) w.st.projected 0 w).2.1)
    (settled_raiseBudget h1 .shed (selectShed w.st.pbu.available (shedOrder (shedCandidates w.st r)) w.st.projected 0 w).2.1) h1
  exact settled_setCritical _ h3

theorem settled_computeBudget {s : State} {w : Work} (r e) (h : Settled s w.st) : Settled s (computeBudget r e w).st := by
  have h1 : Settled s (w.setPbu (computeFigures w.st)).st := Settled.setPbu h _ rfl rfl rfl
  have h3 := settled_ite (c := e = true) (settled_raiseBudget h1 .holdEnded 0) h1
  have h4 := settled_ite (c := (computeFigures w.st).redundancyLost ≠ w.st.pbu.redundancyLost)
    (settled_raiseBudget h3 (if (computeFigures w.st).redundancyLost then .redundancyRaised else .redundancyCleared) 0) h3
  exact settled_ite (settled_shedSelection r h4) (settled_setCritical false h4)

theorem settled_budgetStep {s : State} {w : Work} (r) (h : Settled s w.st) : Settled s (budgetStep r w).st := by
  unfold budgetStep
  split
  · exact h
  · exact settled_computeBudget r _ h

/-! ### The restore process -/

/-- Powering a blade that waits for power changes that blade and its link alone. -/
theorem settled_powerBlade {s : State} {w : Work} (h : Settled s w.st) (b : Slot) (hb : (s.blade b).state = .waitPower) :
    Settled s (powerBlade w b).st := by
  have h1 : ∀ x, Settled s (moveBlade w b x).st := by
    intro x
    have hx := h.setBladeOfWaiting b hb { x with powerEn := x.state.powered }
    unfold moveBlade
    dsimp only
    split <;> exact hx
  unfold powerBlade
  show Settled s (startLink _ b)
  unfold startLink
  dsimp only
  split
  · exact (h1 _).setLinkOfWaiting b hb _
  · exact h1 _

theorem settled_restoreBlades {s : State} : ∀ (l : List Slot) (w : Work), (∀ b ∈ l, (s.blade b).state = .waitPower) →
    Settled s w.st → Settled s (restoreBlades l w).1.st
  | [], _, _, h => h
  | b :: rest, w, hl, h => by
    unfold restoreBlades
    split
    · exact settled_restoreBlades rest _ (fun c hc => hl c (List.mem_cons_of_mem _ hc))
        (settled_powerBlade h b (hl b List.mem_cons_self))
    · exact h

theorem settled_restoreShed {s : State} : ∀ (l : List PortRef) (w : Work), Settled s w.st → Settled s (restoreShed l w).1.st
  | [], _, h => h
  | p :: rest, w, h => by
    unfold restoreShed
    exact settled_ite_fst (settled_restoreShed rest _ (settled_restorePort h p)) h

theorem settled_restoreWaiting {s : State} : ∀ (l : List PowerWait) (w : Work), Settled s w.st → Settled s (restoreWaiting l w).st
  | [], _, h => h
  | e :: rest, w, h => by
    unfold restoreWaiting
    exact settled_ite (settled_restoreWaiting rest _ h)
      (settled_ite (settled_restoreWaiting rest _ (settled_completeMove (settled_leavePower h _) _ _ _)) h)

theorem settled_restoreProcess {s : State} {w : Work} (h : Settled s w.st)
    (hb : ∀ b, (w.st.blade b).state = .waitPower → (s.blade b).state = .waitPower) : Settled s (restoreProcess w).st := by
  have h1 : Settled s (restoreBlades w.st.bladeWait w).1.st := settled_restoreBlades _ w (fun b hm => hb b (by
    simpa [State.bladeWait] using hm)) h
  unfold restoreProcess
  dsimp only
  split
  · split
    · exact settled_restoreWaiting _ _ (settled_restoreShed _ _ h1)
    · exact settled_restoreShed _ _ h1
  · exact h1

/-- A state that has settled shows no blade waiting for power that did not wait before. -/
theorem Settled.waits {s t : State} (h : Settled s t) (b : Slot) (hb : (t.blade b).state = .waitPower) :
    (s.blade b).state = .waitPower := by
  by_contra hn
  rw [h.blade b hn] at hb
  exact hn hb

theorem settled_restoreDueNow {s : State} {w : Work} (h : Settled s w.st) : Settled s (restoreDueNow w).st := by
  unfold restoreDueNow
  split
  · exact h.setPbu _ rfl rfl rfl
  · split
    · exact h
    · exact settled_restoreProcess h (fun b => h.waits b)

theorem settled_restoreIfDue {s : State} {w : Work} (h : Settled s w.st) : Settled s (restoreIfDue w).st := by
  unfold restoreIfDue
  split
  · exact settled_restoreDueNow h
  · exact h

/-- Settling: the budget, then the grant round, then the restore process. -/
theorem settled_settle {s : State} {w : Work} (h : Settled s w.st) : Settled s (settle w).st :=
  settled_restoreIfDue (settled_grantIfDue (settled_budgetStep none h))

/-- What settling leaves of the state that a command's work has reached. -/
theorem settle_settled (w : Work) : Settled w.st (settle w).st := settled_settle (.refl _)

end Sys2Proof.Machine
end

