-- ==== Sys2Proof/Laws/Ports.lean ====
section
/-! SUPPORT. What becomes of one port while others move, said once: an operation on another port leaves its record and keeps
it out of the queues and the wait list; the settling of an event can only select it in a shed. And the operations on all
the ports of a blade are settled in the sense of Laws/Settling. -/

set_option Elab.async false

namespace Sys2Proof.Machine

/-- What an operation on other ports leaves of a port: its record, and its place outside the queues and the list. -/
structure Apart (p : PortRef) (s t : State) : Prop where
  port : t.port p = s.port p
  queue : ∀ e ∈ t.queue p.slot, e.port = p.port → e ∈ s.queue p.slot
  wait : ∀ e ∈ t.pbu.waitList, e.port = p → e ∈ s.pbu.waitList

theorem Apart.refl (p : PortRef) (s : State) : Apart p s s := ⟨rfl, fun _ h _ => h, fun _ h _ => h⟩

theorem Apart.trans {p : PortRef} {s t u : State} (h : Apart p s t) (k : Apart p t u) : Apart p s u :=
  ⟨k.port.trans h.port, fun e he hp => h.queue e (k.queue e he hp) hp, fun e he hp => h.wait e (k.wait e he hp) hp⟩

theorem Apart.apart {p : PortRef} {s t : State} (h : Apart p s t) (hs : s.idlePort p) : t.idlePort p :=
  ⟨fun e he hp => hs.1 e (h.queue e he hp) hp, fun e he hp => hs.2 e (h.wait e he hp) hp⟩

section Others

variable {p q : PortRef}

theorem apart_setPort (hq : q ≠ p) (s : State) (x : Port) : Apart p s (s.setPort q x) :=
  ⟨by simp [Ne.symm hq], fun _ h _ => h, fun _ h _ => h⟩

theorem apart_setLink (s : State) (b : Slot) (l : Link) : Apart p s (s.setLink b l) := ⟨rfl, fun _ h _ => h, fun _ h _ => h⟩

theorem apart_setBlade (s : State) (b : Slot) (x : Blade) : Apart p s (s.setBlade b x) := ⟨rfl, fun _ h _ => h, fun _ h _ => h⟩

theorem apart_handOrder (s : State) (b : Slot) (o : Order) : Apart p s (handOrder s b o) := by
  unfold handOrder pumpLink
  split
  · exact (apart_setLink _ _ _).trans (apart_setLink _ _ _)
  · exact .refl p s

theorem queue_setQueue (s : State) (b c : Slot) (l : List LicenceEntry) : (s.setQueue b l).queue c = if c = b then l else s.queue c := by
  simp [State.setQueue, State.queue]

/-- A change of a licence queue that adds no entry of the port. -/
theorem apart_setQueue (s : State) (b : Slot) (l : List LicenceEntry)
    (h : ∀ e ∈ l, b = p.slot → e.port = p.port → e ∈ s.queue b) : Apart p s (s.setQueue b l) := by
  refine ⟨rfl, fun e he hp => ?_, fun _ h _ => h⟩
  rw [queue_setQueue] at he
  split at he
  · rename_i hb
    rw [hb]
    exact h e he hb.symm hp
  · exact he

/-- A change of the PBU that adds no entry of the port to the wait list. -/
theorem apart_setPbu (s : State) (x : Pbu) (h : ∀ e ∈ x.waitList, e.port = p → e ∈ s.pbu.waitList) : Apart p s (s.setPbu x) :=
  ⟨rfl, fun _ h _ => h, h⟩

theorem mem_insertWait {e x : PowerWait} : ∀ {l : List PowerWait}, e ∈ insertWait x l → e = x ∨ e ∈ l
  | [], h => by simpa [insertWait] using h
  | y :: rest, h => by
    unfold insertWait at h
    split at h
    · simpa using h
    · rcases List.mem_cons.1 h with h | h
      · exact .inr (by simp [h])
      · rcases mem_insertWait h with h | h
        · exact .inl h
        · exact .inr (by simp [h])

theorem apart_released (w : Work) (x : Port) : Apart p w.st (released w x).st := by
  unfold released
  dsimp only
  split <;> split <;> exact .refl p w.st

theorem apart_toOffline (hq : q ≠ p) (w : Work) (c) : Apart p w.st (toOffline w q c).st :=
  (apart_setPort hq w.st { w.st.port q with state := .offline, cause := c, leaving := .clear, granted := none }).trans
    (apart_released (w.setPort q { w.st.port q with state := .offline, cause := c, leaving := .clear, granted := none }) _)

theorem apart_toShed (hq : q ≠ p) (w : Work) (c) : Apart p w.st (toShed w q c).st := by
  have h := apart_setPort hq w.st { w.st.port q with state := .shed, cause := c, leaving := .clear }
  show Apart p w.st (if 0 < (w.st.port q).draw w.st.plu.inUse
    then (w.setPort q { w.st.port q with state := .shed, cause := c, leaving := .clear }).dueRestore
    else w.setPort q { w.st.port q with state := .shed, cause := c, leaving := .clear }).st
  split <;> exact h

theorem apart_orderPort (w : Work) (r : PortRef) (a c) : Apart p w.st (orderPort w r a c).st := apart_handOrder _ _ _

theorem apart_toGoingDown (hq : q ≠ p) (w : Work) (c) : Apart p w.st (toGoingDown w q c).st := by
  have h := apart_setPort hq w.st { w.st.port q with state := .goingDown, cause := c, leaving := .clear }
  unfold toGoingDown
  dsimp only
  split
  · exact h.trans (apart_orderPort (w.setPort q { w.st.port q with state := .goingDown, cause := c, leaving := .clear }) _ _ _)
  · exact h

theorem apart_toGoingUp (hq : q ≠ p) (w : Work) (c a) : Apart p w.st (toGoingUp w q c a).st :=
  (apart_setPort hq w.st { w.st.port q with state := .goingUp, cause := .none, granted := some c }).trans
    (apart_orderPort (w.setPort q { w.st.port q with state := .goingUp, cause := .none, granted := some c }) _ _ _)

theorem apart_joinLicence (hq : q ≠ p) (w : Work) (u) : Apart p w.st (joinLicence w q u).st := by
  have h := apart_setPort hq w.st { w.st.port q with state := .waitLicense }
  refine h.trans (apart_setQueue _ q.slot _ ?_)
  intro e he hs hp
  rcases List.mem_append.1 he with he | he
  · exact he
  · refine absurd ?_ hq
    have : e = ⟨q.port, u⟩ := by simpa using he
    cases q
    cases p
    subst this
    simp_all

theorem apart_joinPower (hq : q ≠ p) (w : Work) : Apart p w.st (joinPower w q).st := by
  have h := apart_setPort hq w.st { w.st.port q with state := .waitPower }
  refine h.trans (apart_setPbu _ _ ?_)
  intro e he hp
  rcases mem_insertWait he with he | he
  · exact absurd (by subst he; exact hp) hq
  · exact he

theorem apart_leavePower (w : Work) (r : PortRef) : Apart p w.st (leavePower w r).st :=
  apart_setPbu _ _ (fun _ he _ => (List.mem_filter.1 he).1)

theorem apart_refuseXd (hq : q ≠ p) (w : Work) : Apart p w.st (refuseXd w q).st :=
  apart_setPort hq w.st { w.st.port q with state := .offline, cause := .noXdLicense }

theorem apart_chargePort (hq : q ≠ p) (w : Work) (c) : Apart p w.st (chargePort w q c).st := by
  unfold chargePort
  split
  · exact (apart_setPort hq w.st { w.st.port q with granted := some c }).trans
      (apart_toShed hq (w.setPort q { w.st.port q with granted := some c }) _)
  · exact apart_toGoingUp hq w _ _

theorem apart_decideAdmission (hq : q ≠ p) (w : Work) (c l r) : Apart p w.st (decideAdmission w q c l r).st := by
  unfold decideAdmission
  split
  · split
    · exact apart_chargePort hq w _
    · exact apart_joinPower hq w
  · exact apart_joinLicence hq w _

theorem apart_completeMove (hq : q ≠ p) (w : Work) (l r) : Apart p w.st (completeMove w q l r).st := by
  unfold completeMove
  split
  · exact .refl p w.st
  · split
    · exact apart_refuseXd hq w
    · exact apart_decideAdmission hq w _ _ _

theorem apart_restorePort (hq : q ≠ p) (w : Work) : Apart p w.st (restorePort w q).st := by
  unfold restorePort
  split
  · exact apart_toGoingUp hq w _ _
  · exact .refl p w.st

theorem apart_leavePort (hq : q ≠ p) (w : Work) (c) : Apart p w.st (leavePort w q c).st := by
  unfold leavePort
  split
  · exact apart_toGoingDown hq w _
  · exact apart_setPort hq w.st _
  · exact .refl p w.st

end Others

/-- What the settling of an event can make of a port outside the queues and the list that is not in SHED: nothing, or its
selection in a shed. -/
inductive ShedOnly (x : Port) : Port → Prop
  | same : ShedOnly x x
  | off : x.state = .online → ShedOnly x { x with state := .goingDown, cause := .power, leaving := .clear }
  | flag : x.state = .goingUp → ShedOnly x { x with leaving := .power }

/-- The port is outside the queues and the list, and its record is what a shed can make of the one given. -/
structure AtRest (p : PortRef) (x : Port) (s : State) : Prop where
  apart : s.idlePort p
  port : ShedOnly x (s.port p)

theorem AtRest.of {p : PortRef} {x : Port} {s t : State} (h : AtRest p x s) (k : Apart p s t) : AtRest p x t :=
  ⟨k.apart h.apart, k.port ▸ h.port⟩

theorem ShedOnly.notShed {x y : Port} (h : ShedOnly x y) (hx : x.state ≠ .shed) : y.state ≠ .shed := by
  cases h
  · exact hx
  · simp
  · exact hx

section Settle

variable {p : PortRef} {x : Port}

theorem port_handOrder (s : State) (b : Slot) (o : Order) : (handOrder s b o).port p = s.port p :=
  (apart_handOrder (p := p) s b o).port

/-- The shed of one port: another port, or this one, which can be selected once. -/
theorem atRest_leavePort {w : Work} (h : AtRest p x w.st) (q : PortRef) : AtRest p x (leavePort w q .power).st := by
  by_cases hq : q = p
  · subst hq
    have hp := h.port
    unfold leavePort
    split
    · rename_i hs
      have e : (toGoingDown w q LeaveCause.power.cause).st.port q =
          { w.st.port q with state := .goingDown, cause := .power, leaving := .clear } := by
        unfold toGoingDown
        dsimp only
        split
        · show (handOrder _ _ _).port q = _
          rw [port_handOrder]
          simp [LeaveCause.cause]
        · simp [LeaveCause.cause]
      have k : (toGoingDown w q LeaveCause.power.cause).st.idlePort q := by
        unfold toGoingDown
        dsimp only
        split
        · exact (apart_handOrder (p := q) _ _ _).apart h.apart
        · exact h.apart
      refine ⟨k, ?_⟩
      rw [e]
      generalize w.st.port q = y at hp hs
      cases hp
      · exact .off hs
      · simp at hs
      · rename_i hx
        rw [hx] at hs
        simp at hs
    · rename_i hs
      refine ⟨h.apart, ?_⟩
      simp only [Work.setPort_st, State.port_setPort, if_true, LeaveCause.flag]
      generalize w.st.port q = y at hp hs
      cases hp
      · exact .flag hs
      · simp at hs
      · exact .flag (by simpa using hs)
    · exact h
  · exact h.of (apart_leavePort hq w _)

theorem atRest_selectShed (a : Nat) : ∀ (l : List (PortRef × Port)) (m n : Nat) (w : Work), AtRest p x w.st →
    AtRest p x (selectShed a l m n w).1.st
  | [], _, _, _, h => h
  | (q, y) :: rest, m, n, w, h => by
    unfold selectShed
    split
    · exact h
    · exact atRest_selectShed a rest _ _ _ (atRest_leavePort h q)

theorem AtRest.setPbu {s : State} (h : AtRest p x s) (y : Pbu) (hy : y.waitList = s.pbu.waitList) : AtRest p x (s.setPbu y) :=
  h.of (apart_setPbu s y (fun _ he _ => hy ▸ he))

theorem atRest_ite {c : Prop} [Decidable c] {a b : Work} (ha : AtRest p x a.st) (hb : AtRest p x b.st) :
    AtRest p x (if c then a else b).st := by
  split
  · exact ha
  · exact hb

theorem atRest_ite_fst {β : Type} {c : Prop} [Decidable c] {a b : Work × β} (ha : AtRest p x a.1.st) (hb : AtRest p x b.1.st) :
    AtRest p x (if c then a else b).1.st := by
  split
  · exact ha
  · exact hb

theorem atRest_setCritical {w : Work} (c : Bool) (h : AtRest p x w.st) : AtRest p x (setCritical w c).st := by
  unfold setCritical
  split
  · exact h
  · exact AtRest.setPbu h _ rfl

theorem atRest_shedSelection {w : Work} (r) (h : AtRest p x w.st) : AtRest p x (shedSelection r w).st := by
  have h1 := atRest_selectShed w.st.pbu.available (shedOrder (shedCandidates w.st r)) w.st.projected 0 w h
  have h3 : ∀ n, AtRest p x (raiseBudget (selectShed w.st.pbu.available (shedOrder (shedCandidates w.st r)) w.st.projected 0 w).1 .shed n).st :=
    fun _ => h1
  have h4 := atRest_ite (c := 0 < (selectShed w.st.pbu.available (shedOrder (shedCandidates w.st r)) w.st.projected 0 w).2.1)
    (h3 (selectShed w.st.pbu.available (shedOrder (shedCandidates w.st r)) w.st.projected 0 w).2.1) h1
  exact atRest_setCritical _ h4

theorem atRest_computeBudget {w : Work} (r) (e : Bool) (h : AtRest p x w.st) : AtRest p x (computeBudget r e w).st := by
  have h1 : AtRest p x (w.setPbu (computeFigures w.st)).st := h.setPbu _ rfl
  have h3 := atRest_ite (c := e = true) (a := raiseBudget (w.setPbu (computeFigures w.st)) .holdEnded 0) h1 h1
  have h4 := atRest_ite (c := (computeFigures w.st).redundancyLost ≠ w.st.pbu.redundancyLost)
    (a := raiseBudget (if e = true then raiseBudget (w.setPbu (computeFigures w.st)) .holdEnded 0 else w.setPbu (computeFigures w.st))
      (if (computeFigures w.st).redundancyLost then .redundancyRaised else .redundancyCleared) 0) h3 h3
  exact atRest_ite (atRest_shedSelection r h4) (atRest_setCritical false h4)

theorem atRest_budgetStep {w : Work} (r) (h : AtRest p x w.st) : AtRest p x (budgetStep r w).st := by
  unfold budgetStep
  split
  · exact h
  · exact atRest_computeBudget r _ h

/-- A grant takes the head of a queue, which is another port's. -/
theorem atRest_grantHead {w : Work} (h : AtRest p x w.st) (b : Slot) (e : LicenceEntry) (he : (w.st.queue b).head? = some e) :
    AtRest p x (grantHead w b e).st := by
  have hm : e ∈ w.st.queue b := List.mem_of_head? he
  have hq : (⟨b, e.port⟩ : PortRef) ≠ p := by
    rintro rfl
    exact h.apart.1 e hm rfl
  have h1 : AtRest p x (w.map (fun s => s.setQueue b (s.queue b).tail)).st :=
    h.of (apart_setQueue w.st b _ (fun _ he _ _ => List.mem_of_mem_tail he))
  unfold grantHead
  exact h1.of (apart_completeMove hq _ _ _)

theorem atRest_reservePass {w : Work} (h : AtRest p x w.st) : AtRest p x (reservePass w).1.st := by
  unfold reservePass
  suffices H : ∀ (l : List Slot) (acc : Work × Bool), AtRest p x acc.1.st → AtRest p x (l.foldl reserveStep acc).1.st from
    H _ (w, false) h
  intro l
  induction l with
  | nil => exact fun _ h => h
  | cons b l ih =>
    intro acc ha
    refine ih _ ?_
    unfold reserveStep
    split
    · rename_i e he
      split
      · exact atRest_grantHead ha b e he
      · exact ha
    · exact ha

theorem atRest_roundFrom : ∀ (n : Nat) (w : Work), AtRest p x w.st → AtRest p x (roundFrom n w).st
  | 0, _, h => h
  | n + 1, w, h => by
    unfold roundFrom
    dsimp only
    split
    · exact atRest_roundFrom n _ (atRest_reservePass h)
    · split
      · exact h
      · rename_i c b _
        have h1 : AtRest p x (w.map fun s => s.setLu { s.lu with counters := c }).st := ⟨h.apart, h.port⟩
        split
        · rename_i e he
          exact atRest_roundFrom n _ (atRest_grantHead h1 b e he)
        · exact h1

theorem atRest_grantIfDue {w : Work} (h : AtRest p x w.st) : AtRest p x (grantIfDue w).st := by
  unfold grantIfDue grantRound
  split
  · have h1 := atRest_roundFrom (w.st.queued + 1) w h
    generalize roundFrom (w.st.queued + 1) w = r at h1 ⊢
    exact h1
  · exact h

theorem atRest_powerBlade {w : Work} (h : AtRest p x w.st) (b : Slot) : AtRest p x (powerBlade w b).st := by
  have h1 : ∀ y, AtRest p x (moveBlade w b y).st := by
    intro y
    unfold moveBlade
    dsimp only
    split <;> exact ⟨h.apart, h.port⟩
  unfold powerBlade startLink
  show AtRest p x (if _ then _ else _)
  split
  · exact (h1 _).of (apart_setLink _ _ _)
  · exact h1 _

theorem atRest_restoreBlades : ∀ (l : List Slot) (w : Work), AtRest p x w.st → AtRest p x (restoreBlades l w).1.st
  | [], _, h => h
  | b :: rest, w, h => by
    unfold restoreBlades
    split
    · exact atRest_restoreBlades rest _ (atRest_powerBlade h b)
    · exact h

theorem atRest_restoreShed : ∀ (l : List PortRef) (w : Work), p ∉ l → AtRest p x w.st → AtRest p x (restoreShed l w).1.st
  | [], _, _, h => h
  | q :: rest, w, hl, h => by
    simp only [List.mem_cons, not_or] at hl
    unfold restoreShed
    exact atRest_ite_fst (atRest_restoreShed rest _ hl.2 (h.of (apart_restorePort (Ne.symm hl.1) w))) h

theorem atRest_restoreWaiting : ∀ (l : List PowerWait) (w : Work), (∀ e ∈ l, e.port ≠ p) → AtRest p x w.st →
    AtRest p x (restoreWaiting l w).st
  | [], _, _, h => h
  | e :: rest, w, hl, h => by
    unfold restoreWaiting
    have hr : ∀ e ∈ rest, e.port ≠ p := fun e he => hl e (List.mem_cons_of_mem _ he)
    have he := hl e List.mem_cons_self
    exact atRest_ite (atRest_restoreWaiting rest _ hr h) (atRest_ite
      (atRest_restoreWaiting rest _ hr (h.of ((apart_leavePower w e.port).trans (apart_completeMove he _ _ _)))) h)

theorem mem_portList {s : State} {b : Slot} {q : PortRef} {y : Port} (h : (q, y) ∈ s.portList b) : s.port q = y := by
  unfold State.portList at h
  rw [List.mem_iff_getElem] at h
  obtain ⟨i, hi, he⟩ := h
  simp only [List.getElem_zip, List.getElem_map, Prod.mk.injEq] at he
  obtain ⟨rfl, rfl⟩ := he
  have e : (indices 48) = List.finRange 48 := by decide
  simp only [State.port, e, List.getElem_finRange]
  rfl

theorem mem_restoreOrder {s : State} {q : PortRef} (h : q ∈ restoreOrder s) : (s.port q).state = .shed := by
  unfold restoreOrder at h
  simp only [List.mem_flatMap, List.mem_map, List.mem_filter] at h
  obtain ⟨_, _, ⟨q', y⟩, ⟨⟨b, _, hb⟩, _⟩, rfl⟩ := h
  split at hb
  · rw [List.mem_filter] at hb
    have := mem_portList hb.1
    rw [this]
    simpa using hb.2
  · simp at hb

theorem atRest_restoreProcess {w : Work} (h : AtRest p x w.st) (hx : x.state ≠ .shed) : AtRest p x (restoreProcess w).st := by
  have h1 : AtRest p x (restoreBlades w.st.bladeWait w).1.st := atRest_restoreBlades _ w h
  unfold restoreProcess
  dsimp only
  split
  · have hn : p ∉ restoreOrder (restoreBlades w.st.bladeWait w).1.st := fun hm => h1.port.notShed hx (mem_restoreOrder hm)
    have h2 := atRest_restoreShed _ _ hn h1
    split
    · exact atRest_restoreWaiting _ _ h2.apart.2 h2
    · exact h2
  · exact h1

theorem atRest_restoreIfDue {w : Work} (h : AtRest p x w.st) (hx : x.state ≠ .shed) : AtRest p x (restoreIfDue w).st := by
  unfold restoreIfDue
  split
  · show AtRest p x (restoreDueNow w).st
    unfold restoreDueNow
    split
    · exact h.setPbu _ rfl
    · split
      · exact h
      · exact atRest_restoreProcess h hx
  · exact h

/-- What settling makes of a port outside the queues and the list that is not in SHED: nothing, or its selection in a
shed. -/
theorem settle_atRest {w : Work} (h : w.st.idlePort p) (hx : (w.st.port p).state ≠ .shed) :
    AtRest p (w.st.port p) (settle w).st :=
  atRest_restoreIfDue (atRest_grantIfDue (atRest_budgetStep none ⟨h, .same⟩)) hx

end Settle

end Sys2Proof.Machine
end

