-- ==== Sys2Proof/Laws/Publication.lean ====
section
/-! SUPPORT. What the end of a command can do, said once: publication adds to the SWQ, to what waits in the units and
to the event intake, presents the SWQ's head, and brings the TMC's idle figures up to date; every other figure of the
part stays as the command's work left it. -/

set_option Elab.async false

namespace Sys2Proof.Machine

/-- The accesses that are no deferred scrubs. -/
def notScrubs (l : List Access) : List Access := l.filter (fun a => a.kind.scrub.isNone)

@[simp] theorem notScrubs_append (l m : List Access) : notScrubs (l ++ m) = notScrubs l ++ notScrubs m := List.filter_append ..

@[simp] theorem notScrubs_swqHead (k : Nat) : notScrubs [⟨.swqHead, k⟩] = [⟨.swqHead, k⟩] := rfl

/-- The accesses of fresh scrubs are deferred scrubs. -/
@[simp] theorem notScrubs_freshScrubs (s : State) : notScrubs (freshScrubs s) = [] := by
  unfold freshScrubs notScrubs
  split
  · rw [List.filter_eq_nil_iff]
    intro a ha
    obtain ⟨e, _, rfl⟩ := List.mem_map.1 ha
    exact Bool.false_ne_true
  · rfl

/-- Withdrawing scrubs leaves the other accesses. -/
@[simp] theorem notScrubs_filter_scrubStays (s : State) (l : List Access) : notScrubs (l.filter (scrubStays s)) = notScrubs l := by
  unfold notScrubs
  rw [List.filter_filter]
  refine List.filter_congr fun a _ => ?_
  unfold scrubStays
  cases h : a.kind.scrub <;> simp

/-- What presenting the SWQ's head and the deferred scrubs and bringing the idle figures up to date leave of the TMC. -/
structure TmcKept (t u : Tmc) : Prop where
  initDone : u.initDone = t.initDone
  density : u.density = t.density
  mem : u.mem = t.mem
  marks : u.marks = t.marks
  exiting : u.exiting = t.exiting
  holdTold : u.holdTold = t.holdTold
  debt : u.debt = t.debt
  refreshAt : u.refreshAt = t.refreshAt
  presented : ∃ l, notScrubs u.presented = notScrubs t.presented ++ l ∧ ∀ a ∈ l, a.kind = .swqHead
  parked : u.parked = t.parked
  inProgress : u.inProgress = t.inProgress
  jobs : u.jobs = t.jobs
  nextJob : u.nextJob = t.nextJob
  lastSlot : u.lastSlot = t.lastSlot
  lastInternal : u.lastInternal = t.lastInternal
  tokenNext : u.tokenNext = t.tokenNext
  deferred : u.deferred = t.deferred
  patrolLine : u.patrolLine = t.patrolLine
  patrolAt : u.patrolAt = t.patrolAt
  patrolHeld : u.patrolHeld = t.patrolHeld
  corrected : u.corrected = t.corrected
  uncorrectable : u.uncorrectable = t.uncorrectable
  poisonedWrite : u.poisonedWrite = t.poisonedWrite
  reportAt : u.reportAt = t.reportAt
  power : u.power = t.power ∨ t.power = .powerDown ∧ u.power = .active

theorem TmcKept.refl (t : Tmc) : TmcKept t t :=
  ⟨rfl, rfl, rfl, rfl, rfl, rfl, rfl, rfl, ⟨[], by simp, by simp⟩, rfl, rfl, rfl, rfl, rfl, rfl, rfl, rfl, rfl, rfl, rfl, rfl, rfl, rfl, rfl,
    .inl rfl⟩

theorem TmcKept.trans {t u v : Tmc} (h : TmcKept t u) (k : TmcKept u v) : TmcKept t v where
  initDone := k.initDone.trans h.initDone
  density := k.density.trans h.density
  mem := k.mem.trans h.mem
  marks := k.marks.trans h.marks
  exiting := k.exiting.trans h.exiting
  holdTold := k.holdTold.trans h.holdTold
  debt := k.debt.trans h.debt
  refreshAt := k.refreshAt.trans h.refreshAt
  presented := by
    obtain ⟨l, hl, hl'⟩ := h.presented
    obtain ⟨m, hm, hm'⟩ := k.presented
    refine ⟨l ++ m, by rw [hm, hl, List.append_assoc], fun a ha => ?_⟩
    rcases List.mem_append.1 ha with ha | ha
    · exact hl' a ha
    · exact hm' a ha
  parked := k.parked.trans h.parked
  inProgress := k.inProgress.trans h.inProgress
  jobs := k.jobs.trans h.jobs
  nextJob := k.nextJob.trans h.nextJob
  lastSlot := k.lastSlot.trans h.lastSlot
  lastInternal := k.lastInternal.trans h.lastInternal
  tokenNext := k.tokenNext.trans h.tokenNext
  deferred := k.deferred.trans h.deferred
  patrolLine := k.patrolLine.trans h.patrolLine
  patrolAt := k.patrolAt.trans h.patrolAt
  patrolHeld := k.patrolHeld.trans h.patrolHeld
  corrected := k.corrected.trans h.corrected
  uncorrectable := k.uncorrectable.trans h.uncorrectable
  poisonedWrite := k.poisonedWrite.trans h.poisonedWrite
  reportAt := k.reportAt.trans h.reportAt
  power := by
    rcases k.power with k | ⟨k, k'⟩
    · rw [k]; exact h.power
    · rcases h.power with h | ⟨h, h'⟩
      · exact .inr ⟨h ▸ k, k'⟩
      · exact .inr ⟨h, k'⟩

/-- The TMC stays in ACTIVE. -/
theorem TmcKept.active {t u : Tmc} (h : TmcKept t u) (ht : t.power = .active) : u.power = .active := by
  rcases h.power with h | ⟨_, h⟩
  · rw [h, ht]
  · exact h

/-- What taking events and writing status leave of the EVU. -/
structure EvuKept (e f : Evu) : Prop where
  producer : f.producer = e.producer
  consumer : f.consumer = e.consumer
  asserted : f.asserted = e.asserted
  coalesceAt : f.coalesceAt = e.coalesceAt
  phase : f.phase = e.phase
  intake : ∃ l, f.intake = e.intake ++ l
  lostTotal : e.lostTotal ≤ max32 → e.lostTotal ≤ f.lostTotal ∧ f.lostTotal ≤ max32

theorem EvuKept.refl (e : Evu) : EvuKept e e := ⟨rfl, rfl, rfl, rfl, rfl, ⟨[], by simp⟩, fun h => ⟨Nat.le_refl _, h⟩⟩

theorem EvuKept.trans {e f g : Evu} (h : EvuKept e f) (k : EvuKept f g) : EvuKept e g where
  producer := k.producer.trans h.producer
  consumer := k.consumer.trans h.consumer
  asserted := k.asserted.trans h.asserted
  coalesceAt := k.coalesceAt.trans h.coalesceAt
  phase := k.phase.trans h.phase
  intake := by
    obtain ⟨l, hl⟩ := h.intake
    obtain ⟨m, hm⟩ := k.intake
    exact ⟨l ++ m, by rw [hm, hl, List.append_assoc]⟩
  lostTotal hb := ⟨(h.lostTotal hb).1.trans (k.lostTotal (h.lostTotal hb).2).1, (k.lostTotal (h.lostTotal hb).2).2⟩

/-- What publication leaves of a state. -/
structure Published (s t : State) : Prop where
  pending : t.pending = s.pending
  now : t.now = s.now
  pins : t.pins = s.pins
  tmc : TmcKept s.tmc t.tmc
  tbp : t.tbp = s.tbp
  ziu : t.ziu = s.ziu
  blc : t.blc = s.blc
  pau : t.pau = s.pau
  lu : t.lu = s.lu
  pbu : t.pbu = s.pbu
  ftu : t.ftu = s.ftu
  evu : EvuKept s.evu t.evu
  plu : t.plu = s.plu

theorem Published.refl (s : State) : Published s s :=
  ⟨rfl, rfl, rfl, .refl _, rfl, rfl, rfl, rfl, rfl, rfl, rfl, .refl _, rfl⟩

theorem Published.trans {s t u : State} (h : Published s t) (k : Published t u) : Published s u :=
  ⟨k.1.trans h.1, k.2.trans h.2, k.3.trans h.3, h.4.trans k.4, k.5.trans h.5, k.6.trans h.6, k.7.trans h.7, k.8.trans h.8,
    k.9.trans h.9, k.10.trans h.10, k.11.trans h.11, h.12.trans k.12, k.13.trans h.13⟩

theorem published_setSwq (s : State) (q : Swq) : Published s (s.setSwq q) :=
  ⟨rfl, rfl, rfl, .refl _, rfl, rfl, rfl, rfl, rfl, rfl, rfl, .refl _, rfl⟩

theorem published_setTmc (s : State) (t : Tmc) (h : TmcKept s.tmc t) : Published s (s.setTmc t) :=
  ⟨rfl, rfl, rfl, h, rfl, rfl, rfl, rfl, rfl, rfl, rfl, .refl _, rfl⟩

theorem published_setEvu (s : State) (e : Evu) (h : EvuKept s.evu e) : Published s (s.setEvu e) :=
  ⟨rfl, rfl, rfl, .refl _, rfl, rfl, rfl, rfl, rfl, rfl, rfl, h, rfl⟩

theorem published_tmcRest (s : State) : Published s (tmcRest s) := by
  refine published_setTmc s _ ?_
  exact ⟨rfl, rfl, rfl, rfl, rfl, rfl, rfl, rfl, ⟨[], by simp, by simp⟩, rfl, rfl, rfl, rfl, rfl, rfl, rfl, rfl, rfl, rfl, rfl, rfl, rfl, rfl,
    rfl, .inl rfl⟩

/-- The deferred scrubs are presented or withdrawn; the other accesses stay. -/
theorem published_scrubRest (s : State) : Published s (scrubRest s) := by
  refine published_setTmc s _ ?_
  refine ⟨rfl, rfl, rfl, rfl, rfl, rfl, rfl, rfl, ⟨[], by simp, by simp⟩, rfl, rfl, rfl, rfl, rfl, rfl, rfl, rfl, rfl, rfl, rfl, rfl, rfl, rfl,
    rfl, ?_⟩
  dsimp only
  split
  · rename_i h
    exact .inr ⟨h.1, rfl⟩
  · exact .inl rfl

/-- Issuing the SWQ's head presents it to a TMC that accepts presentations. -/
theorem published_swqIssue (s : State) : Published s (swqIssue s) := by
  unfold swqIssue
  split
  · exact .refl s
  · rename_i e rest _
    split
    · exact .refl s
    · rename_i h
      simp only [Bool.or_eq_true, Bool.not_eq_true', not_or, Bool.not_eq_false] at h
      unfold present
      dsimp only [State.setSwq_tmc]
      rw [if_pos (by simpa using h.2)]
      refine ((published_setSwq s _).trans (published_setTmc _ _ ?_)).trans (published_tmcRest _)
      refine ⟨rfl, rfl, rfl, rfl, rfl, rfl, rfl, rfl, ⟨[⟨.swqHead, e.line⟩], by simp, by simp⟩, rfl, rfl, rfl, rfl, rfl, rfl, rfl, rfl, rfl, rfl, rfl,
        rfl, rfl, rfl, rfl, ?_⟩
      dsimp only
      split
      · rename_i hp
        exact .inr ⟨hp, rfl⟩
      · exact .inl rfl

theorem published_fillFrom : ∀ (n : Nat) (s : State) (k : Nat), Published s (fillFrom n s k)
  | 0, s, _ => published_setSwq s _
  | n + 1, s, k => by
    unfold fillFrom
    split
    · exact .refl s
    · split
      · exact ((published_setSwq s _).trans (published_swqIssue _)).trans (published_fillFrom n _ _)
      · exact published_setSwq s _

/-- A status write changes the SWQ alone, but for the presentation of its head. -/
theorem published_statusWrite (s : State) (u : UnitId) (item : StatusItem) : Published s (statusWrite s u item) := by
  unfold statusWrite
  split
  · exact published_fillFrom _ s _
  · split
    · exact .refl s
    · split
      · exact .refl s
      · split
        · exact (published_setSwq s _).trans (published_swqIssue _)
        · exact published_setSwq s _

theorem evuKept_drop (e : Evu) : EvuKept e e.drop :=
  ⟨rfl, rfl, rfl, rfl, rfl, ⟨[], by simp [Evu.drop]⟩, fun h => by simp only [Evu.drop]; omega⟩

/-- An event handed to the EVU joins the intake or is dropped and counted. -/
theorem published_handEvent (s : State) (e : Event) : Published s (handEvent s e) := by
  unfold handEvent
  split
  · exact published_setEvu s _ (evuKept_drop _)
  · dsimp only
    split
    · exact published_setEvu s _ ⟨rfl, rfl, rfl, rfl, rfl, ⟨_, rfl⟩, fun h => ⟨Nat.le_refl _, h⟩⟩
    · exact published_setEvu s _
        ((⟨rfl, rfl, rfl, rfl, rfl, ⟨[], by simp⟩, fun h => ⟨Nat.le_refl _, h⟩⟩ :
          EvuKept s.evu { s.evu with sequence := (s.evu.sequence + 1) % 65536 }).trans (evuKept_drop _))

theorem published_evuRest (s : State) : Published s (evuRest s) := by
  unfold evuRest
  split
  · exact published_setEvu s _ ⟨rfl, rfl, rfl, rfl, rfl, ⟨[], by simp⟩, fun h => ⟨Nat.le_refl _, h⟩⟩
  · exact .refl s

theorem published_releaseEvents (u : UnitId) : ∀ (l : List WaitItem) (s : State), Published s (releaseEvents u l s)
  | [], s => published_setSwq s _
  | .event e :: rest, s => (published_handEvent s e).trans (published_releaseEvents u rest _)
  | .write _ :: _, s => published_setSwq s _

theorem published_handRaised (l : List (UnitId × StatusItem)) (s : State) (r : Raised) : Published s (handRaised l s r) := by
  unfold handRaised
  split
  · exact published_handEvent s _
  · split
    · exact published_setSwq s _
    · exact published_handEvent s _

theorem published_foldl {α : Type} (f : State → α → State) (h : ∀ s a, Published s (f s a)) : ∀ (l : List α) (s : State),
    Published s (l.foldl f s)
  | [], s => .refl s
  | a :: l, s => (h s a).trans (published_foldl f h l _)

theorem published_publishState (o : State) (w : Work) : Published w.st (publishState o w) := by
  unfold publishState
  dsimp only
  refine Published.trans ?_ ((published_scrubRest _).trans (published_tmcRest _))
  have h1 : Published w.st (evuRest (w.events.foldl (handRaised (writtenItems o w))
      ((writtenItems o w).foldl (fun s p => statusWrite s p.1 p.2) w.st))) :=
    ((published_foldl _ (fun s (p : UnitId × StatusItem) => published_statusWrite s p.1 p.2) _ _).trans
      (published_foldl _ (fun s r => published_handRaised _ s r) _ _)).trans (published_evuRest _)
  split
  · exact h1.trans (published_statusWrite _ _ _)
  · exact h1

/-- What the end of a command leaves of the state that its work has reached. -/
theorem publish_published (o : State) (w : Work) : Published w.st (publish o w) where
  pending := rfl
  now := rfl
  pins := rfl
  tmc := (published_publishState o w).tmc
  tbp := rfl
  ziu := rfl
  blc := rfl
  pau := rfl
  lu := rfl
  pbu := rfl
  ftu := rfl
  evu := (published_publishState o w).evu
  plu := rfl

/-- Table memory is not written by the end of a command. -/
@[simp] theorem publish_mem (o : State) (w : Work) : (publish o w).tmc.mem = w.st.tmc.mem := (publish_published o w).tmc.mem

@[simp] theorem publish_marks (o : State) (w : Work) : (publish o w).tmc.marks = w.st.tmc.marks := (publish_published o w).tmc.marks

@[simp] theorem publish_debt (o : State) (w : Work) : (publish o w).tmc.debt = w.st.tmc.debt := (publish_published o w).tmc.debt

end Sys2Proof.Machine
end

