-- ==== Sys2Proof/Laws/Presenting.lean ====
section
/-! SUPPORT. What presenting accesses to the TMC can do, said once: the accesses join those presented or those that wait,
POWER_DOWN is left, and the idle figures follow; no other figure of the part changes. -/

set_option Elab.async false

namespace Sys2Proof.Machine

/-- What the presentation of accesses leaves of the TMC; deferred scrubs may also be withdrawn. -/
structure TmcAsked (t u : Tmc) : Prop where
  initDone : u.initDone = t.initDone
  density : u.density = t.density
  mem : u.mem = t.mem
  marks : u.marks = t.marks
  exiting : u.exiting = t.exiting
  holdTold : u.holdTold = t.holdTold
  debt : u.debt = t.debt
  refreshAt : u.refreshAt = t.refreshAt
  presented : ∃ l, notScrubs u.presented = notScrubs t.presented ++ l
  inProgress : u.inProgress = t.inProgress
  jobs : u.jobs = t.jobs
  nextJob : u.nextJob = t.nextJob
  lastSlot : u.lastSlot = t.lastSlot
  lastInternal : u.lastInternal = t.lastInternal
  tokenNext : u.tokenNext = t.tokenNext
  deferred : u.deferred = t.deferred
  patrolLine : u.patrolLine = t.patrolLine
  patrolAt : u.patrolAt = t.patrolAt
  corrected : u.corrected = t.corrected
  uncorrectable : u.uncorrectable = t.uncorrectable
  poisonedWrite : u.poisonedWrite = t.poisonedWrite
  reportAt : u.reportAt = t.reportAt
  power : u.power = t.power ∨ t.power = .powerDown ∧ u.power = .active

theorem TmcAsked.refl (t : Tmc) : TmcAsked t t :=
  ⟨rfl, rfl, rfl, rfl, rfl, rfl, rfl, rfl, ⟨[], by simp⟩, rfl, rfl, rfl, rfl, rfl, rfl, rfl, rfl, rfl, rfl, rfl, rfl, rfl, .inl rfl⟩

theorem TmcAsked.trans {t u v : Tmc} (h : TmcAsked t u) (k : TmcAsked u v) : TmcAsked t v where
  initDone := k.initDone.trans h.initDone
  density := k.density.trans h.density
  mem := k.mem.trans h.mem
  marks := k.marks.trans h.marks
  exiting := k.exiting.trans h.exiting
  holdTold := k.holdTold.trans h.holdTold
  debt := k.debt.trans h.debt
  refreshAt := k.refreshAt.trans h.refreshAt
  presented := by
    obtain ⟨l, hl⟩ := h.presented
    obtain ⟨m, hm⟩ := k.presented
    exact ⟨l ++ m, by rw [hm, hl, List.append_assoc]⟩
  inProgress := k.inProgress.trans h.inProgress
  jobs := k.jobs.trans h.jobs
  nextJob := k.nextJob.trans h.nextJob
  lastSlot := k.lastSlot.trans h.lastSlot
  lastInternal := k.lastInternal.trans h.lastInternal
  tokenNext := k.tokenNext.trans h.tokenNext
  deferred := k.deferred.trans h.deferred
  patrolLine := k.patrolLine.trans h.patrolLine
  patrolAt := k.patrolAt.trans h.patrolAt
  corrected := k.corrected.trans h.corrected
  uncorrectable := k.uncorrectable.trans h.uncorrectable
  poisonedWrite := k.poisonedWrite.trans h.poisonedWrite
  reportAt := k.reportAt.trans h.reportAt
  power := by
    rcases k.power with k | ⟨k, k'⟩
    · rw [k]; exact h.power
    · rcases h.power with h | ⟨h, h'⟩
      · exact .inr ⟨h ▸ k, k'⟩
      · exact .inr ⟨h, k'⟩

theorem TmcKept.asked {t u : Tmc} (h : TmcKept t u) : TmcAsked t u where
  initDone := h.initDone
  density := h.density
  mem := h.mem
  marks := h.marks
  exiting := h.exiting
  holdTold := h.holdTold
  debt := h.debt
  refreshAt := h.refreshAt
  presented := let ⟨l, hl, _⟩ := h.presented; ⟨l, hl⟩
  inProgress := h.inProgress
  jobs := h.jobs
  nextJob := h.nextJob
  lastSlot := h.lastSlot
  lastInternal := h.lastInternal
  tokenNext := h.tokenNext
  deferred := h.deferred
  patrolLine := h.patrolLine
  patrolAt := h.patrolAt
  corrected := h.corrected
  uncorrectable := h.uncorrectable
  poisonedWrite := h.poisonedWrite
  reportAt := h.reportAt
  power := h.power

/-- The TMC stays in ACTIVE while accesses are presented. -/
theorem TmcAsked.active {t u : Tmc} (h : TmcAsked t u) (ht : t.power = .active) : u.power = .active := by
  rcases h.power with h | ⟨_, h⟩
  · rw [h, ht]
  · exact h

/-- What a change of the TMC and the SWQ alone leaves of the part. -/
structure Asked (s t : State) : Prop where
  tmc : TmcAsked s.tmc t.tmc
  rest : t = { s with tmc := t.tmc, swq := t.swq }

theorem Asked.refl (s : State) : Asked s s := ⟨.refl _, rfl⟩

theorem Asked.trans {s t u : State} (h : Asked s t) (k : Asked t u) : Asked s u := by
  refine ⟨h.tmc.trans k.tmc, ?_⟩
  rw [k.rest, h.rest]

theorem asked_setTmc (s : State) (x : Tmc) (h : TmcAsked s.tmc x) : Asked s (s.setTmc x) := ⟨h, rfl⟩

theorem asked_setSwq (s : State) (q : Swq) : Asked s (s.setSwq q) := ⟨.refl _, rfl⟩

/-- The idle figures follow what is presented; the TMC alone changes. -/
theorem asked_tmcRest (s : State) : Asked s (tmcRest s) := ⟨(published_tmcRest s).tmc.asked, rfl⟩

/-- Presenting an access changes the TMC alone. -/
theorem asked_present (s : State) (a : Access) : Asked s (present s a) := by
  unfold present
  dsimp only
  split
  · refine (asked_setTmc s _ ?_).trans (asked_tmcRest _)
    refine ⟨rfl, rfl, rfl, rfl, rfl, rfl, rfl, rfl, ⟨notScrubs [a], by simp⟩, rfl, rfl, rfl, rfl, rfl, rfl, rfl, rfl, rfl, rfl, rfl, rfl, rfl, ?_⟩
    dsimp only
    split
    · rename_i h
      exact .inr ⟨h, rfl⟩
    · exact .inl rfl
  · exact asked_setTmc s _ ⟨rfl, rfl, rfl, rfl, rfl, rfl, rfl, rfl, ⟨[], by simp⟩, rfl, rfl, rfl, rfl, rfl, rfl, rfl, rfl, rfl, rfl, rfl, rfl,
      rfl, .inl rfl⟩

/-- An access that is presented stands among those presented, or waits with its requester. -/
theorem present_mem (s : State) (a : Access) : a ∈ (present s a).tmc.presented ∨ a ∈ (present s a).tmc.parked := by
  unfold present tmcRest
  dsimp only
  split <;> simp

theorem asked_foldl {α : Type} (f : State → α → State) (h : ∀ s a, Asked s (f s a)) : ∀ (l : List α) (s : State), Asked s (l.foldl f s)
  | [], s => .refl s
  | a :: l, s => (h s a).trans (asked_foldl f h l _)

theorem asked_presentAll (s : State) (l : List Access) : Asked s (presentAll s l) := asked_foldl _ asked_present l s

/-- Issuing the SWQ's head changes the SWQ and the TMC alone. -/
theorem asked_swqIssue (s : State) : Asked s (swqIssue s) := by
  unfold swqIssue
  split
  · exact .refl s
  · split
    · exact .refl s
    · exact (asked_setSwq s _).trans (asked_present _ _)

/-- Accepting presentations again presents what waits; the TMC and the SWQ alone change. -/
theorem asked_resumePresentations (s : State) : Asked s (resumePresentations s) := by
  have h1 : ∀ t : State, Asked t (t.setTmc { t.tmc with parked := [] }) := fun t =>
    asked_setTmc t _ ⟨rfl, rfl, rfl, rfl, rfl, rfl, rfl, rfl, ⟨[], by simp⟩, rfl, rfl, rfl, rfl, rfl, rfl, rfl, rfl, rfl, rfl, rfl, rfl, rfl,
      .inl rfl⟩
  have h2 : ∀ t : State, Asked t (t.setTmc { t.tmc with patrolHeld := false }) := fun t =>
    asked_setTmc t _ ⟨rfl, rfl, rfl, rfl, rfl, rfl, rfl, rfl, ⟨[], by simp⟩, rfl, rfl, rfl, rfl, rfl, rfl, rfl, rfl, rfl, rfl, rfl, rfl, rfl,
      .inl rfl⟩
  unfold resumePresentations
  split
  · exact .refl s
  · dsimp only
    refine Asked.trans ?_ (asked_swqIssue _)
    have h3 := (h1 s).trans (asked_presentAll _ s.tmc.parked)
    split
    · exact (h3.trans (h2 _)).trans (asked_present _ _)
    · exact h3

end Sys2Proof.Machine
end

