-- ==== Sys2Proof/Laws/Zones.lean ====
section
/-! SUPPORT. What the resync pass and the end of AWAIT_ACK can do, said once: the zone state, the result, the place of the
pass and the acknowledgement timer may change; the images, the epoch, the dirty map and the counts do not. -/

set_option Elab.async false

namespace Sys2Proof.Machine

/-- What a resync pass that starts, goes on or ends leaves of a state. -/
structure Resynced (s t : State) : Prop where
  tmc : TmcAsked s.tmc t.tmc
  ziu : t.ziu = { s.ziu with
    zone := t.ziu.zone, result := t.ziu.result, detail := t.ziu.detail, accepted := t.ziu.accepted, ackAt := t.ziu.ackAt
    resyncPos := t.ziu.resyncPos, copying := t.ziu.copying }
  rest : t = { s with tmc := t.tmc, ziu := t.ziu, swq := t.swq }

theorem Resynced.refl (s : State) : Resynced s s := ⟨.refl _, rfl, rfl⟩

theorem Resynced.trans {s t u : State} (h : Resynced s t) (k : Resynced t u) : Resynced s u := by
  refine ⟨h.tmc.trans k.tmc, ?_, ?_⟩
  · rw [k.ziu, h.ziu]
  · rw [k.rest, h.rest]

theorem resynced_zoneResult (w : Work) (r : CommitResult) (d n : Nat) : Resynced w.st (zoneResult w r d n).st := by
  unfold zoneResult
  dsimp only
  split <;> exact ⟨.refl _, rfl, rfl⟩

theorem resynced_passEnd (w : Work) : Resynced w.st (resyncPassEnd w).st := by
  unfold resyncPassEnd
  dsimp only
  have h : Resynced w.st (w.setZiu { w.st.ziu with zone := .idle, copying := none, resyncPos := 4096 }).st := ⟨.refl _, rfl, rfl⟩
  split
  · exact h.trans (resynced_zoneResult _ _ _ _)
  · split
    · exact h.trans (resynced_zoneResult _ _ _ _)
    · exact h.trans (resynced_zoneResult _ _ _ _)

/-- The resync engine goes on. -/
theorem resynced_advance (w : Work) : Resynced w.st (resyncAdvance w).st := by
  unfold resyncAdvance
  dsimp only
  split
  · split
    · rename_i line l _ _
      have h : Resynced w.st (w.st.setZiu { w.st.ziu with resyncPos := line, copying := some line }) := ⟨.refl _, rfl, rfl⟩
      have k := asked_present (w.st.setZiu { w.st.ziu with resyncPos := line, copying := some line })
        ⟨.resync line (l.bankLine w.st.ziu.liveBank line / 64), l.bankLine w.st.ziu.stageBank line / 64⟩
      refine h.trans ⟨k.tmc, ?_, ?_⟩
      · show _ = _
        have := congrArg State.ziu k.rest
        simp only [Work.map_st, Work.setZiu_st]
        rw [this]
      · have := k.rest
        simp only [Work.map_st, Work.setZiu_st]
        rw [this]
    · exact resynced_passEnd w
  · exact .refl _

/-- A resync pass begins. -/
theorem resynced_start (w : Work) : Resynced w.st (startResync w).st := by
  have h : Resynced w.st (w.setZiu { w.st.ziu with zone := .resyncing, resyncPos := 1, copying := none }).st := ⟨.refl _, rfl, rfl⟩
  exact h.trans (resynced_advance _)

/-- AWAIT_ACK may end. -/
theorem resynced_testAwait (w : Work) : Resynced w.st (testAwait w).st := by
  unfold testAwait
  dsimp only
  split
  · have h : Resynced w.st (w.setZiu { w.st.ziu with ackAt := none }).st := ⟨.refl _, rfl, rfl⟩
    exact h.trans (resynced_start _)
  · exact .refl _

/-- A blade leaves the acknowledgement set. -/
theorem resynced_leaveAckSet (w : Work) (b : Slot) :
    Resynced (w.st.setZiu { w.st.ziu with ackSet := w.st.ziu.ackSet.filter (fun x => decide (x ≠ b)) }) (leaveAckSet w b).st := by
  unfold leaveAckSet
  split
  · have h : Resynced (w.st.setZiu { w.st.ziu with ackSet := w.st.ziu.ackSet.filter (fun x => decide (x ≠ b)) })
        (w.setZiu (w.st.ziu.without b)).st := ⟨.refl _, rfl, rfl⟩
    exact h.trans (resynced_testAwait _)
  · rename_i h
    have e : w.st.ziu.ackSet.filter (fun x => decide (x ≠ b)) = w.st.ziu.ackSet := by
      rw [List.filter_eq_self]
      intro x hx
      simp only [ne_eq, decide_not, Bool.not_eq_eq_eq_not, Bool.not_true, decide_eq_false_iff_not]
      rintro rfl
      exact h (by simpa using hx)
    rw [e]
    exact .refl _

/-- A bank's in-flight count falls by 1. -/
theorem resynced_dropInFlight (w : Work) (b : Bank) :
    Resynced (w.st.setZiu { w.st.ziu with inFlight := Vector.put w.st.ziu.inFlight b (w.st.ziu.inFlight.get b - 1) }) (dropInFlight w b).st :=
  resynced_testAwait (w.setZiu { w.st.ziu with inFlight := Vector.put w.st.ziu.inFlight b (w.st.ziu.inFlight.get b - 1) })

end Sys2Proof.Machine
end

