-- ==== Sys2Proof/Laws/Blades.lean ====
section
/-! SUPPORT. What the operations on all the ports of a blade and the loss of a link can do, said once: the ports of the blade
move as in Laws/Settling; the link loses its work, the acknowledgement set its blade; every other blade and link stays. -/

set_option Elab.async false

namespace Sys2Proof.Machine

/-! ### The ports of a blade -/

section Ports

variable {s : State} {w : Work}

theorem settled_portsFold (f : Work → PortRef → Work) (hf : ∀ w p, Settled s w.st → Settled s (f w p).st) :
    ∀ (l : List PortRef) (w : Work), Settled s w.st → Settled s (l.foldl f w).st
  | [], _, h => h
  | p :: l, w, h => settled_portsFold f hf l _ (hf w p h)

theorem settled_heatPort (h : Settled s w.st) (p) : Settled s (heatPort w p).st := by
  unfold heatPort
  dsimp only
  split
  · exact settled_leavePort h _ _
  · exact settled_leavePort h _ _
  · split
    · exact h.setPort p _
    · exact h
  · split
    · exact h.setPort p _
    · exact h
  · exact h

theorem settled_heatBlade (h : Settled s w.st) (b) : Settled s (heatBlade w b).st :=
  settled_portsFold _ (fun _ p h => settled_heatPort h p) _ w h

theorem settled_bladeOutOfService (h : Settled s w.st) (b) : Settled s (bladeOutOfService w b).st := by
  refine settled_portsFold _ (fun w p h => ?_) _ w h
  unfold outOfService
  split
  · exact h
  · exact settled_toOffline (settled_leaveWait h _) _ _

theorem settled_bladeStopsWaiting (h : Settled s w.st) (b) : Settled s (bladeStopsWaiting w b).st := by
  refine settled_portsFold _ (fun w p h => ?_) _ w h
  unfold stopWaiting
  split
  · exact settled_toOffline (settled_leaveWait h _) _ _
  · exact settled_toOffline (settled_leaveWait h _) _ _
  · exact h

theorem settled_disableDone (h : Settled s w.st) (p a) : Settled s (disableDone w p a).st := by
  unfold disableDone
  dsimp only
  split
  · exact settled_toOffline h _ _
  · split
    · exact settled_toShed h _ _
    · exact settled_toShed h _ _
    · split
      · exact settled_admitPort (settled_toOffline h _ _) _
      · exact settled_toOffline h _ _
    · exact settled_toOffline h _ _

theorem settled_applyReconfig (h : Settled s w.st) (p o n) : Settled s (applyReconfig w p o n).st := by
  have h1 := settled_toGoingUp h p n .reconfig
  unfold applyReconfig
  dsimp only
  split <;> split <;> exact h1

theorem settled_reconfigure (h : Settled s w.st) (p o n) : Settled s (reconfigure w p o n).st := by
  unfold reconfigure
  dsimp only
  split
  · exact settled_applyReconfig h _ _ _
  · split
    · exact settled_applyReconfig h _ _ _
    · exact settled_refusePort h _ _

theorem settled_evaluateOnline (h : Settled s w.st) (p) : Settled s (evaluateOnline w p).st := by
  unfold evaluateOnline
  split
  · split
    · exact h
    · exact settled_reconfigure h _ _ _
  · exact h

theorem settled_enableDone (h : Settled s w.st) (p) : Settled s (enableDone w p).st := by
  unfold enableDone
  dsimp only
  split
  · exact settled_toGoingDown h _ _
  · split
    · exact settled_toGoingDown h _ _
    · exact settled_evaluateOnline (w := w.setPort p { w.st.port p with state := .online })
        (h.setPort p { w.st.port p with state := .online }) _

/-- An order acknowledgement moves ports as settling does. -/
theorem settled_acknowledge (h : Settled s w.st) (p a r) : Settled s (acknowledge w p a r).st := by
  unfold acknowledge
  split
  · exact settled_enableDone h _
  · exact settled_enableDone h _
  · exact settled_raisePort (settled_toOffline h _ _) _ _ _ _
  · exact settled_raisePort (settled_toGoingDown h _ _) _ _ _ _
  · exact settled_disableDone h _ _
  · exact settled_raisePort (settled_disableDone h _ _) _ _ _ _
  · exact h

theorem settled_reconcileBeyond (h : Settled s w.st) (p) : Settled s (reconcileBeyond w p).st := by
  have h1 := settled_ite (c := (w.st.port p).state = .offline) h
    (settled_toOffline (settled_leaveWait h p) p (if (w.st.port p).desired then .noSuchPort else .request))
  have key : ∀ (c : Bool) (v : Work), Settled s v.st →
      Settled s (if c then raisePort (v.setPort p { v.st.port p with cause := .noSuchPort }) p .noSuchPort .warn 0 else v).st := by
    intro c v hv
    exact settled_ite (hv.setPort p { v.st.port p with cause := .noSuchPort }) hv
  exact key (w.st.port p).desired _ h1

theorem settled_reconcileStep (h : Settled s w.st) (p) : Settled s (reconcileStep w p).st := by
  unfold reconcileStep
  dsimp only
  split
  · exact settled_disableDone h _ _
  · exact h
  · split
    · split
      · exact settled_toShed h _ _
      · exact settled_toOffline h _ _
    · split
      · exact settled_toOffline h _ _
      · split
        · exact settled_orderPort h _ _ _
        · exact h
  · split
    · split
      · exact settled_toShed h _ _
      · exact settled_toOffline h _ _
    · split
      · exact settled_toOffline h _ _
      · split
        · exact settled_toGoingUp h _ _ _
        · exact h
  · exact h

/-- Reconciliation moves the ports of the blade as settling does. -/
theorem settled_reconcile (h : Settled s w.st) (b) : Settled s (reconcile w b).st := by
  refine settled_portsFold _ (fun w p h => ?_) _ w h
  unfold reconcilePort
  split
  · exact settled_reconcileBeyond h _
  · dsimp only
    split
    · exact settled_admitPort (settled_reconcileStep h _) _
    · exact settled_reconcileStep h _

end Ports

/-! ### The budget makes nothing due -/

/-- The work has made neither a grant round nor the restore process due. -/
def Work.sameDue (w v : Work) : Prop := v.grantDue = w.grantDue ∧ v.restoreDue = w.restoreDue

theorem sameDue_ite {w : Work} {c : Prop} [Decidable c] {a b : Work} (ha : w.sameDue a) (hb : w.sameDue b) : w.sameDue (if c then a else b) := by
  split
  · exact ha
  · exact hb

theorem sameDue_leavePort {w v : Work} (h : w.sameDue v) (p c) : w.sameDue (leavePort v p c) := by
  unfold leavePort toGoingDown
  dsimp only
  split
  · split <;> exact h
  · exact h
  · exact h

theorem sameDue_selectShed {w : Work} (a : Nat) : ∀ (l : List (PortRef × Port)) (m n : Nat) (v : Work), w.sameDue v →
    w.sameDue (selectShed a l m n v).1
  | [], _, _, _, h => h
  | (q, y) :: rest, m, n, v, h => by
    unfold selectShed
    split
    · exact h
    · exact sameDue_selectShed a rest _ _ _ (sameDue_leavePort h _ _)

theorem sameDue_setCritical {w v : Work} (c : Bool) (h : w.sameDue v) : w.sameDue (setCritical v c) := by
  unfold setCritical
  split
  · exact h
  · exact h

theorem sameDue_shedSelection {w v : Work} (r) (h : w.sameDue v) : w.sameDue (shedSelection r v) := by
  have h1 := sameDue_selectShed v.st.pbu.available (shedOrder (shedCandidates v.st r)) v.st.projected 0 v h
  have h2 : ∀ (n : Nat) (u : Work), w.sameDue u → w.sameDue (raiseBudget u .shed n) := fun _ _ h => h
  have h4 := sameDue_ite (c := 0 < (selectShed v.st.pbu.available (shedOrder (shedCandidates v.st r)) v.st.projected 0 v).2.1)
    (h2 (selectShed v.st.pbu.available (shedOrder (shedCandidates v.st r)) v.st.projected 0 v).2.1 _ h1) h1
  exact sameDue_setCritical _ h4

/-- A budget computation makes neither a grant round nor the restore process due. -/
theorem sameDue_budgetStep (w : Work) (r) : w.sameDue (budgetStep r w) := by
  have h0 : w.sameDue (w.setPbu (computeFigures w.st)) := ⟨rfl, rfl⟩
  have h4 := sameDue_ite (c := (computeFigures w.st).redundancyLost ≠ w.st.pbu.redundancyLost)
    (a := raiseBudget (w.setPbu (computeFigures w.st)) (if (computeFigures w.st).redundancyLost then .redundancyRaised else .redundancyCleared) 0)
    h0 h0
  unfold budgetStep
  split
  · exact ⟨rfl, rfl⟩
  · unfold computeBudget
    exact sameDue_ite (sameDue_shedSelection r h4) (sameDue_setCritical false h4)

/-- An event that makes neither a grant round nor the restore process due settles by its budget alone. -/
theorem settle_of_notDue (w : Work) (hg : w.grantDue = false) (hr : w.restoreDue = false) : settle w = budgetStep none w := by
  have h := sameDue_budgetStep w none
  have e : grantIfDue (budgetStep none w) = budgetStep none w := by
    unfold grantIfDue
    rw [h.1, hg]
    simp
  unfold settle
  rw [e]
  unfold restoreIfDue
  rw [h.2, hr]
  simp

/-! ### The loss of a link -/

/-- What abandoning a link's work leaves of a state, but for the link itself, the accesses of its fetches, the
acknowledgement set and the in-flight counts. -/
structure Abandoned (b : Slot) (s t : State) : Prop where
  rest : t = { s with tmc := t.tmc, ziu := t.ziu, blc := t.blc, swq := t.swq }
  mem : t.tmc.mem = s.tmc.mem
  marks : t.tmc.marks = s.tmc.marks
  debt : t.tmc.debt = s.tmc.debt
  density : t.tmc.density = s.tmc.density
  epoch : t.ziu.epoch = s.ziu.epoch
  swap : t.ziu.swap = s.ziu.swap
  dirty : t.ziu.dirty = s.ziu.dirty
  ackSet : t.ziu.ackSet = s.ziu.ackSet.filter (fun x => decide (x ≠ b))
  link : ∀ c, t.link c = if c = b then (s.link b).emptied else s.link c

theorem Resynced.setInFlight {s t : State} {v : Vector Nat 2} (h : Resynced (s.setZiu { s.ziu with inFlight := v }) t) (u : Vector Nat 2) :
    Resynced (s.setZiu { s.ziu with inFlight := u }) (t.setZiu { t.ziu with inFlight := u }) := by
  refine ⟨h.tmc, ?_, ?_⟩
  · simp only [State.setZiu_ziu]
    rw [h.ziu]
    rfl
  · have := h.rest
    rw [this]
    rfl

theorem resynced_dropAll : ∀ (l : List Bank) (w : Work), ∃ v, Resynced (w.st.setZiu { w.st.ziu with inFlight := v }) (l.foldl dropInFlight w).st
  | [], w => ⟨w.st.ziu.inFlight, .refl _⟩
  | b :: l, w => by
    obtain ⟨v, hv⟩ := resynced_dropAll l (dropInFlight w b)
    have h := resynced_dropInFlight w b
    exact ⟨v, (h.setInFlight v).trans hv⟩

/-- A link's work is abandoned. -/
theorem abandonLink_abandoned (w : Work) (b : Slot) : Abandoned b w.st (abandonLink w b).st := by
  unfold abandonLink
  dsimp only
  generalize hs1 : (w.st.setTmc { w.st.tmc with
    presented := w.st.tmc.presented.filter (fun a => !a.ofSlot b)
    parked := w.st.tmc.parked.filter (fun a => !a.ofSlot b)
    inProgress := abandonInProgress w.st b }) = s1
  obtain ⟨v, hv⟩ := resynced_dropAll (abandonedNow w.st b) { w with st := s1.setLink b (s1.link b).emptied }
  have hk := resynced_leaveAckSet ((abandonedNow w.st b).foldl dropInFlight { w with st := s1.setLink b (s1.link b).emptied }) b
  generalize (abandonedNow w.st b).foldl dropInFlight { w with st := s1.setLink b (s1.link b).emptied } = w2 at hv hk ⊢
  have hz := hv.ziu
  have hr := hv.rest
  have kz := hk.ziu
  have kr := hk.rest
  generalize (leaveAckSet w2 b).st = u at hk kz kr ⊢
  have e : s1.tmc.mem = w.st.tmc.mem ∧ s1.tmc.marks = w.st.tmc.marks ∧ s1.tmc.debt = w.st.tmc.debt ∧ s1.tmc.density = w.st.tmc.density ∧
      s1.ziu = w.st.ziu ∧ s1.blc = w.st.blc ∧ s1 = { w.st with tmc := s1.tmc } := by
    subst hs1
    exact ⟨rfl, rfl, rfl, rfl, rfl, rfl, rfl⟩
  have hb : u.blc = s1.blc.set b.1 (s1.link b).emptied b.2 := by
    rw [kr]
    show w2.st.blc = _
    rw [hr]
    rfl
  refine ⟨?_, ?_, ?_, ?_, ?_, ?_, ?_, ?_, ?_, ?_⟩
  · rw [kr, hr, e.2.2.2.2.2.2]
    rfl
  · rw [hk.tmc.mem, ← e.1]; exact hv.tmc.mem
  · rw [hk.tmc.marks, ← e.2.1]; exact hv.tmc.marks
  · rw [hk.tmc.debt, ← e.2.2.1]; exact hv.tmc.debt
  · rw [hk.tmc.density, ← e.2.2.2.1]; exact hv.tmc.density
  · rw [kz]; show w2.st.ziu.epoch = _; rw [hz, ← e.2.2.2.2.1]; rfl
  · rw [kz]; show w2.st.ziu.swap = _; rw [hz, ← e.2.2.2.2.1]; rfl
  · rw [kz]; show w2.st.ziu.dirty = _; rw [hz, ← e.2.2.2.2.1]; rfl
  · rw [kz]; show w2.st.ziu.ackSet.filter _ = _; rw [hz, ← e.2.2.2.2.1]; rfl
  · intro c
    have e1 : s1.link b = w.st.link b := by unfold State.link; rw [e.2.2.2.2.2.1]
    have e2 : s1.link c = w.st.link c := by unfold State.link; rw [e.2.2.2.2.2.1]
    rw [← e1, ← e2, ← State.link_setLink]
    unfold State.link State.setLink State.setBlc Vector.put
    rw [hb]
    rfl

/-- A blade's move changes its record alone; the power enable follows the state. -/
theorem moveBlade_st (w : Work) (b : Slot) (x : Blade) : (moveBlade w b x).st = w.st.setBlade b { x with powerEn := x.state.powered } := by
  unfold moveBlade
  dsimp only
  split <;> rfl

/-- A loss of a link: the work of the link is abandoned, and the link and its blade stand as the loss history says; the
ports of the blade then move as in Laws/Settling. -/
theorem loseLink_spec (w : Work) (b : Slot) (cause : BladeCause) :
    ∃ u : State, Abandoned b w.st u ∧
      Settled ((u.setLink b ((w.st.link b).emptied.lose w.st.now)).setBlade b
        (if (w.st.link b).repeatedLoss w.st.now then
          { w.st.blade b with state := .faulted, cause := .repeatedLoss, base := 0, powerEn := false }
        else { w.st.blade b with state := .lost, cause := cause, powerEn := true })) (loseLink w b cause).st := by
  have ha := abandonLink_abandoned w b
  refine ⟨(abandonLink w b).st, ha, ?_⟩
  unfold loseLink
  dsimp only
  generalize abandonLink w b = v at ha ⊢
  have hn : v.st.now = w.st.now := by rw [ha.rest]
  have hb : v.st.blade b = w.st.blade b := by rw [ha.rest]; rfl
  have hk : v.st.link b = (w.st.link b).emptied := by rw [ha.link b, if_pos rfl]
  have hr : (w.st.link b).emptied.repeatedLoss w.st.now = (w.st.link b).repeatedLoss w.st.now := rfl
  rw [hk, hn, hr]
  cases h : (w.st.link b).repeatedLoss w.st.now
  · simp only [Bool.false_eq_true, if_false]
    unfold bladeLost
    refine settled_bladeStopsWaiting (w := moveBlade _ b _) ?_ b
    rw [moveBlade_st]
    have e : ((v.map fun s => s.setLink b ((s.link b).lose s.now)).st) = v.st.setLink b ((w.st.link b).emptied.lose w.st.now) := by
      simp only [Work.map_st, hk, hn]
    rw [e]
    have e2 : (v.st.setLink b ((w.st.link b).emptied.lose w.st.now)).blade b = w.st.blade b := by
      rw [State.blade_setLink, hb]
    rw [e2]
    exact .refl _
  · simp only [if_true]
    unfold faultBlade
    dsimp only
    have e : ((v.map fun s => s.setLink b ((s.link b).lose s.now)).st) = v.st.setLink b ((w.st.link b).emptied.lose w.st.now) := by
      simp only [Work.map_st, hk, hn]
    generalize v.map (fun s => s.setLink b ((s.link b).lose s.now)) = v1 at e ⊢
    have e2 : v1.st.blade b = w.st.blade b := by rw [e, State.blade_setLink, hb]
    have e3 : ((v1.setBlade b { v1.st.blade b with powerEn := false }).st.link b).state = .down := by
      rw [Work.setBlade_st, State.link_setBlade, e, State.link_setLink, if_pos rfl]
      unfold Link.lose
      rw [hr, h]
      rfl
    have e4 : stopLink (v1.setBlade b { v1.st.blade b with powerEn := false }) b = v1.setBlade b { v1.st.blade b with powerEn := false } := by
      unfold stopLink
      rw [if_pos e3]
    rw [e4]
    refine settled_bladeOutOfService ?_ b
    have e5 : ∀ (u : Work) (n : Nat), (releaseBase u n).st = u.st := by
      intro u n
      unfold releaseBase
      split <;> rfl
    rw [e] at e2
    rw [e5, moveBlade_st, Work.setBlade_st, e]
    have e6 : ∀ (s : State) (x y : Blade), (s.setBlade b x).setBlade b y = s.setBlade b y := by
      intro s x y
      simp [State.setBlade, State.setPau, Vector.put]
    rw [e6]
    simp only [State.blade_setBlade, if_true, e2]
    exact .refl _

end Sys2Proof.Machine
end

