-- ==== Sys2Proof/Laws/Lines.lean ====
section
/-! SUPPORT. What a deferred scrub of a line can do, said once: it counts the words freshly wrong and the line when it is uncorrectable,
repairs word marks of the TMC, and changes no other figure of the part. -/

namespace Sys2Proof.Machine

/-- Word marks are all that wrong bits change. -/
theorem Tmc.applyFlips_eq (t : Tmc) (line : Nat) (flips : List BitFlip) :
    t.applyFlips line flips = { t with marks := (t.applyFlips line flips).marks } := by
  unfold Tmc.applyFlips
  induction flips generalizing t with
  | nil => rfl
  | cons f rest ih => exact (ih _).trans (by rfl)

/-- Word marks are all that a write-back changes: it repairs check codes, never data (R50). -/
theorem Tmc.writeBack_eq (t : Tmc) (line : Nat) : t.writeBack line = { t with marks := (t.writeBack line).marks } := by
  unfold Tmc.writeBack
  induction List.range 8 generalizing t with
  | nil => rfl
  | cons i rest ih =>
    simp only [List.foldl_cons]
    refine (ih _).trans ?_
    split <;> rfl

/-- What a deferred scrub leaves: word marks, the corrected words that stood clean before it, and an uncorrectable line (R51, R54). -/
theorem deferredRead_st (s : State) (line : Nat) (flips : List BitFlip) : (deferredRead s line flips).st = s.setTmc { s.tmc with
    marks := (deferredRead s line flips).st.tmc.marks
    corrected := s.tmc.corrected.add (s.foundFresh line flips) line
    uncorrectable := s.tmc.uncorrectable.add (if s.foundBad line flips then 1 else 0) line } := by
  have hf := Tmc.applyFlips_eq s.tmc line flips
  unfold deferredRead State.foundFresh State.foundBad State.found Tmc.freshlyWrong Tmc.lineBad
  generalize s.tmc.applyFlips line flips = t at hf ⊢
  dsimp only
  split
  · rw [hf]; rfl
  · rw [Tmc.writeBack_eq, hf]; rfl

/-- A deferred scrub delivers the line's bytes as they stand and whether a word of it is uncorrectable (R49). -/
theorem deferredRead_result (s : State) (line : Nat) (flips : List BitFlip) :
    (deferredRead s line flips).data = s.lineData line ∧ (deferredRead s line flips).bad = s.foundBad line flips := by
  have hf := Tmc.applyFlips_eq s.tmc line flips
  exact ⟨by unfold deferredRead State.lineData; dsimp only; rw [hf], rfl⟩

end Sys2Proof.Machine
end

