-- ==== Sys2Proof/WellFormed.lean ====
section
/-! DEFINITION. What the operands of a command must satisfy beyond their types: the shape that the bus, the links
and the DRAM give them. -/

namespace Sys2Proof

/-- A list names nothing twice. -/
def noRepeats {α : Type} [DecidableEq α] : List α → Bool
  | [] => true
  | a :: rest => !rest.contains a && noRepeats rest

/-- The number of lines that a 3-bit length field moves; 0 for a length that the form check refuses (R31). -/
def busLines (len : BitVec 3) : Nat := if len = 1#3 ∨ len = 2#3 ∨ len = 4#3 then len.toNat else 0

/-- A WRITE carries one data byte and one enable for each byte of its lines (Table 11.6-1). -/
def writeShape (len : BitVec 3) (data : List Byte) (enables : List Bool) : Bool :=
  decide (data.length = 64 * busLines len) && decide (enables.length = data.length)

/-- The command is well formed. -/
def Instr.wellFormed : Instr → Bool
  | .powerOnReset p => noRepeats p.badCells
  | .write _ _ len data enables => writeShape len data enables
  | .grant flips => noRepeats (flips.map (·.word))
  | .invalidMessage _ raw => decide (0 < raw.length)
  | .initialisationComplete => true
  | .warmReset => true
  | .warmResetRelease => true
  | .read _ _ _ => true
  | .readComplete => true
  | .writeComplete => true
  | .commit => true
  | .abort => true
  | .zoneCommandNone => true
  | .zoneBadCommand => true
  | .validationStart => true
  | .validatorReadComplete => true
  | .ackTimeout => true
  | .resyncCopyComplete => true
  | .refreshDue => true
  | .idleTimeout => true
  | .selfRefreshEntry => true
  | .selfRefreshExit => true
  | .patrolTick => true
  | .patrolReadComplete => true
  | .deferredScrubComplete => true
  | .reportPeriodEnd => true
  | .swqEntryComplete => true
  | .swqPlaceGrant => true
  | .hello _ _ _ _ _ _ _ => true
  | .fetch _ _ _ _ => true
  | .fetchCompletion => true
  | .status _ _ _ => true
  | .portNote _ _ _ _ => true
  | .orderAck _ _ _ => true
  | .epochAck _ _ => true
  | .reset _ => true
  | .transmissionComplete _ => true
  | .helloWaitExpiry _ => true
  | .keepaliveExpiry _ => true
  | .orderDeadline _ _ => true
  | .lostHoldoffExpiry _ => true
  | .bladeInserted _ => true
  | .bladeRemoved _ => true
  | .debounceExpiry _ => true
  | .linkErrorCountWrite _ => true
  | .portRequestOn => true
  | .portRequestOff => true
  | .portRequestInvalid => true
  | .submit => true
  | .submitNone => true
  | .tokenCheckStart => true
  | .tokenReadComplete => true
  | .nvProgramComplete _ => true
  | .psuInserted _ => true
  | .psuRemoved _ => true
  | .settleExpiry _ _ => true
  | .powerGoodRise _ => true
  | .powerGoodFall _ => true
  | .acOkRise _ => true
  | .acOkFall _ => true
  | .lowLineChange _ _ => true
  | .graceExpiry _ => true
  | .restoreHoldoffExpiry => true
  | .tachPulse _ => true
  | .measurementWindowEnd => true
  | .trayInserted _ => true
  | .trayRemoved _ => true
  | .spinupExpiry _ => true
  | .freshnessExpiry _ => true
  | .recordWrite => true
  | .eventPublish => true
  | .consumerIndexWrite => true
  | .coalescingTimerExpiry => true
  | .uptimeTick => true
  | .arm => true
  | .policyCommandNone => true
  | .policyBadCommand => true
  | .enterArmed => true

end Sys2Proof
end

