-- ==== Sys2Proof/Laws/PerInstr.lean ====
section
/-! SUPPORT. The family of statements made per command: the command is a row of the command table. -/

set_option Elab.async false

namespace Sys2Proof.Laws

/-- The name of a command in the command table. -/
def mnemonicOf : Instr → String
  | .powerOnReset _ => "POWER_ON_RESET"
  | .initialisationComplete => "INITIALISATION_COMPLETE"
  | .warmReset => "WARM_RESET"
  | .warmResetRelease => "WARM_RESET_RELEASE"
  | .read _ _ _ => "READ"
  | .write _ _ _ _ _ => "WRITE"
  | .readComplete => "READ_COMPLETE"
  | .writeComplete => "WRITE_COMPLETE"
  | .commit => "COMMIT"
  | .abort => "ABORT"
  | .zoneCommandNone => "ZONE_COMMAND_NONE"
  | .zoneBadCommand => "ZONE_BAD_COMMAND"
  | .validationStart => "VALIDATION_START"
  | .validatorReadComplete => "VALIDATOR_READ_COMPLETE"
  | .ackTimeout => "ACK_TIMEOUT"
  | .resyncCopyComplete => "RESYNC_COPY_COMPLETE"
  | .grant _ => "GRANT"
  | .refreshDue => "REFRESH_DUE"
  | .idleTimeout => "IDLE_TIMEOUT"
  | .selfRefreshEntry => "SELF_REFRESH_ENTRY"
  | .selfRefreshExit => "SELF_REFRESH_EXIT"
  | .patrolTick => "PATROL_TICK"
  | .patrolReadComplete => "PATROL_READ_COMPLETE"
  | .deferredScrubComplete => "DEFERRED_SCRUB_COMPLETE"
  | .reportPeriodEnd => "REPORT_PERIOD_END"
  | .swqEntryComplete => "SWQ_ENTRY_COMPLETE"
  | .swqPlaceGrant => "SWQ_PLACE_GRANT"
  | .hello _ _ _ _ _ _ _ => "HELLO"
  | .fetch _ _ _ _ => "FETCH"
  | .fetchCompletion => "FETCH_COMPLETION"
  | .status _ _ _ => "STATUS"
  | .portNote _ _ _ _ => "PORT_NOTE"
  | .orderAck _ _ _ => "ORDER_ACK"
  | .epochAck _ _ => "EPOCH_ACK"
  | .reset _ => "RESET"
  | .transmissionComplete _ => "TRANSMISSION_COMPLETE"
  | .helloWaitExpiry _ => "HELLO_WAIT_EXPIRY"
  | .keepaliveExpiry _ => "KEEPALIVE_EXPIRY"
  | .orderDeadline _ _ => "ORDER_DEADLINE"
  | .lostHoldoffExpiry _ => "LOST_HOLDOFF_EXPIRY"
  | .bladeInserted _ => "BLADE_INSERTED"
  | .bladeRemoved _ => "BLADE_REMOVED"
  | .debounceExpiry _ => "DEBOUNCE_EXPIRY"
  | .linkErrorCountWrite _ => "LINK_ERROR_COUNT_WRITE"
  | .portRequestOn => "PORT_REQUEST_ON"
  | .portRequestOff => "PORT_REQUEST_OFF"
  | .portRequestInvalid => "PORT_REQUEST_INVALID"
  | .submit => "SUBMIT"
  | .submitNone => "SUBMIT_NONE"
  | .tokenCheckStart => "TOKEN_CHECK_START"
  | .tokenReadComplete => "TOKEN_READ_COMPLETE"
  | .nvProgramComplete _ => "NV_PROGRAM_COMPLETE"
  | .psuInserted _ => "PSU_INSERTED"
  | .psuRemoved _ => "PSU_REMOVED"
  | .settleExpiry _ _ => "SETTLE_EXPIRY"
  | .powerGoodRise _ => "POWER_GOOD_RISE"
  | .powerGoodFall _ => "POWER_GOOD_FALL"
  | .acOkRise _ => "AC_OK_RISE"
  | .acOkFall _ => "AC_OK_FALL"
  | .lowLineChange _ _ => "LOW_LINE_CHANGE"
  | .graceExpiry _ => "GRACE_EXPIRY"
  | .restoreHoldoffExpiry => "RESTORE_HOLDOFF_EXPIRY"
  | .tachPulse _ => "TACH_PULSE"
  | .measurementWindowEnd => "MEASUREMENT_WINDOW_END"
  | .trayInserted _ => "TRAY_INSERTED"
  | .trayRemoved _ => "TRAY_REMOVED"
  | .spinupExpiry _ => "SPINUP_EXPIRY"
  | .freshnessExpiry _ => "FRESHNESS_EXPIRY"
  | .recordWrite => "RECORD_WRITE"
  | .eventPublish => "EVENT_PUBLISH"
  | .consumerIndexWrite => "CONSUMER_INDEX_WRITE"
  | .coalescingTimerExpiry => "COALESCING_TIMER_EXPIRY"
  | .uptimeTick => "UPTIME_TICK"
  | .arm => "ARM"
  | .policyCommandNone => "POLICY_COMMAND_NONE"
  | .policyBadCommand => "POLICY_BAD_COMMAND"
  | .enterArmed => "ENTER_ARMED"
  | .invalidMessage _ _ => "INVALID_MESSAGE"

/-- The names of the rows of the command table, in its order. -/
def tableNames : List String :=
  ["POWER_ON_RESET", "INITIALISATION_COMPLETE", "WARM_RESET", "WARM_RESET_RELEASE", "READ", "WRITE"] ++
  ["READ_COMPLETE", "WRITE_COMPLETE", "COMMIT", "ABORT", "ZONE_COMMAND_NONE", "ZONE_BAD_COMMAND"] ++
  ["VALIDATION_START", "VALIDATOR_READ_COMPLETE", "ACK_TIMEOUT", "RESYNC_COPY_COMPLETE", "GRANT", "REFRESH_DUE"] ++
  ["IDLE_TIMEOUT", "SELF_REFRESH_ENTRY", "SELF_REFRESH_EXIT", "PATROL_TICK", "PATROL_READ_COMPLETE", "DEFERRED_SCRUB_COMPLETE"] ++
  ["REPORT_PERIOD_END", "SWQ_ENTRY_COMPLETE", "SWQ_PLACE_GRANT", "HELLO", "FETCH", "FETCH_COMPLETION"] ++
  ["STATUS", "PORT_NOTE", "ORDER_ACK", "EPOCH_ACK", "RESET", "TRANSMISSION_COMPLETE"] ++
  ["HELLO_WAIT_EXPIRY", "KEEPALIVE_EXPIRY", "ORDER_DEADLINE", "LOST_HOLDOFF_EXPIRY", "BLADE_INSERTED", "BLADE_REMOVED"] ++
  ["DEBOUNCE_EXPIRY", "LINK_ERROR_COUNT_WRITE", "PORT_REQUEST_ON", "PORT_REQUEST_OFF", "PORT_REQUEST_INVALID", "SUBMIT"] ++
  ["SUBMIT_NONE", "TOKEN_CHECK_START", "TOKEN_READ_COMPLETE", "NV_PROGRAM_COMPLETE", "PSU_INSERTED", "PSU_REMOVED"] ++
  ["SETTLE_EXPIRY", "POWER_GOOD_RISE", "POWER_GOOD_FALL", "AC_OK_RISE", "AC_OK_FALL", "LOW_LINE_CHANGE"] ++
  ["GRACE_EXPIRY", "RESTORE_HOLDOFF_EXPIRY", "TACH_PULSE", "MEASUREMENT_WINDOW_END", "TRAY_INSERTED", "TRAY_REMOVED"] ++
  ["SPINUP_EXPIRY", "FRESHNESS_EXPIRY", "RECORD_WRITE", "EVENT_PUBLISH", "CONSUMER_INDEX_WRITE", "COALESCING_TIMER_EXPIRY"] ++
  ["UPTIME_TICK", "ARM", "POLICY_COMMAND_NONE", "POLICY_BAD_COMMAND", "ENTER_ARMED", "INVALID_MESSAGE"]

/-- The command is a row of the table: its name is one of the table's, whatever its operands. -/
def RowOfTheTable.Statement (i : Instr) : Prop := mnemonicOf i ∈ tableNames

theorem RowOfTheTable.powerOnReset : ∀ a0, RowOfTheTable.Statement (.powerOnReset a0) := by
  intros
  simp [RowOfTheTable.Statement, mnemonicOf, tableNames]

theorem RowOfTheTable.initialisationComplete : RowOfTheTable.Statement .initialisationComplete := by simp [RowOfTheTable.Statement, mnemonicOf, tableNames]

theorem RowOfTheTable.warmReset : RowOfTheTable.Statement .warmReset := by simp [RowOfTheTable.Statement, mnemonicOf, tableNames]

theorem RowOfTheTable.warmResetRelease : RowOfTheTable.Statement .warmResetRelease := by simp [RowOfTheTable.Statement, mnemonicOf, tableNames]

theorem RowOfTheTable.read : ∀ a0 a1 a2, RowOfTheTable.Statement (.read a0 a1 a2) := by
  intros
  simp [RowOfTheTable.Statement, mnemonicOf, tableNames]

theorem RowOfTheTable.write : ∀ a0 a1 a2 a3 a4, RowOfTheTable.Statement (.write a0 a1 a2 a3 a4) := by
  intros
  simp [RowOfTheTable.Statement, mnemonicOf, tableNames]

theorem RowOfTheTable.readComplete : RowOfTheTable.Statement .readComplete := by simp [RowOfTheTable.Statement, mnemonicOf, tableNames]

theorem RowOfTheTable.writeComplete : RowOfTheTable.Statement .writeComplete := by simp [RowOfTheTable.Statement, mnemonicOf, tableNames]

theorem RowOfTheTable.commit : RowOfTheTable.Statement .commit := by simp [RowOfTheTable.Statement, mnemonicOf, tableNames]

theorem RowOfTheTable.abort : RowOfTheTable.Statement .abort := by simp [RowOfTheTable.Statement, mnemonicOf, tableNames]

theorem RowOfTheTable.zoneCommandNone : RowOfTheTable.Statement .zoneCommandNone := by simp [RowOfTheTable.Statement, mnemonicOf, tableNames]

theorem RowOfTheTable.zoneBadCommand : RowOfTheTable.Statement .zoneBadCommand := by simp [RowOfTheTable.Statement, mnemonicOf, tableNames]

theorem RowOfTheTable.validationStart : RowOfTheTable.Statement .validationStart := by simp [RowOfTheTable.Statement, mnemonicOf, tableNames]

theorem RowOfTheTable.validatorReadComplete : RowOfTheTable.Statement .validatorReadComplete := by simp [RowOfTheTable.Statement, mnemonicOf, tableNames]

theorem RowOfTheTable.ackTimeout : RowOfTheTable.Statement .ackTimeout := by simp [RowOfTheTable.Statement, mnemonicOf, tableNames]

theorem RowOfTheTable.resyncCopyComplete : RowOfTheTable.Statement .resyncCopyComplete := by simp [RowOfTheTable.Statement, mnemonicOf, tableNames]

theorem RowOfTheTable.grant : ∀ a0, RowOfTheTable.Statement (.grant a0) := by
  intros
  simp [RowOfTheTable.Statement, mnemonicOf, tableNames]

theorem RowOfTheTable.refreshDue : RowOfTheTable.Statement .refreshDue := by simp [RowOfTheTable.Statement, mnemonicOf, tableNames]

theorem RowOfTheTable.idleTimeout : RowOfTheTable.Statement .idleTimeout := by simp [RowOfTheTable.Statement, mnemonicOf, tableNames]

theorem RowOfTheTable.selfRefreshEntry : RowOfTheTable.Statement .selfRefreshEntry := by simp [RowOfTheTable.Statement, mnemonicOf, tableNames]

theorem RowOfTheTable.selfRefreshExit : RowOfTheTable.Statement .selfRefreshExit := by simp [RowOfTheTable.Statement, mnemonicOf, tableNames]

theorem RowOfTheTable.patrolTick : RowOfTheTable.Statement .patrolTick := by simp [RowOfTheTable.Statement, mnemonicOf, tableNames]

theorem RowOfTheTable.patrolReadComplete : RowOfTheTable.Statement .patrolReadComplete := by simp [RowOfTheTable.Statement, mnemonicOf, tableNames]

theorem RowOfTheTable.deferredScrubComplete : RowOfTheTable.Statement .deferredScrubComplete := by simp [RowOfTheTable.Statement, mnemonicOf, tableNames]

theorem RowOfTheTable.reportPeriodEnd : RowOfTheTable.Statement .reportPeriodEnd := by simp [RowOfTheTable.Statement, mnemonicOf, tableNames]

theorem RowOfTheTable.swqEntryComplete : RowOfTheTable.Statement .swqEntryComplete := by simp [RowOfTheTable.Statement, mnemonicOf, tableNames]

theorem RowOfTheTable.swqPlaceGrant : RowOfTheTable.Statement .swqPlaceGrant := by simp [RowOfTheTable.Statement, mnemonicOf, tableNames]

theorem RowOfTheTable.hello : ∀ a0 a1 a2 a3 a4 a5 a6, RowOfTheTable.Statement (.hello a0 a1 a2 a3 a4 a5 a6) := by
  intros
  simp [RowOfTheTable.Statement, mnemonicOf, tableNames]

theorem RowOfTheTable.fetch : ∀ a0 a1 a2 a3, RowOfTheTable.Statement (.fetch a0 a1 a2 a3) := by
  intros
  simp [RowOfTheTable.Statement, mnemonicOf, tableNames]

theorem RowOfTheTable.fetchCompletion : RowOfTheTable.Statement .fetchCompletion := by simp [RowOfTheTable.Statement, mnemonicOf, tableNames]

theorem RowOfTheTable.status : ∀ a0 a1 a2, RowOfTheTable.Statement (.status a0 a1 a2) := by
  intros
  simp [RowOfTheTable.Statement, mnemonicOf, tableNames]

theorem RowOfTheTable.portNote : ∀ a0 a1 a2 a3, RowOfTheTable.Statement (.portNote a0 a1 a2 a3) := by
  intros
  simp [RowOfTheTable.Statement, mnemonicOf, tableNames]

theorem RowOfTheTable.orderAck : ∀ a0 a1 a2, RowOfTheTable.Statement (.orderAck a0 a1 a2) := by
  intros
  simp [RowOfTheTable.Statement, mnemonicOf, tableNames]

theorem RowOfTheTable.epochAck : ∀ a0 a1, RowOfTheTable.Statement (.epochAck a0 a1) := by
  intros
  simp [RowOfTheTable.Statement, mnemonicOf, tableNames]

theorem RowOfTheTable.reset : ∀ a0, RowOfTheTable.Statement (.reset a0) := by
  intros
  simp [RowOfTheTable.Statement, mnemonicOf, tableNames]

theorem RowOfTheTable.transmissionComplete : ∀ a0, RowOfTheTable.Statement (.transmissionComplete a0) := by
  intros
  simp [RowOfTheTable.Statement, mnemonicOf, tableNames]

theorem RowOfTheTable.helloWaitExpiry : ∀ a0, RowOfTheTable.Statement (.helloWaitExpiry a0) := by
  intros
  simp [RowOfTheTable.Statement, mnemonicOf, tableNames]

theorem RowOfTheTable.keepaliveExpiry : ∀ a0, RowOfTheTable.Statement (.keepaliveExpiry a0) := by
  intros
  simp [RowOfTheTable.Statement, mnemonicOf, tableNames]

theorem RowOfTheTable.orderDeadline : ∀ a0 a1, RowOfTheTable.Statement (.orderDeadline a0 a1) := by
  intros
  simp [RowOfTheTable.Statement, mnemonicOf, tableNames]

theorem RowOfTheTable.lostHoldoffExpiry : ∀ a0, RowOfTheTable.Statement (.lostHoldoffExpiry a0) := by
  intros
  simp [RowOfTheTable.Statement, mnemonicOf, tableNames]

theorem RowOfTheTable.bladeInserted : ∀ a0, RowOfTheTable.Statement (.bladeInserted a0) := by
  intros
  simp [RowOfTheTable.Statement, mnemonicOf, tableNames]

theorem RowOfTheTable.bladeRemoved : ∀ a0, RowOfTheTable.Statement (.bladeRemoved a0) := by
  intros
  simp [RowOfTheTable.Statement, mnemonicOf, tableNames]

theorem RowOfTheTable.debounceExpiry : ∀ a0, RowOfTheTable.Statement (.debounceExpiry a0) := by
  intros
  simp [RowOfTheTable.Statement, mnemonicOf, tableNames]

theorem RowOfTheTable.linkErrorCountWrite : ∀ a0, RowOfTheTable.Statement (.linkErrorCountWrite a0) := by
  intros
  simp [RowOfTheTable.Statement, mnemonicOf, tableNames]

theorem RowOfTheTable.portRequestOn : RowOfTheTable.Statement .portRequestOn := by simp [RowOfTheTable.Statement, mnemonicOf, tableNames]

theorem RowOfTheTable.portRequestOff : RowOfTheTable.Statement .portRequestOff := by simp [RowOfTheTable.Statement, mnemonicOf, tableNames]

theorem RowOfTheTable.portRequestInvalid : RowOfTheTable.Statement .portRequestInvalid := by simp [RowOfTheTable.Statement, mnemonicOf, tableNames]

theorem RowOfTheTable.submit : RowOfTheTable.Statement .submit := by simp [RowOfTheTable.Statement, mnemonicOf, tableNames]

theorem RowOfTheTable.submitNone : RowOfTheTable.Statement .submitNone := by simp [RowOfTheTable.Statement, mnemonicOf, tableNames]

theorem RowOfTheTable.tokenCheckStart : RowOfTheTable.Statement .tokenCheckStart := by simp [RowOfTheTable.Statement, mnemonicOf, tableNames]

theorem RowOfTheTable.tokenReadComplete : RowOfTheTable.Statement .tokenReadComplete := by simp [RowOfTheTable.Statement, mnemonicOf, tableNames]

theorem RowOfTheTable.nvProgramComplete : ∀ a0, RowOfTheTable.Statement (.nvProgramComplete a0) := by
  intros
  simp [RowOfTheTable.Statement, mnemonicOf, tableNames]

theorem RowOfTheTable.psuInserted : ∀ a0, RowOfTheTable.Statement (.psuInserted a0) := by
  intros
  simp [RowOfTheTable.Statement, mnemonicOf, tableNames]

theorem RowOfTheTable.psuRemoved : ∀ a0, RowOfTheTable.Statement (.psuRemoved a0) := by
  intros
  simp [RowOfTheTable.Statement, mnemonicOf, tableNames]

theorem RowOfTheTable.settleExpiry : ∀ a0 a1, RowOfTheTable.Statement (.settleExpiry a0 a1) := by
  intros
  simp [RowOfTheTable.Statement, mnemonicOf, tableNames]

theorem RowOfTheTable.powerGoodRise : ∀ a0, RowOfTheTable.Statement (.powerGoodRise a0) := by
  intros
  simp [RowOfTheTable.Statement, mnemonicOf, tableNames]

theorem RowOfTheTable.powerGoodFall : ∀ a0, RowOfTheTable.Statement (.powerGoodFall a0) := by
  intros
  simp [RowOfTheTable.Statement, mnemonicOf, tableNames]

theorem RowOfTheTable.acOkRise : ∀ a0, RowOfTheTable.Statement (.acOkRise a0) := by
  intros
  simp [RowOfTheTable.Statement, mnemonicOf, tableNames]

theorem RowOfTheTable.acOkFall : ∀ a0, RowOfTheTable.Statement (.acOkFall a0) := by
  intros
  simp [RowOfTheTable.Statement, mnemonicOf, tableNames]

theorem RowOfTheTable.lowLineChange : ∀ a0 a1, RowOfTheTable.Statement (.lowLineChange a0 a1) := by
  intros
  simp [RowOfTheTable.Statement, mnemonicOf, tableNames]

theorem RowOfTheTable.graceExpiry : ∀ a0, RowOfTheTable.Statement (.graceExpiry a0) := by
  intros
  simp [RowOfTheTable.Statement, mnemonicOf, tableNames]

theorem RowOfTheTable.restoreHoldoffExpiry : RowOfTheTable.Statement .restoreHoldoffExpiry := by simp [RowOfTheTable.Statement, mnemonicOf, tableNames]

theorem RowOfTheTable.tachPulse : ∀ a0, RowOfTheTable.Statement (.tachPulse a0) := by
  intros
  simp [RowOfTheTable.Statement, mnemonicOf, tableNames]

theorem RowOfTheTable.measurementWindowEnd : RowOfTheTable.Statement .measurementWindowEnd := by simp [RowOfTheTable.Statement, mnemonicOf, tableNames]

theorem RowOfTheTable.trayInserted : ∀ a0, RowOfTheTable.Statement (.trayInserted a0) := by
  intros
  simp [RowOfTheTable.Statement, mnemonicOf, tableNames]

theorem RowOfTheTable.trayRemoved : ∀ a0, RowOfTheTable.Statement (.trayRemoved a0) := by
  intros
  simp [RowOfTheTable.Statement, mnemonicOf, tableNames]

theorem RowOfTheTable.spinupExpiry : ∀ a0, RowOfTheTable.Statement (.spinupExpiry a0) := by
  intros
  simp [RowOfTheTable.Statement, mnemonicOf, tableNames]

theorem RowOfTheTable.freshnessExpiry : ∀ a0, RowOfTheTable.Statement (.freshnessExpiry a0) := by
  intros
  simp [RowOfTheTable.Statement, mnemonicOf, tableNames]

theorem RowOfTheTable.recordWrite : RowOfTheTable.Statement .recordWrite := by simp [RowOfTheTable.Statement, mnemonicOf, tableNames]

theorem RowOfTheTable.eventPublish : RowOfTheTable.Statement .eventPublish := by simp [RowOfTheTable.Statement, mnemonicOf, tableNames]

theorem RowOfTheTable.consumerIndexWrite : RowOfTheTable.Statement .consumerIndexWrite := by simp [RowOfTheTable.Statement, mnemonicOf, tableNames]

theorem RowOfTheTable.coalescingTimerExpiry : RowOfTheTable.Statement .coalescingTimerExpiry := by simp [RowOfTheTable.Statement, mnemonicOf, tableNames]

theorem RowOfTheTable.uptimeTick : RowOfTheTable.Statement .uptimeTick := by simp [RowOfTheTable.Statement, mnemonicOf, tableNames]

theorem RowOfTheTable.arm : RowOfTheTable.Statement .arm := by simp [RowOfTheTable.Statement, mnemonicOf, tableNames]

theorem RowOfTheTable.policyCommandNone : RowOfTheTable.Statement .policyCommandNone := by simp [RowOfTheTable.Statement, mnemonicOf, tableNames]

theorem RowOfTheTable.policyBadCommand : RowOfTheTable.Statement .policyBadCommand := by simp [RowOfTheTable.Statement, mnemonicOf, tableNames]

theorem RowOfTheTable.enterArmed : RowOfTheTable.Statement .enterArmed := by simp [RowOfTheTable.Statement, mnemonicOf, tableNames]

theorem RowOfTheTable.invalidMessage : ∀ a0 a1, RowOfTheTable.Statement (.invalidMessage a0 a1) := by
  intros
  simp [RowOfTheTable.Statement, mnemonicOf, tableNames]

end Sys2Proof.Laws
end

