-- ==== Sys2Proof/Laws/Rounds.lean ====
section
/-! SUPPORT. What a grant round leaves, said once: its passes take each head off its queue and put none on, and it ends with
no head that either pass could grant. -/

set_option Elab.async false

namespace Sys2Proof.Machine

theorem lu_handOrder (s : State) (b : Slot) (o : Order) : (handOrder s b o).lu = s.lu := by
  unfold handOrder pumpLink
  split <;> rfl

theorem lu_toShed (w : Work) (p c) : (toShed w p c).st.lu = w.st.lu := by
  unfold toShed
  dsimp only
  split <;> rfl

/-- The completion of a port whose units fit puts it in no licence queue. -/
theorem lu_completeMove (w : Work) (p : PortRef) (power : Bool) : (completeMove w p true power).st.lu = w.st.lu := by
  unfold completeMove decideAdmission chargePort
  split
  · rfl
  · split
    · rfl
    · simp only [if_true]
      split
      · split
        · exact lu_toShed _ _ _
        · exact lu_handOrder _ _ _
      · rfl

/-- A grant takes the head off its queue and leaves the other queues. -/
theorem queue_grantHead (w : Work) (b : Slot) (e : LicenceEntry) (c : Slot) :
    (grantHead w b e).st.queue c = if c = b then (w.st.queue b).tail else w.st.queue c := by
  unfold grantHead State.queue
  rw [lu_completeMove]
  exact queue_setQueue w.st b c _

/-- The entries of the eight queues, counted slot by slot. -/
theorem queued_eq (s : State) : s.queued = ((indices 8).map (fun b => (s.queue b).length)).sum := by
  have e : s.lu.queues.toList = (indices 8).map (fun b => s.lu.queues.get b) := by
    have : (indices 8) = List.finRange 8 := by decide
    rw [this]
    apply List.ext_getElem
    · simp
    · intro i h1 h2
      simp
      rfl
  have f : ∀ (l : List (List LicenceEntry)) (a : Nat), l.foldl (fun acc q => acc + q.length) a = a + (l.map List.length).sum := by
    intro l
    induction l with
    | nil => intro a; simp
    | cons q l ih => intro a; rw [List.foldl_cons, ih, List.map_cons, List.sum_cons]; omega
  unfold State.queued
  rw [f, e, List.map_map, Nat.zero_add]
  rfl

/-- A grant leaves one entry fewer. -/
theorem queued_grantHead (w : Work) (b : Slot) (e : LicenceEntry) (he : (w.st.queue b).head? = some e) :
    (grantHead w b e).st.queued + 1 = w.st.queued := by
  obtain ⟨rest, hq⟩ : ∃ rest, w.st.queue b = e :: rest := by
    cases h : w.st.queue b with
    | nil => rw [h] at he; simp at he
    | cons x rest => rw [h] at he; cases he; exact ⟨rest, rfl⟩
  have key : ∀ l : List Slot, l.Nodup → (l.map (fun c => ((grantHead w b e).st.queue c).length)).sum + (if b ∈ l then 1 else 0) =
      (l.map (fun c => (w.st.queue c).length)).sum := by
    intro l
    induction l with
    | nil => intro _; simp
    | cons c l ih =>
      intro hl
      obtain ⟨hc, hl⟩ := List.nodup_cons.1 hl
      have := ih hl
      rw [List.map_cons, List.map_cons, List.sum_cons, List.sum_cons, queue_grantHead]
      by_cases hb : c = b
      · subst hb
        rw [if_neg hc] at this
        simp [hq]
        omega
      · have : (b ∈ c :: l) = (b ∈ l) := by simp [Ne.symm hb]
        simp only [hb, if_false, this]
        omega
  have := key (indices 8) (nodup_indices 8)
  rw [if_pos (mem_indices b)] at this
  rw [queued_eq, queued_eq]
  exact this

/-- One slot of a reserve pass: it grants the head, or the head is larger than the slot's unused reserve and nothing changes. -/
theorem reserveStep_spec (acc : Work × Bool) (b : Slot) :
    ((reserveStep acc b).2 = true ∧ (reserveStep acc b).1.st.queued < acc.1.st.queued) ∨ (reserveStep acc b = acc ∧
      ∀ e, (acc.1.st.queue b).head? = some e → acc.1.st.unusedReserve (acc.1.st.lu.entitlementInUse .portUnits) b < e.units) := by
  unfold reserveStep
  split
  · rename_i e he
    split
    · exact .inl ⟨rfl, Nat.lt_of_succ_le (queued_grantHead acc.1 b e he).le⟩
    · rename_i h
      exact .inr ⟨rfl, fun x hx => by rw [he] at hx; cases hx; exact Nat.lt_of_not_le h⟩
  · rename_i h
    exact .inr ⟨rfl, fun x hx => by rw [h] at hx; cases hx⟩

/-- Some slots of a reserve pass: fewer entries once a head is granted, otherwise no change and no head that its reserve has room for. -/
theorem reserveFold_spec : ∀ (l : List Slot) (acc : Work × Bool),
    ((l.foldl reserveStep acc).2 = true ∧ (acc.2 = true ∨ (l.foldl reserveStep acc).1.st.queued < acc.1.st.queued) ∧
      (l.foldl reserveStep acc).1.st.queued ≤ acc.1.st.queued) ∨
    (acc.2 = false ∧ l.foldl reserveStep acc = acc ∧ ∀ b ∈ l, ∀ e, (acc.1.st.queue b).head? = some e →
      acc.1.st.unusedReserve (acc.1.st.lu.entitlementInUse .portUnits) b < e.units)
  | [], acc => by
    cases h : acc.2
    · exact .inr ⟨rfl, rfl, by simp⟩
    · exact .inl ⟨h, .inl rfl, Nat.le_refl _⟩
  | c :: l, acc => by
    rw [List.foldl_cons]
    rcases reserveStep_spec acc c with ⟨h1, h2⟩ | ⟨h1, h2⟩
    · rcases reserveFold_spec l (reserveStep acc c) with ⟨k1, _, k3⟩ | ⟨k1, _⟩
      · exact .inl ⟨k1, .inr (k3.trans_lt h2), k3.trans h2.le⟩
      · rw [h1] at k1; cases k1
    · rw [h1]
      rcases reserveFold_spec l acc with k | ⟨k1, k2, k3⟩
      · exact .inl k
      · refine .inr ⟨k1, k2, fun b hb e he => ?_⟩
        rcases List.mem_cons.1 hb with rfl | hb
        · exact h2 e he
        · exact k3 b hb e he

/-- A reserve pass grants a head and leaves fewer entries, or changes nothing and every head is larger than its slot's unused
reserve (R110). -/
theorem reservePass_spec (w : Work) : ((reservePass w).2 = true ∧ (reservePass w).1.st.queued < w.st.queued) ∨
    (reservePass w = (w, false) ∧
      ∀ b e, (w.st.queue b).head? = some e → w.st.unusedReserve (w.st.lu.entitlementInUse .portUnits) b < e.units) := by
  have H := reserveFold_spec (indices 8) (w, false)
  unfold reservePass
  generalize (indices 8).foldl reserveStep (w, false) = r at H ⊢
  rcases H with ⟨h1, h2, -⟩ | ⟨-, h2, h3⟩
  · exact .inl ⟨h1, h2.resolve_left Bool.false_ne_true⟩
  · exact .inr ⟨h2, fun b => h3 b (mem_indices b)⟩

theorem largestCounter_none {c : Vector Int 8} : ∀ {l : List Slot}, largestCounter c l = none → l = []
  | [], _ => rfl
  | b :: l, h => by
    unfold largestCounter at h
    split at h
    · cases h
    · split at h <;> cases h

theorem largestCounter_mem {c : Vector Int 8} : ∀ {l : List Slot} {b : Slot}, largestCounter c l = some b → b ∈ l
  | x :: l, b, h => by
    unfold largestCounter at h
    split at h
    · cases h; simp
    · rename_i b' hb
      split at h
      · cases h; exact List.mem_cons_of_mem _ (largestCounter_mem hb)
      · cases h; simp

/-- A weighted selection chooses a candidate, and chooses none only where there is none (R111). -/
theorem weightedSelection_spec (s : State) : (weightedSelection s = none → ∀ b, s.candidate b = false) ∧
    ∀ c b, weightedSelection s = some (c, b) → s.candidate b = true := by
  unfold weightedSelection
  dsimp only
  constructor
  · intro h b
    split at h
    · rename_i hn
      have := largestCounter_none hn
      rw [List.filter_eq_nil_iff] at this
      simpa using this b (mem_indices b)
    · cases h
  · intro c b h
    split at h
    · cases h
    · rename_i hs
      cases h
      exact (List.mem_filter.1 (largestCounter_mem hs)).2

/-- The passes and selections of a round leave no head that either could grant, given fuel for every entry. -/
theorem roundFrom_ended : ∀ (n : Nat) (w : Work), w.st.queued < n → roundEnded (roundFrom n w).st
  | 0, _, h => absurd h (Nat.not_lt_zero _)
  | n + 1, w, h => by
    unfold roundFrom
    dsimp only
    rcases reservePass_spec w with ⟨h1, h2⟩ | ⟨h1, h2⟩
    · rw [if_pos h1]
      exact roundFrom_ended n _ (by omega)
    · rw [if_neg (by rw [h1]; simp)]
      have S := weightedSelection_spec w.st
      split
      · rename_i hs
        intro b e he
        refine ⟨h2 b e he, ?_⟩
        have := S.1 hs b
        unfold State.candidate at this
        rw [he] at this
        simpa [or_iff_not_imp_left, Nat.pos_iff_ne_zero] using this
      · rename_i c b hs
        have hc := S.2 c b hs
        split
        · rename_i e he
          have q : _ + 1 = w.st.queued := queued_grantHead (w.map fun s => s.setLu { s.lu with counters := c }) b e he
          exact roundFrom_ended n _ (Nat.lt_of_succ_lt_succ (lt_of_eq_of_lt q h))
        · rename_i he
          have he : (w.st.queue b).head? = none := he
          unfold State.candidate at hc
          rw [he] at hc
          cases hc

/-- A grant round leaves no head that either pass could grant (R109 to R111). -/
theorem grantRound_ended (w : Work) : roundEnded (grantRound w).st := by
  have h := roundFrom_ended (w.st.queued + 1) w (Nat.lt_succ_self _)
  unfold grantRound
  generalize roundFrom (w.st.queued + 1) w = r at h ⊢
  exact h

end Sys2Proof.Machine
end

