-- ==== Sys2Proof/Laws/Targets.lean ====
section
/-! SUPPORT. What computing the targets of the fan zones can do, said once: each zone takes its target and a driven duty below it
rises to it, the rotors of a zone change only at a step of 20 points, and no other figure of the part changes. -/

set_option Elab.async false

namespace Sys2Proof.Machine

/-- A zone's target follows from the trays, the temperatures, the blades seated, the part state and the minimum duty alone. -/
theorem targetDuty_congr {s t : State} (z : FanZone) (trays : t.ftu.trays = s.ftu.trays) (temps : t.ftu.temps = s.ftu.temps)
    (plu : t.plu = s.plu) (seated : ∀ b, t.seated b = s.seated b) : t.targetDuty z = s.targetDuty z := by
  unfold State.targetDuty State.zoneBlades State.armed
  simp only [trays, temps, plu, seated]

/-- What the zones of a list have taken: their targets, as the state before gives them (R157, R158). -/
structure Targeted (l : List FanZone) (s t : State) : Prop where
  rest : t = s.setFtu { s.ftu with zones := t.ftu.zones, rotors := t.ftu.rotors }
  zone : ∀ z ∈ l, (t.ftu.zones.get z).target = s.targetDuty z ∧
    (t.ftu.zones.get z).driven = max (s.ftu.zones.get z).driven (s.targetDuty z)
  other : ∀ z, z ∉ l → t.ftu.zones.get z = s.ftu.zones.get z
  lowest : ∀ z, (t.ftu.zones.get z).lowest = (s.ftu.zones.get z).lowest
  rotor : ∀ r, zoneOfRotor r ∉ l ∨ s.targetDuty (zoneOfRotor r) < (s.ftu.zones.get (zoneOfRotor r)).driven + 20 →
    t.ftu.rotors.get r = s.ftu.rotors.get r

theorem Targeted.targetDuty {l : List FanZone} {s t : State} (h : Targeted l s t) (z : FanZone) : t.targetDuty z = s.targetDuty z := by
  rw [h.rest]
  exact targetDuty_congr z rfl rfl rfl (fun _ => rfl)

/-- One zone takes its target. -/
theorem targeted_zoneStep (s : State) (z : FanZone) : Targeted [z] s (zoneStep s z) := by
  unfold zoneStep
  dsimp only
  split
  · refine ⟨rfl, fun y hy => ?_, fun y hy => ?_, fun y => ?_, fun r hr => ?_⟩
    · obtain rfl := List.mem_singleton.1 hy
      simp [dutyStep]
    · simp [dutyStep, List.mem_singleton.not.1 hy]
    · by_cases hy : y = z
      · subst hy; simp [dutyStep]
      · simp [dutyStep, hy]
    · have hz : zoneOfRotor r ≠ z := by
        rintro rfl
        rcases hr with hr | hr
        · simp at hr
        · omega
      simp [dutyStep, hz]
  · refine ⟨rfl, fun y hy => ?_, fun y hy => ?_, fun y => ?_, fun _ _ => rfl⟩
    · obtain rfl := List.mem_singleton.1 hy
      simp
    · simp [List.mem_singleton.not.1 hy]
    · by_cases hy : y = z
      · subst hy; simp
      · simp [hy]

/-- Both targets are computed: what `targetStep` can do. -/
theorem targeted_targetStep (w : Work) : Targeted [0, 1] w.st (targetStep w).st := by
  show Targeted [0, 1] w.st (zoneStep (zoneStep w.st 0) 1)
  have h := targeted_zoneStep w.st 0
  have k := targeted_zoneStep (zoneStep w.st 0) 1
  have e1 := h.other 1 (by simp)
  have f0 := k.other 0 (by simp)
  refine ⟨?_, fun z hz => ?_, fun z hz => ?_, fun z => (k.lowest z).trans (h.lowest z), fun r hr => ?_⟩
  · rw [k.rest, h.rest]
    rfl
  · simp only [List.mem_cons, List.not_mem_nil, or_false] at hz
    rcases hz with rfl | rfl
    · rw [f0]
      exact h.zone 0 (by simp)
    · have f1 := k.zone 1 (by simp)
      rw [e1, h.targetDuty] at f1
      exact f1
  · fin_cases z <;> simp at hz
  · have hr := hr.resolve_left (by generalize zoneOfRotor r = z; fin_cases z <;> simp)
    rw [k.rotor r, h.rotor r (.inr hr)]
    by_cases hz : zoneOfRotor r = 1
    · right
      rw [h.targetDuty, hz, e1]
      rw [hz] at hr
      exact hr
    · left
      simpa using hz

end Sys2Proof.Machine
end

