-- ==== Sys2Proof/Tests/Slice0.lean ====
section
/-! SUPPORT. Tests: the well-formedness check refuses an ill-formed term of each kind; the hypotheses of every statement
are met by a concrete state; and single commands give what the manual's examples and tables say. -/

set_option Elab.async false

namespace Sys2Proof.Tests

open Sys2Proof.Machine

/-! ### Well-formedness -/

theorem test_wf_refuses_repeated_cell :
    Instr.wellFormed (.powerOnReset ⟨false, false, false, [⟨.portUnits, 0⟩, ⟨.portUnits, 0⟩]⟩) = false := by decide +kernel

theorem test_wf_refuses_short_write : Instr.wellFormed (.write 0 0#32 1#3 [1#8] [true]) = false := by decide +kernel

theorem test_wf_refuses_missing_enables :
    Instr.wellFormed (.write 0 0#32 1#3 (List.replicate 64 0#8) (List.replicate 63 true)) = false := by decide +kernel

theorem test_wf_refuses_repeated_word : Instr.wellFormed (.grant [⟨3, false⟩, ⟨3, true⟩]) = false := by decide +kernel

theorem test_wf_refuses_empty_message : Instr.wellFormed (.invalidMessage 0 []) = false := by decide +kernel

theorem test_wf_accepts_line_write :
    Instr.wellFormed (.write 0 0#32 1#3 (List.replicate 64 0#8) (List.replicate 64 true)) = true := by decide +kernel

/-- The table gives no row any bits, so no word spells a command, and a word placed for fetching changes nothing. -/
theorem test_no_word_spells_a_command : (decodeTableWord 8 1).isNone = true ∧ (State.reset.withFetchWord 8 1).pending = [] := by
  decide +kernel

/-! ### States for the tests -/

/-- 100 s after power-on reset, initialised, nothing seated. -/
def idlePart : State :=
  { State.reset with now := sec 100, tmc := { Tmc.initialising 0 with initDone := true, reportAt := some 0, patrolAt := some 0 } }

/-- A layout that passes the checks: the windows at 256 KiB and 512 KiB, port table, licence page and ring above. -/
def layout : Layout := ⟨0x40000, 0x80000, 0xC0000, 0xC4000, 0xC6000, 0, Vector.replicate 8 0⟩

/-- The same part, ARMED with that layout, with 100 units of each feature. -/
def armedPart : State :=
  { idlePart with
    plu := { Plu.reset with part := .armed, layout := some layout }
    ziu := { Ziu.reset with epoch := 1 }
    evu := Evu.reset
    lu := { Lu.reset with
      portUnits := { FeatureState.newPart with entitlement := 100 }, xdPorts := { FeatureState.newPart with entitlement := 100 } }
    pbu := { Pbu.reset with
      psus := Vector.replicate 4 ⟨.online, none, none, false, some 30000⟩, supply := 90000, reserved := 90000, ceiling := 1000000,
      available := 90000, derate := 100 }
    ftu := { Ftu.reset with
      rotors := Vector.replicate 12 { RotorRec.reset with state := .ok }, trays := Vector.replicate 6 .ok, lost := 0, derate := 100
      zones := Vector.replicate 2 ⟨30, 100, 100⟩ } }

/-- The link of an UP blade with 24 ports. -/
def upLink : Link := { Link.reset with state := .up, portCount := some 24, keepAt := some (sec 101) }

/-- The record of an UP blade with 24 ports. -/
def upBlade : Blade := { Blade.reset with state := .up, portCount := some 24, base := 1200, powerEn := true }

/-- A fresh temperature with the breakpoints at 30 and 40 °C latched. -/
def warmTemp : BladeTemp :=
  { BladeTemp.reset with
    inlet := some 25, hotspot := some 45, freshAt := some (sec 100), fresh := true, wasFresh := true, input := 45
    latches := #v[true, true, false, false], demand := 45 }

/-- The ARMED part with blade 2 UP and fresh, and the duty of zone 0 as its demand asks. -/
def bladePart : State :=
  ((armedPart.setLink 2 upLink).setBlade 2 upBlade).setFtu { armedPart.ftu with
    temps := Vector.put armedPart.ftu.temps 2 warmTemp, zones := #v[⟨45, 100, 100⟩, ⟨30, 100, 100⟩] }

/-- Port 3 of blade 2. -/
def port3 : PortRef := ⟨2, 3⟩

/-- Class 1 without XD. -/
def class1 : PortConfig := ⟨.class1, false⟩

/-- A word handed to its owner, alone in the queue of handed words. -/
def handing (s : State) (word : WatchedWord) (v : BitVec 64) : State := s.setTbp { s.tbp with handed := [⟨word, v⟩] }

/-- The first handed word of a state. -/
def firstHanded (s : State) (mine : WatchedWord → Bool) : Option Handed := s.tbp.handed.find? (fun h => mine h.word)

/-- A part with an access in progress. -/
def busy (s : State) (kind : AccessKind) (line : Nat) : State := s.setTmc { s.tmc with inProgress := some ⟨⟨kind, line⟩, [], false⟩ }

/-- The state that a command leaves, or the state before it when it does not answer one. -/
def after (c : Instr) (s : State) : State :=
  match exec c s with
  | .next t => t
  | _ => s

/-- A table of 48 ports, the same record at each index below `n` and the reset record above. -/
def portsBelow (n : Nat) (f : Fin 48 → Port) : Vector Port 48 :=
  Vector.mapIx (Vector.replicate 48 Port.reset) (fun i x => if i.1 < n then f i else x)

/-- An ONLINE port with a configuration, an optic class and a priority. -/
def onlinePort (c : PortConfig) (optic : Fin 4) (priority : Fin 8) : Port :=
  { Port.reset with
    state := .online, desired := true, request := some c, granted := some c, priority := priority, optic := some optic }

/-- A port waiting for a licence. -/
def licencePort (c : PortConfig) : Port :=
  { Port.reset with state := .waitLicense, desired := true, request := some c, optic := some 0 }

/-- The configuration of a speed class without XD. -/
def plain (c : SpeedClass) : PortConfig := ⟨c, false⟩

/-! ### The hypotheses of the statements are met -/

/-- The lines of a state are whole where its entries are, and what waits is seen to be. -/
theorem linesWhole_of_checks (s : State) (he : ∀ e ∈ s.swq.entries, e.bytes.length = 64)
    (hw : ∀ u : Fin 7, ∀ x ∈ s.swq.waiting.get u, (match x with | .write (.eventRecord _ r) => r.length | _ => 32) = 32) :
    s.linesWhole :=
  ⟨he, fun u _ _ m => hw u.index _ m⟩

theorem witness_StepCarriesOutTheQueueHead : State.reset.pending = [] := rfl

/-- The part with one command waiting. -/
def waitingPart : State :=
  { bladePart with pending := [.tachPulse 0], ziu := { bladePart.ziu with zone := .awaitAck, ackSet := [2] }
                   lu := { bladePart.lu with program := some ⟨0, .portUnits, 10, 5, sec 1⟩ } }

theorem witness_step : ∃ t, step waitingPart = .next t := ⟨_, rfl⟩

theorem witness_OnlyAGrantWritesTableMemory : (∃ t, exec (.tachPulse 0) bladePart = .next t) ∧
    (∀ flips, Instr.tachPulse 0 ≠ .grant flips) ∧ ∀ p, Instr.tachPulse 0 ≠ .powerOnReset p :=
  ⟨⟨_, rfl⟩, by simp, by simp⟩

theorem witness_TablesStayCanonical : waitingPart.tablesCanonical = true := by decide +kernel

theorem witness_TablesStayCanonical_lines : waitingPart.linesWhole ∧ waitingPart.lossTold :=
  ⟨linesWhole_of_checks _ (by decide +kernel) (by decide +kernel), by unfold State.lossTold; decide +kernel⟩

theorem witness_BladePowerFollowsState : ∀ b, waitingPart.powerFollows b := by
  unfold State.powerFollows
  decide +kernel

theorem witness_LinkAndBladeGoTogether : (∀ b, waitingPart.linkFollows b) ∧ waitingPart.oweUp := by
  unfold State.linkFollows State.oweUp
  decide +kernel

theorem witness_BoundedFiguresStayBounded : waitingPart.bounded := by
  unfold State.bounded
  decide +kernel

theorem witness_ZoneDutyLawKept : (∀ z, waitingPart.dutyLaw z) ∧ (∀ z, State.reset.dutyLaw z) ∧ State.reset.bounded := by
  unfold State.dutyLaw State.bounded
  decide +kernel

theorem witness_ZoneDutyLawKept_target : waitingPart.plu.part = .armed ∧ (∀ t, zoneOfTray t = 0 → waitingPart.ftu.trays.get t = .ok) ∧
    ∀ b, zoneOfSlot b = 0 → (waitingPart.blade b).state ≠ .absent → (waitingPart.ftu.temps.get b).fresh = true := by decide +kernel

theorem witness_EpochAndSwapMoveTogether : ∃ t, exec (.tachPulse 0) bladePart = .next t := ⟨_, rfl⟩

theorem witness_ArmedLastsUntilPowerOnReset : bladePart.plu.part = .armed := by decide +kernel

theorem witness_FloorsNeverFall : waitingPart.programAbove := by
  intro p hp
  have e : p = ⟨0, .portUnits, 10, 5, sec 1⟩ := by simpa [waitingPart] using hp.symm
  subst e
  decide +kernel

theorem witness_FloorsNeverFall_cells :
    (waitingPart.lu.feature .portUnits).cells.get 0 = ⟨(waitingPart.lu.feature .portUnits).floor, true⟩ ∧
    (⟨.portUnits, 0⟩ : NvCellRef) ∉ (⟨false, false, true, [⟨.portUnits, 1⟩]⟩ : PowerOn).badCells := by decide +kernel

theorem witness_ReadyIsAsserted : State.reset.tmc.initDone = false ∧
    (idlePart.setPins { idlePart.pins with warm := true }).pins.warm = true := by decide +kernel

theorem witness_WarmResetDropsRequests : bladePart.pins.warm = false ∧ bladePart.ziu.zone ≠ .validating ∧
    (bladePart.setZiu { bladePart.ziu with zone := .validating }).ziu.zone = .validating := by decide +kernel

/-! #### The table bus -/

theorem witness_ReadIsAnsweredOrTaken_form : bladePart.ready = true ∧ (bladePart.tagSlot 3).outstanding = none ∧
    formFails bladePart (memoryBytes 0) 1 ∧ formFails bladePart 64 2 := by
  unfold formFails
  decide +kernel

theorem witness_ReadIsAnsweredOrTaken_retry : ¬formFails (bladePart.setPbu { bladePart.pbu with hold := true }) 0 4 ∧
    retried (bladePart.setPbu { bladePart.pbu with hold := true }) 0 4 ∧
    retried (bladePart.setPlu { bladePart.plu with part := .arming }) 0x40000 1 := by
  unfold formFails retried
  decide +kernel

theorem witness_ReadIsAnsweredOrTaken_taken : ¬formFails bladePart (memoryBytes 0 - 64) 1 ∧ ¬retried bladePart (memoryBytes 0 - 64) 1 := by
  unfold formFails retried
  decide +kernel

/-- The part with entries of the SWQ for lines 40 and 41, the first of them issued. -/
def queuedPart : State :=
  bladePart.setSwq { bladePart.swq with entries := [⟨0, 40, emptyMask, true, true, false⟩, ⟨1, 41, emptyMask, false, false, false⟩] }

theorem witness_ReadIsAnsweredOrTaken_held : ¬formFails queuedPart (64 * 40) 2 ∧ ¬retried queuedPart (64 * 40) 2 ∧
    (∃ e ∈ queuedPart.swq.entries, e.line ∈ (List.range 2).map (fun i => readLine queuedPart (64 * 40 + 64 * i))) ∧
    ∀ e ∈ queuedPart.swq.entries, e.line ∉ (List.range 1).map (fun i => readLine queuedPart (64 * 42 + 64 * i)) := by
  unfold formFails retried
  decide +kernel

/-- A line of data with every byte enabled. -/
def fullLine : List Byte := List.replicate 64 7#8

theorem witness_RefusedWriteHasNoEffect_form : formFails bladePart 3 1 := by
  unfold formFails
  decide +kernel

theorem witness_RefusedWriteHasNoEffect_denied : ¬formFails bladePart 0x80000 1 ∧
    classify bladePart true (lineAddrs 0x80000 1) ((List.range 1).any (fun i => anyEnabled (lineMask fullLine (List.replicate 64 true) i)))
      ((writeLines bladePart (lineAddrs 0x80000 1) fullLine (List.replicate 64 true)).any (fun l => anyEnabled l.mask)) = some .denied := by
  unfold formFails
  decide +kernel

/-- A single line that lies elsewhere is not in the live window. -/
theorem not_inLiveWindow (s : State) (addr : Nat) (r : Region) (h : regionOf s addr = r) (n : ∀ k, r ≠ .live k) : ¬inLiveWindow s addr 1 := by
  rintro ⟨i, k, hi, hk⟩
  obtain rfl : i = 0 := by omega
  exact n k (h.symm.trans (by simpa using hk))

/-- Every byte of a line enabled, and none. -/
def allOn : List Bool := List.replicate 64 true

def allOff : List Bool := List.replicate 64 false

theorem witness_RefusedWriteHasNoEffect_table :
    tableAnswer (bladePart.setPbu { bladePart.pbu with hold := true }) 0 1 allOn .retry ∧
    tableAnswer bladePart 0x80040 1 allOn .denied ∧ tableAnswer bladePart 2048 1 allOn .denied ∧
    tableAnswer bladePart 0x40040 1 allOff .ok ∧ tableAnswer waitingPart 0x40040 1 allOn .retry := by
  have hold : retried (bladePart.setPbu { bladePart.pbu with hold := true }) 0 1 := by unfold retried; decide +kernel
  have free (a : Nat) : ¬retried bladePart a 1 := by rintro (h | ⟨h, -⟩) <;> revert h <;> decide +kernel
  have free' (a : Nat) : ¬retried waitingPart a 1 := by rintro (h | ⟨h, -⟩) <;> revert h <;> decide +kernel
  have live : inLiveWindow bladePart 0x80040 1 := ⟨0, 1, by decide, by decide +kernel⟩
  have part : ¬inLiveWindow bladePart 2048 1 := not_inLiveWindow _ _ (.policy 32) (by decide +kernel) (by simp)
  have stage : ¬inLiveWindow bladePart 0x40040 1 := not_inLiveWindow _ _ (.stage 1) (by decide +kernel) (by simp)
  have stage' : ¬inLiveWindow waitingPart 0x40040 1 := not_inLiveWindow _ _ (.stage 1) (by decide +kernel) (by simp)
  refine ⟨.inl ⟨hold, rfl⟩, .inr (.inl ⟨free _, live, rfl⟩), .inr (.inr (.inl ⟨free _, part, ⟨0, by decide, by decide⟩, ?_, rfl⟩)),
    .inr (.inr (.inr (.inl ⟨free _, stage, ?_, rfl⟩))), .inr (.inr (.inr (.inr ⟨free' _, stage', ?_, by decide +kernel, ?_, rfl⟩)))⟩
  · unfold writeOwned
    decide +kernel
  · unfold writeEnables
    decide +kernel
  · exact ⟨0, by decide, by decide, by decide +kernel⟩
  · exact ⟨0, 1, by decide, by decide, by decide +kernel⟩

/-- The part during the validation of a commit. -/
def validatingPart : State :=
  bladePart.setZiu { bladePart.ziu with zone := .validating, started := 4, declared := 1, dirty := [(9, .staged)]
                                        validator := some ⟨1, false, 1, [], none⟩ }

theorem witness_CarriedWriteStagesItsLines : validatingPart.ready = true ∧ (validatingPart.tagSlot 3).outstanding = none ∧
    ¬formFails validatingPart 0x40040 1 ∧ classify validatingPart true (lineAddrs 0x40040 1)
      ((List.range 1).any (fun i => anyEnabled (lineMask fullLine (List.replicate 64 true) i)))
      ((writeLines validatingPart (lineAddrs 0x40040 1) fullLine (List.replicate 64 true)).any (fun l => anyEnabled l.mask)) = none ∧
    sparseWf .clean validatingPart.ziu.dirty = true ∧
    bankLines validatingPart (writeLines validatingPart (lineAddrs 0x40040 1) fullLine (List.replicate 64 true)) = [1] ∧
    copyPresented validatingPart 1 = false ∧ validatingPart.ziu.zone = .validating := by
  unfold formFails
  decide +kernel

/-- The part while the resync copy of bank line 9 is in progress. -/
def copyingPart (failed : Bool) : State :=
  (bladePart.setZiu { bladePart.ziu with zone := .resyncing, dirty := [(9, .resync)], copying := some 9, resyncPos := 9 }).setTmc
    { bladePart.tmc with inProgress := some ⟨⟨.resync 9 8201, 4105⟩, [], failed⟩ }

/-- Row 7 of the table, on bank line 1 of the stage window and, half enabled, on a RESYNC line whose copy is presented. -/
theorem witness_CarriedWriteStagesItsLines_table : tableCarries validatingPart 0x40040 1 allOn ∧
    stageLine validatingPart 0x40040 = some 1 ∧ ¬formFails (copyingPart false) 0x40240 1 ∧
    copyPresented (copyingPart false) 9 = true ∧ (copyingPart false).ziu.lineState 9 = .resync ∧
    bankLines (copyingPart false) (writeLines (copyingPart false) (lineAddrs 0x40240 1) fullLine (List.replicate 32 true ++ List.replicate 32 false)) = [9] ∧
    (lineMask fullLine (List.replicate 32 true ++ List.replicate 32 false) 0).all (·.isSome) = false := by
  refine ⟨⟨?_, ?_, ?_, ?_⟩, ?_⟩
  · rintro (h | ⟨h, -⟩) <;> revert h <;> decide +kernel
  · exact not_inLiveWindow _ _ (.stage 1) (by decide +kernel) (by simp)
  · exact ⟨0, by decide, by decide, by decide +kernel⟩
  · exact fun h => absurd h.1 (by decide +kernel)
  · unfold formFails
    decide +kernel

/-- A WRITE of bank lines 8 and 9 that enables no byte of line 9, which is RESYNC: each line is an access of its own (R47, Table 3.4-1),
and line 9 becomes STAGED behind its merge copy; the job and the stage writes in flight count two lines and one copy (R6, R9). -/
theorem witness_CarriedWriteStagesItsLines_empty :
    let s := bladePart.setZiu { bladePart.ziu with dirty := [(9, .resync)] }
    let t := after (.write 3 0x40200#32 2#3 (fullLine ++ fullLine) (allOn ++ allOff)) s
    tableCarries s 0x40200 2 (allOn ++ allOff) ∧ t.ziu.dirty = [(8, .staged), (9, .staged)] ∧
    (t.ziu.stageWrites = 3 ∧ t.tmc.jobs.map (·.stageWrites) = [3]) ∧
    t.tmc.presented.filter (fun a => a.kind.isTbp) =
      [⟨.busWrite s.tmc.nextJob 0 (fullLine.map some) none, 4104⟩, ⟨.busWrite s.tmc.nextJob 1 (List.replicate 64 none) (some 8201), 4105⟩] := by
  refine ⟨⟨?_, ?_, ?_, ?_⟩, ?_, ?_, ?_⟩
  · rintro (h | ⟨h, -⟩) <;> revert h <;> decide +kernel
  · rintro ⟨i, k, hi, hk⟩
    obtain rfl | rfl : i = 0 ∨ i = 1 := by omega
    · revert hk; rw [show regionOf _ (0x40200 + 64 * 0) = Region.stage 8 by decide +kernel]; simp
    · revert hk; rw [show regionOf _ (0x40200 + 64 * 1) = Region.stage 9 by decide +kernel]; simp
  · exact ⟨0, by decide, by decide, by decide +kernel⟩
  · exact fun h => absurd h.1 (by decide +kernel)
  all_goals decide +kernel

/-- What a WRITE of one line adds to the stage writes in flight: nothing outside the stage window, one for a bank line that is CLEAN,
STAGED or wholly written, two for one in RESYNC or held in error of which a byte stays (R6, R9). -/
theorem witness_CarriedWriteStagesItsLines_stageWrites :
    let s := bladePart.setZiu { bladePart.ziu with dirty := [(8, .staged), (9, .resync), (10, .errorHeld)] }
    let adds (addr : Nat) (enables : List Bool) : Nat := s.stageWritesOf (writeLines s (lineAddrs addr 1) fullLine enables)
    let most := List.replicate 63 true ++ [false]
    adds 0xD0000 most = 0 ∧ adds 0x40000 most = 0 ∧ adds 0x401C0 most = 1 ∧ adds 0x40200 most = 1 ∧ adds 0x40240 allOn = 1 ∧
      adds 0x40240 most = 2 ∧ adds 0x40280 most = 2 ∧ adds 0x40280 allOn = 1 := by decide +kernel

theorem witness_CarriedWriteStagesItsLines_policy : ¬formFails bladePart (2048 - 64) 1 ∧
    classify bladePart true (lineAddrs (2048 - 64) 1)
      ((List.range 1).any (fun i => anyEnabled (lineMask fullLine (List.replicate 64 true) i)))
      ((writeLines bladePart (lineAddrs (2048 - 64) 1) fullLine (List.replicate 64 true)).any (fun l => anyEnabled l.mask)) = none ∧
    bankLines bladePart (writeLines bladePart (lineAddrs (2048 - 64) 1) fullLine (List.replicate 64 true)) = [] := by
  unfold formFails
  decide +kernel

/-- The part with the tunables that a copy of the policy block gives: margin 25, holdoff 5, two weights, a thermal base of 20,000 with
no derating, 200 dW of XD and 45 of class 1, the last breakpoint at 70 °C; blade 3 is POWERING and port 3 of blade 2 ONLINE. -/
def tunedPart : State :=
  let copy := ((idlePart.plu.copy.writeMasked 132 ((leBytes 4 20000 ++ List.replicate 5 100#8).map some)).writeMasked 144
    ((leBytes 2 45 ++ leBytes 2 0 ++ leBytes 2 0 ++ leBytes 2 0 ++ leBytes 2 200 ++ leBytes 2 25 ++ leBytes 1 5).map some)).writeMasked 166
    ((leBytes 1 70 ++ leBytes 1 100 ++ leBytes 1 30 ++ leBytes 1 80 ++ leBytes 1 90).map some)
  let s := (((bladePart.setEvu { bladePart.evu with producer := 9 }).setBlade 3 { Blade.reset with state := .powering, powerEn := true }).setPort port3
    { Port.reset with state := .online, desired := true, request := some class1, granted := some class1 }).setPlu
    { bladePart.plu with copy := copy, inUse := Tunables.ofCopy copy }
  s.setPbu (computeFigures s)

/-- The state after one byte of policy line 2 is written. -/
def retuned (i : Nat) (v : Byte) : State :=
  after (.write 3 128#32 1#3 (List.replicate 64 v) ((List.range 64).map (fun j => decide (j = i)))) tunedPart

/-- Bytes 1, 10, 16, 31, 42, 43, 46 and 50 of policy line 2 are r, a derate factor, the low byte of class 1's draw, the high byte of
the default base draw, crit, the inlet offset, the coalesce count and the weight of slot 0 (Table 10.4-1). -/
theorem witness_CarriedWriteStagesItsLines_tunables : tunedPart.pbu.hold = false ∧ tunedPart.pbu.holdoffAt = none ∧
    tunedPart.plu.part = .armed ∧ tunedPart.evu.asserted = false ∧ (tunedPart.blade 3).state = .powering ∧
    (tunedPart.ftu.temps.get 2).fresh = true ∧ (tunedPart.ftu.temps.get 3).fresh = false ∧
    (retuned 1 20#8).plu.inUse = { tunedPart.plu.inUse with reserve := 20 } ∧
    (retuned 16 1#8).plu.inUse = { tunedPart.plu.inUse with speedDraw := (retuned 16 1#8).plu.inUse.speedDraw } ∧
    { tunedPart with plu := { tunedPart.plu with inUse := (retuned 16 1#8).plu.inUse } }.committed < tunedPart.committed ∧
    { tunedPart with plu := { tunedPart.plu with inUse := (retuned 16 1#8).plu.inUse } }.projected ≤ tunedPart.pbu.available ∧
    (retuned 43 1#8).plu.inUse.inletOffset ≠ tunedPart.plu.inUse.inletOffset ∧ (retuned 10 90#8).plu.inUse.derate ≠ tunedPart.plu.inUse.derate ∧
    (retuned 42 0xD8#8).plu.inUse.crit = -40 ∧ ((retuned 42 0xD8#8).ftu.temps.get 2).thermal = .hot ∧
    (tunedPart.ftu.temps.get 2).thermal ≠ .hot ∧ (tunedPart.port port3).state = .online ∧
    (retuned 46 9#8).plu.inUse.coCount = 9 ∧ tunedPart.plu.inUse.coCount ≠ 9 ∧
    (tunedPart.evu.producer + tunedPart.capacity - tunedPart.evu.consumer) % tunedPart.capacity = 9 ∧ (retuned 50 2#8).plu.inUse.weights ≠ tunedPart.plu.inUse.weights ∧
    (retuned 31 9#8).plu.inUse ≠ tunedPart.plu.inUse ∧ (retuned 63 9#8).plu.inUse = tunedPart.plu.inUse := by decide +kernel

theorem witness_CarriedWriteStagesItsLines_retuned : budgetLaw tunedPart ∧ tunedPart.waitsMatch := by
  unfold budgetLaw supplyLaw State.waitsMatch
  dsimp only
  exact ⟨⟨⟨by decide +kernel, fun _ => ⟨by decide +kernel, by decide +kernel, by decide +kernel⟩⟩, by decide +kernel⟩, by decide +kernel⟩

/-- A WRITE of the weight of slot 0 alone: no draw and no thermal tunable moves, so no restore process runs behind the grant round. The
e table at 45, its value in use, is the boundary at which D does not fall. -/
theorem witness_CarriedWriteStagesItsLines_weights :
    let u := (retuned 50 2#8).plu.inUse
    u = { tunedPart.plu.inUse with weights := u.weights } ∧ u.weights ≠ tunedPart.plu.inUse.weights ∧
      tunedPart.committed ≤ { tunedPart with plu := { tunedPart.plu with inUse := u } }.committed ∧
      (retuned 16 45#8).plu.inUse = tunedPart.plu.inUse ∧
      ¬tunedPart.committed ≤ { tunedPart with plu := { tunedPart.plu with inUse := (retuned 16 44#8).plu.inUse } }.committed := by
  decide +kernel

/-- The part with a READ outstanding at tag 3. -/
def busyTagPart : State := bladePart.setTag 3 ⟨some ⟨false, 128, 1⟩, none⟩

theorem witness_RequestOnABusyTagIsDiscarded : busyTagPart.ready = true ∧ (busyTagPart.tagSlot 3).outstanding.isSome = true ∧
    busyTagPart.plu.part = .armed ∧ busyTagPart.evu.intake.length < 32 ∧
    (idlePart.setTag 3 ⟨some ⟨true, 128, 1⟩, none⟩).ready = true ∧ idlePart.plu.part ≠ .armed ∧
    32 ≤ (busyTagPart.setEvu { busyTagPart.evu with
      intake := List.replicate 32 ⟨1, 0, busProtocolEvent 0 false 0 1⟩ }).evu.intake.length := by decide +kernel

theorem witness_WindowReadsFollowSwapAndDirtyMap : bladePart.plu.part = .armed ∧ bladePart.plu.layout = some layout ∧
    layout.check (memoryBytes bladePart.tmc.density) = none := by decide +kernel

/-- The part while the last line of a bus request is in progress. -/
def requestPart (write : Bool) : State :=
  busy (busyTagPart.setTmc { busyTagPart.tmc with jobs := [⟨7, some 3, write, [[]], false, 1, []⟩] })
    (if write then .busWrite 7 0 (List.replicate 64 (some 1#8)) none else .busRead 7 0) 2

theorem witness_CompletionAnswersTheRequest : (requestPart false).tmc.inProgress = some ⟨⟨.busRead 7 0, 2⟩, [], false⟩ ∧
    (requestPart false).tmc.isLast (.busRead 7 0) = true ∧
    (requestPart false).tmc.jobs.find? (fun x => decide (x.id = 7)) = some ⟨7, some 3, false, [[]], false, 1, []⟩ ∧
    (requestPart true).tmc.inProgress = some ⟨⟨.busWrite 7 0 (List.replicate 64 (some 1#8)) none, 2⟩, [], false⟩ ∧
    (requestPart true).tmc.isLast (.busWrite 7 0 (List.replicate 64 (some 1#8)) none) = true ∧
    (requestPart true).tmc.jobs.find? (fun x => decide (x.id = 7)) = some ⟨7, some 3, true, [[]], false, 1, []⟩ := by decide +kernel

/-! #### Table memory -/

/-- The part with accesses presented. -/
def presenting (l : List Access) : State := bladePart.setTmc { bladePart.tmc with presented := l }

theorem witness_GrantWritesTheEnabledBytes : bladePart.tmc.initDone = true ∧ bladePart.tmc.power = .active ∧
    bladePart.tmc.inProgress = none ∧ bladePart.tmc.debt < 8 ∧ bladePart.tmc.mem.wf = true ∧
    (presenting [⟨.busWrite 7 0 (List.replicate 64 (some 1#8)) none, 8⟩]).tmc.presented =
      [⟨.busWrite 7 0 (List.replicate 64 (some 1#8)) none, 8⟩] ∧
    memoryLines bladePart.tmc.density - 1 < memoryLines bladePart.tmc.density := by decide +kernel

theorem witness_GrantFollowsTheServiceOrder : 8 ≤ (bladePart.setTmc { bladePart.tmc with debt := 8 }).tmc.debt ∧
    (presenting [⟨.busRead 7 0, 8⟩, ⟨.fetch 2 0 0, 9⟩]).tmc.debt < 8 ∧
    (presenting [⟨.busRead 7 0, 8⟩, ⟨.fetch 2 0 0, 9⟩]).tmc.tbpWait ≤ 3 ∧
    (presenting [⟨.busRead 7 0, 8⟩, ⟨.fetch 2 0 0, 9⟩]).tmc.internalWait < 6 ∧ 9 < memoryLines bladePart.tmc.density := by decide +kernel

/-- The part with a copy-first write and its job, with the head of the SWQ, with a resync copy and with reads, each alone before the
arbiter; word 2 of line 4105 is correctable and word 3 of line 8201 poisoned. -/
def grantPart (a : Access) : State :=
  let s := presenting [a]
  (((s.setTmc { s.tmc with
      jobs := [⟨7, some 3, false, [[]], false, 0, []⟩], marks := [(8 * 4105 + 2, .oneWrong), (8 * 8201 + 3, .poison)] }).setSwq
    { s.swq with entries := [⟨0, 40, List.replicate 64 (some 1#8), true, false, false⟩] }).setLink 2
    { upLink with fetches := Vector.put upLink.fetches 1 (some ⟨9, 1, some (0, 1), [], false⟩) })

theorem witness_grants : ∀ a ∈ ([⟨.busRead 7 0, 4105⟩, ⟨.fetch 2 1 0, 4105⟩, ⟨.validator 1, 8201⟩, ⟨.token 4, 12548⟩, ⟨.swqHead, 40⟩,
    ⟨.busWrite 7 0 (List.replicate 64 none) (some 8201), 4105⟩, ⟨.resync 9 8201, 4105⟩] : List Access), (grantPart a).grants a := by
  unfold State.grants
  decide +kernel

theorem witness_GrantWritesTheEnabledBytes_copies : let s := grantPart ⟨.busWrite 7 0 (List.replicate 64 none) (some 8201), 4105⟩
    s.foundBad 8201 [] = true ∧ s.foundBad 4105 [] = false ∧ bankLineOf s 4105 = some (0, 9) ∧ s.tmc.mem.wf = true ∧
    sparseWf .clean s.tmc.marks = true ∧ s.swq.entries.head?.map (·.bytes.length) = some 64 ∧
    s.foundOne 4105 [] = 1 ∧ s.found 4105 [⟨2, false⟩] 2 = .twoWrong ∧ (s.link 2).fetches.get 1 = some ⟨9, 1, some (0, 1), [], false⟩ := by
  decide +kernel

/-- Behind an access whose lines all later ones touch, none of those is eligible. -/
theorem eligibleAt_first (a x : Access) (rest : List Access) (s : State) (i : Nat) (h : s.tmc.presented = a :: rest)
    (hr : ∀ y ∈ rest, ∃ l ∈ y.lines, l ∈ a.lines) : s.eligibleAt i x ↔ i = 0 ∧ x = a := by
  unfold State.eligibleAt
  rw [h]
  rcases i with - | i
  · simp [eq_comm]
  · simp only [Nat.add_eq_zero_iff, one_ne_zero, and_false, false_and, iff_false]
    rintro ⟨hx, hw⟩
    obtain ⟨l, hl, ha⟩ := hr x (List.mem_of_getElem? (by simpa using hx))
    exact hw 0 a (by omega) (by simp) l hl ha

/-- The arbiter with accesses presented, its waiting counts and its debt given. -/
def queuedUpPart (l : List Access) (tbpWait internalWait debt : Nat) : State :=
  (presenting l).setTmc { (presenting l).tmc with
    tbpWait := tbpWait, internalWait := internalWait, debt := debt, deferred := [(0, 9)], lastInternal := .swq, lastSlot := 7 }

/-- Each row of Table 3.4-2 with the least that it asks for. -/
theorem witness_GrantFollowsTheServiceOrder_rows : (queuedUpPart [⟨.busRead 7 0, 8⟩] 3 0 7).serves ⟨.busRead 7 0, 8⟩ ∧
    (queuedUpPart [⟨.swqHead, 40⟩] 3 6 7).serves ⟨.swqHead, 40⟩ ∧ (queuedUpPart [⟨.fetch 2 1 0, 4105⟩] 3 6 7).serves ⟨.fetch 2 1 0, 4105⟩ ∧
    (queuedUpPart [⟨.busRead 7 0, 8⟩] 2 6 7).serves ⟨.busRead 7 0, 8⟩ ∧ (queuedUpPart [⟨.token 4, 12548⟩] 3 5 7).serves ⟨.token 4, 12548⟩ ∧
    (queuedUpPart [⟨.deferredScrub 0 9, 4105⟩] 3 6 0).serves ⟨.deferredScrub 0 9, 4105⟩ ∧
    (queuedUpPart [⟨.patrol, 5⟩] 3 6 0).serves ⟨.patrol, 5⟩ ∧ (queuedUpPart [⟨.patrol, 5⟩] 3 6 7).noTraffic := by
  have el (a x : Access) (m n d i : Nat) : (queuedUpPart [a] m n d).eligibleAt i x ↔ i = 0 ∧ x = a := eligibleAt_first a x [] _ i rfl (by simp)
  have ne (a : Access) (m n d : Nat) (p : Access → Prop) : (queuedUpPart [a] m n d).noneEligible p ↔ ¬p a := by simp [State.noneEligible, el]
  have old (a : Access) (m n d : Nat) (p : Access → Prop) (h : p a) : (queuedUpPart [a] m n d).oldest p a := ⟨h, 0, (el ..).2 ⟨rfl, rfl⟩, by omega⟩
  have fr (a x : Access) (m n d : Nat) (b : Slot) : (queuedUpPart [a] m n d).fetchReady b x ↔ x = a ∧ a.slot = some b :=
    ⟨fun ⟨_, he, hs, _⟩ => ⟨((el ..).1 he).2, ((el ..).1 he).2 ▸ hs⟩, fun ⟨hx, hs⟩ => ⟨0, (el ..).2 ⟨rfl, hx⟩, hx ▸ hs, by omega⟩⟩
  have tw (a : Access) (m n d : Nat) : (queuedUpPart [a] m n d).tmc.tbpWait = m := rfl
  have iw (a : Access) (m n d : Nat) : (queuedUpPart [a] m n d).tmc.internalWait = n := rfl
  have dl (a : Access) (m n d : Nat) : (queuedUpPart [a] m n d).tmc.deferred = [(0, 9)] := rfl
  refine ⟨⟨by decide, .inl ⟨?_, old _ _ _ _ _ rfl⟩⟩, ⟨by decide, .inr (.inl ⟨?_, ?_, .swq, rfl, ?_, old _ _ _ _ _ ⟨rfl, Iff.rfl⟩, .inr ?_⟩)⟩,
    ⟨by decide, .inr (.inr (.inl ⟨?_, ?_, 2, (fr _ _ _ _ _ _).2 ⟨rfl, rfl⟩, ?_⟩))⟩,
    ⟨by decide, .inr (.inr (.inr (.inl ⟨?_, ?_, ?_, old _ _ _ _ _ rfl⟩)))⟩,
    ⟨by decide, .inr (.inr (.inr (.inr (.inl ⟨?_, ?_, ?_, ?_, .validator, rfl, ?_, old _ _ _ _ _ ⟨rfl, Iff.rfl⟩, .inr ?_⟩))))⟩,
    ⟨by decide, .inr (.inr (.inr (.inr (.inr ⟨?_, rfl, .inl ⟨0, (0, 9), rfl, old _ _ _ _ _ rfl, by omega⟩⟩))))⟩,
    ⟨by decide, .inr (.inr (.inr (.inr (.inr ⟨?_, rfl, .inr ⟨?_, old _ _ _ _ _ rfl⟩⟩))))⟩, ?_⟩ <;>
  simp [ne, fr, el, dl, tw, iw, State.noTraffic, AccessKind.isTbp, AccessKind.isInternal, AccessKind.place,
    AccessKind.scrub, Access.slot, Access.forToken]

theorem witness_GrantFollowsTheServiceOrder_scrubs : (grantPart ⟨.patrol, 4105⟩).grants ⟨.patrol, 4105⟩ ∧
    (grantPart ⟨.patrol, 8201⟩).grants ⟨.patrol, 8201⟩ ∧ (grantPart ⟨.patrol, 8201⟩).tmc.debt = 0 ∧
    (queuedUpPart [⟨.deferredScrub 0 9, 4105⟩] 0 0 0).grants ⟨.deferredScrub 0 9, 4105⟩ ∧
    (0, 9) ∈ (queuedUpPart [⟨.deferredScrub 0 9, 4105⟩] 0 0 0).tmc.deferred ∧ (grantPart ⟨.patrol, 8201⟩).tmc.channelFree = true ∧
    (grantPart ⟨.patrol, 4105⟩).foundBad 4105 [] = false ∧ (grantPart ⟨.patrol, 8201⟩).foundBad 8201 [] = true := by
  unfold State.grants
  decide +kernel

/-- A deferred scrub that finds a word still wrong, and one that finds a word freshly wrong beside it. -/
theorem witness_GrantFollowsTheServiceOrder_fresh : let s := queuedUpPart [⟨.deferredScrub 0 9, 4105⟩] 0 0 0
    let u := s.setTmc { s.tmc with marks := [(8 * 4105 + 2, .oneWrong)] }
    u.grants ⟨.deferredScrub 0 9, 4105⟩ ∧ (0, 9) ∈ u.tmc.deferred ∧ u.foundOne 4105 [] = 1 ∧ u.foundFresh 4105 [] = 0 ∧
    u.foundOne 4105 [⟨4, false⟩] = 2 ∧ u.foundFresh 4105 [⟨4, false⟩] = 1 := by
  unfold State.grants
  decide +kernel

/-- A read of the bus that waits behind the head of the SWQ, to its line, is presented and not eligible (R58). -/
theorem witness_GrantFollowsTheServiceOrder_waits (s : State) (h : s = queuedUpPart [⟨.swqHead, 40⟩, ⟨.busRead 7 0, 40⟩] 1 6 7) :
    s.serves ⟨.swqHead, 40⟩ ∧ s.noneEligible (fun x => x.kind.isTbp = true) ∧ ∃ x ∈ s.tmc.presented, x.kind.isTbp = true := by
  have el (x : Access) (i : Nat) : s.eligibleAt i x ↔ i = 0 ∧ x = ⟨.swqHead, 40⟩ := by
    subst h
    exact eligibleAt_first _ x [⟨.busRead 7 0, 40⟩] _ i rfl (by decide)
  have ne : s.noneEligible (fun x => x.kind.isTbp = true) := by simp [State.noneEligible, el, AccessKind.isTbp]
  refine ⟨⟨by subst h; decide, .inr (.inl ⟨fun hd => hd.2 ne, ⟨by subst h; decide, ?_⟩, .swq, rfl, ?_, ⟨⟨rfl, Iff.rfl⟩, 0, (el ..).2 ⟨rfl, rfl⟩, by omega⟩,
    .inr ?_⟩)⟩, ne, by subst h; decide⟩ <;>
  simp [State.noneEligible, el, AccessKind.isInternal, AccessKind.place, Access.forToken]

theorem witness_RefreshAndPowerStates_idle : (bladePart.setTmc { bladePart.tmc with idleAt := some (sec 100) }).tmc.presented = [] ∧
    (bladePart.setTmc { bladePart.tmc with idleAt := some (sec 100) }).lossTold := by
  unfold State.lossTold
  decide +kernel

theorem witness_RefreshAndPowerStates : idlePart.tmc.refreshAt = some 780 ∧ 780 ≤ idlePart.now ∧
    (bladePart.setTmc { bladePart.tmc with idleAt := some (sec 100) }).tmc.power = .active ∧
    (bladePart.setTmc { bladePart.tmc with idleAt := some (sec 100) }).tmc.idleAt = some bladePart.now ∧
    eligibleScrubs (bladePart.setTmc { bladePart.tmc with idleAt := some (sec 100) }) = [] ∧
    (bladePart.setTmc { bladePart.tmc with holdTold := true }).tmc.drained = true ∧
    (bladePart.setTmc { bladePart.tmc with exiting := true, power := .selfRefresh }).tmc.power = .selfRefresh := by decide +kernel

theorem witness_PatrolScrubsAndReports : bladePart.tmc.patrolAt = some 0 ∧ 0 ≤ bladePart.now ∧ bladePart.tmc.accepting = true ∧
    bladePart.tmc.patrolWaits = false ∧ (busy bladePart .patrol 5).tmc.inProgress = some ⟨⟨.patrol, 5⟩, [], false⟩ ∧
    (busy bladePart (.deferredScrub 1 5) 9).tmc.inProgress = some ⟨⟨.deferredScrub 1 5, 9⟩, [], false⟩ ∧
    bladePart.tmc.reportAt = some 0 ∧ bladePart.evu.intake.length ≤ 29 := by decide +kernel

theorem witness_PatrolScrubsAndReports_waits : (presenting [⟨.patrol, 5⟩]).tmc.patrolWaits = true ∧
    (presenting [⟨.patrol, 5⟩]).tmc.patrolAt = some 0 ∧ (bladePart.setTmc { bladePart.tmc with holdTold := true }).tmc.accepting = false := by
  decide +kernel

/-- The part with the head entry of the SWQ in progress and the EVU waiting for its drain report. -/
def drainingPart : State := busy (queuedPart.setEvu { bladePart.evu with phase := .draining .info }) .swqHead 40

theorem witness_SwqHeadLeavesTheQueue : drainingPart.tmc.inProgress = some ⟨⟨.swqHead, 40⟩, [], false⟩ ∧
    drainingPart.swq.entries = [⟨0, 40, emptyMask, true, true, false⟩, ⟨1, 41, emptyMask, false, false, false⟩] ∧
    drainingPart.evu.phase = .draining .info := by decide +kernel

/-- The part with 63 SWQ entries and a write of the PAU waiting. -/
def fullQueuePart : State :=
  bladePart.setSwq { bladePart.swq with
    entries := List.replicate 63 ⟨0, 9000, emptyMask, true, false, false⟩
    waiting := Vector.put bladePart.swq.waiting 1 [.write (.bladeErrors 2)] }

theorem witness_FreedPlaceGoesRound : fullQueuePart.swq.entries.length < 64 ∧
    (unitsAfter fullQueuePart.swq.lastServed).find? fullQueuePart.swq.unitWaits = some .pau ∧
    fullQueuePart.swq.waits .pau = [.write (.bladeErrors 2)] ∧
    render fullQueuePart (.bladeErrors 2) = some (40, maskAt 22 [0#8, 0#8]) := by decide +kernel

theorem witness_FreedPlaceGoesRound_whole : fullQueuePart.linesWhole ∧ fullQueuePart.lossTold ∧ ∀ e l, ([] : List WaitItem) ≠ .event e :: l :=
  ⟨linesWhole_of_checks _ (by decide +kernel) (by decide +kernel), by unfold State.lossTold; decide +kernel, by simp⟩

/-! #### Zone images -/

/-- The part with a zone command word handed over: code, sequence 4 and a declared count of 1. -/
def zoneWord (code : Nat) (z : Ziu) : State := handing (bladePart.setZiu z) .zoneCommand (BitVec.ofNat 64 (code + 65536 * 4 + 2 ^ 32))

theorem witness_CommitIsDecidedInOrder :
    firstHanded (zoneWord 1 bladePart.ziu) WatchedWord.isZone = some ⟨.zoneCommand, 0x100040001#64⟩ ∧
    wordSequence 0x100040001#64 ≠ bladePart.ziu.seen ∧ wordCode 0x100040001#64 = 1 ∧ wordCount 0x100040001#64 = 1 ∧
    validatingPart.ziu.zone ≠ .idle ∧ bladePart.ziu.zone = .idle ∧ bladePart.ziu.resyncCount = 0 ∧ bladePart.ziu.stagedCount = 0 ∧
    bladePart.ziu.epoch ≠ 4294967295 ∧ 0 < ({ bladePart.ziu with dirty := [(9, .errorHeld)] } : Ziu).resyncCount ∧
    0 < ({ bladePart.ziu with dirty := [(9, .staged)] } : Ziu).stagedCount := by decide +kernel

theorem witness_AbortIsDecidedByZoneState :
    firstHanded (zoneWord 2 bladePart.ziu) WatchedWord.isZone = some ⟨.zoneCommand, 0x100040002#64⟩ ∧
    wordSequence 0x100040002#64 ≠ bladePart.ziu.seen ∧ wordCode 0x100040002#64 = 2 ∧ bladePart.plu.layout.isSome = true ∧
    (∀ e ∈ validatingPart.ziu.dirty, 1 ≤ e.1) ∧ validatingPart.ziu.zone = .validating ∧
    0 < validatingPart.ziu.stagedCount + validatingPart.ziu.resyncCount ∧ bladePart.ziu.stagedCount + bladePart.ziu.resyncCount = 0 ∧
    waitingPart.ziu.zone = .awaitAck := by decide +kernel

theorem witness_OtherZoneWordsChangeNoImage :
    firstHanded (zoneWord 0 bladePart.ziu) WatchedWord.isZone = some ⟨.zoneCommand, 0x100040000#64⟩ ∧ wordCode 0x100040000#64 = 0 ∧
    firstHanded (zoneWord 3 bladePart.ziu) WatchedWord.isZone = some ⟨.zoneCommand, 0x100040003#64⟩ ∧ 2 < wordCode 0x100040003#64 ∧
    wordSequence 0x100040000#64 ≠ bladePart.ziu.seen ∧ wordSequence 0x100040003#64 ≠ bladePart.ziu.seen := by decide +kernel

theorem witness_ValidationStartsAndEndsOnError : validatingPart.ziu.validator = some ⟨1, false, 1, [], none⟩ ∧
    validatingPart.ziu.stageWrites = 0 ∧ scrubInProgress validatingPart.tmc validatingPart.ziu.stageBank = false ∧
    (validatingPart.setTmc { validatingPart.tmc with inProgress := some ⟨⟨.validator 1, 4097⟩, [], true⟩ }).tmc.inProgress =
      some ⟨⟨.validator 1, 4097⟩, [], true⟩ := by decide +kernel

/-- The part while the validator reads bank line 128, with the entries of the directory read before it. -/
def directoryPart (declared line : Nat) (entries : List DirEntry) : State :=
  (validatingPart.setZiu { validatingPart.ziu with declared := declared, validator := some ⟨1, true, line, entries, none⟩ }).setTmc
    { validatingPart.tmc with inProgress := some ⟨⟨.validator 1, 4224⟩, List.replicate 64 0#8, false⟩ }

/-- What check 1 to 5 the validator names for a declared count and the entries read (Table 1.4-1, R14). -/
def judged (declared : Nat) (entries : List DirEntry) : CommitResult × Nat :=
  let t := after .validatorReadComplete (directoryPart declared 128 entries)
  (t.ziu.result, t.ziu.detail)

theorem test_directory_checks : judged 1025 [] = (.count, 1025) ∧ judged 2 [⟨5, 0, 1⟩, ⟨0, 1, 1⟩] = (.directory, 1) ∧
    judged 1 [⟨5, 0, 1⟩, ⟨6, 1, 1⟩] = (.directory, 1) ∧ judged 2 [⟨5, 0, 1⟩, ⟨5, 1, 1⟩] = (.duplicate, 1) ∧
    judged 1 [⟨5, 15868, 1⟩] = (.range, 0) ∧ judged 2 [⟨5, 0, 2⟩, ⟨6, 1, 1⟩] = (.overlap, 1) := by decide +kernel

/-- Entry 0 is the lowest that fails where it fails. -/
theorem lowest_zero (f : Nat → Prop) (h : f 0) : lowest f 0 := ⟨h, by simp⟩

theorem witness_ValidationStartsAndEndsOnError_judged : directoryJudged 1025 [] .count 1025 ∧ directoryJudged 1 [⟨0, 0, 1⟩] .directory 0 ∧
    directoryJudged 1 [⟨5, 15868, 1⟩] .range 0 ∧ directoryJudged 2 [⟨5, 0, 1⟩, ⟨5, 1, 1⟩] .duplicate 1 ∧
    directoryJudged 2 [⟨5, 0, 2⟩, ⟨6, 1, 1⟩] .overlap 1 := by
  refine ⟨.inl ⟨by decide, rfl, rfl⟩, .inr (.inl ⟨by decide, lowest_zero _ ⟨⟨0, 0, 1⟩, rfl, by simp⟩, rfl⟩),
    .inr (.inr (.inr (.inl ⟨by decide, ?_, ?_, lowest_zero _ ⟨by decide, ⟨5, 15868, 1⟩, rfl, by simp⟩, rfl⟩))),
    .inr (.inr (.inl ⟨by decide, ?_, ⟨?_, ?_⟩, rfl⟩)), .inr (.inr (.inr (.inr ⟨by decide, ?_, ?_, ?_, ⟨?_, ?_⟩, rfl⟩)))⟩
  · rintro j ⟨e, he, hz⟩
    rcases j with - | j
    · obtain rfl : (⟨5, 15868, 1⟩ : DirEntry) = e := by simpa using he
      simp at hz
    · simp at he
  · rintro j ⟨hj, i, a, e, hi, -⟩
    omega
  · rintro j ⟨e, he, hz⟩
    rcases j with - | - | j
    all_goals simp at he
    all_goals subst he
    all_goals simp at hz
  · exact ⟨by decide, 0, ⟨5, 0, 1⟩, ⟨5, 1, 1⟩, by decide, rfl, rfl, rfl⟩
  · rintro i hi ⟨-, k, a, e, hk, -⟩
    omega
  · rintro j ⟨e, he, hz⟩
    rcases j with - | - | j
    all_goals simp at he
    all_goals subst he
    all_goals simp at hz
  · rintro j ⟨hj, i, a, e, hi, ha, he, h⟩
    obtain ⟨rfl, rfl⟩ : j = 1 ∧ i = 0 := by omega
    simp at ha he
    subst ha he
    simp at h
  · rintro j ⟨hj, e, he, h⟩
    rcases j with - | - | j
    all_goals simp at he
    all_goals subst he
    all_goals simp at h
  · exact ⟨by decide, 0, ⟨5, 0, 2⟩, ⟨6, 1, 1⟩, by decide, rfl, rfl, by decide, by decide⟩
  · rintro i hi ⟨-, k, a, e, hk, -⟩
    omega

theorem witness_ValidationStartsAndEndsOnError_passes : directoryPasses 0 [] ∧ directoryPasses 1 [⟨5, 0, 1⟩] ∧
    (directoryPart 1 128 []).ziu.validator = some ⟨1, true, 128, [], none⟩ ∧ (directoryPart 1 128 []).plu.layout = some layout ∧
    (directoryPart 1 127 []).tmc.inProgress = some ⟨⟨.validator 1, 4224⟩, List.replicate 64 0#8, false⟩ := by
  refine ⟨⟨by decide, fun j => ?_⟩, ⟨by decide, fun j => ?_⟩, by decide +kernel⟩
  · simp [directoryFails, duplicateFails, rangeFails, overlapFails]
  · rcases j with - | j <;> simp [directoryFails, duplicateFails, rangeFails, overlapFails]

/-- A directory entry of one zone with one member, and the member line that holds it. -/
def oneZone : DirEntry := ⟨5, 0, 1⟩

def oneMember : List Byte := [1#8] ++ List.replicate 63 0#8

/-- The part while the validator reads the last member line. -/
def lastLinePart : State :=
  (validatingPart.setZiu { validatingPart.ziu with validator := some ⟨1, true, 129, [oneZone], some 0⟩ }).setTmc
    { validatingPart.tmc with inProgress := some ⟨⟨.validator 1, 4225⟩, oneMember, false⟩ }

theorem witness_LastMemberLineFlips : lastLinePart.tmc.inProgress = some ⟨⟨.validator 1, 4225⟩, oneMember, false⟩ ∧
    lastLinePart.ziu.validator = some ⟨1, true, 129, [oneZone], some 0⟩ ∧ [oneZone][0]? = some oneZone ∧
    memberFailure oneZone 129 oneMember = none ∧ memberLine (oneZone.start + oneZone.count - 1) ≤ 129 ∧
    0 + 1 = lastLinePart.ziu.declared ∧ lastLinePart.ziu.declared ≤ [oneZone].length ∧ upSlots lastLinePart ≠ [] := by decide +kernel

/-- A member line with one valid entry and one without a kind, read for ranges that begin in it. -/
theorem witness_LastMemberLineFlips_members :
    lowest (memberFails ⟨5, 0, 2⟩ 129 oneMember) 1 ∧ (∀ m, ¬memberFails ⟨5, 0, 1⟩ 129 oneMember m) ∧
    129 < memberLine (3 + 2 - 1) ∧ (∀ m, ¬memberFails ⟨5, 3, 2⟩ 129 (List.replicate 48 0#8 ++ [1#8] ++ List.replicate 15 0#8) m) ∧
    memberLine (oneZone.start + oneZone.count - 1) ≤ 129 ∧ 0 + 1 < 2 ∧ [oneZone, ⟨6, 1, 1⟩][1]? = some ⟨6, 1, 1⟩ := by
  refine ⟨⟨⟨by decide, by decide, by decide, by decide +kernel⟩, ?_⟩, ?_, by decide, ?_, by decide, by decide, rfl⟩
  · rintro m hm ⟨-, -, -, h, -⟩
    obtain rfl : m = 0 := by omega
    exact h (by decide +kernel)
  · rintro m ⟨-, -, hm, h, -⟩
    obtain rfl : m = 0 := by simpa using hm
    exact h (by decide +kernel)
  · rintro m ⟨hl, h1, h2, h, -⟩
    obtain rfl : m = 3 := by
      have h3 : 3 ≤ m := h1
      simp only [memberLine] at hl
      omega
    exact h (by decide +kernel)

/-- The part of `lastLinePart` with no blade UP. -/
def loneLinePart : State := (lastLinePart.setLink 2 { upLink with state := .lost }).setBlade 2 { upBlade with state := .lost }

theorem witness_LastMemberLineFlips_alone : upSlots loneLinePart = [] ∧ loneLinePart.ziu.inFlight.get loneLinePart.ziu.liveBank = 0 ∧
    loneLinePart.plu.layout = some layout ∧ sparseWf .clean loneLinePart.ziu.dirty = true ∧
    loneLinePart.ziu.validator = lastLinePart.ziu.validator ∧ loneLinePart.tmc.inProgress = lastLinePart.tmc.inProgress := by decide +kernel

/-- R19: with nothing owed the flip is followed at once by the copy of the staged line. -/
theorem test_flip_alone : let t := after .validatorReadComplete loneLinePart
    t.ziu.zone = .resyncing ∧ t.ziu.copying = some 9 ∧ t.ziu.ackAt = none ∧ t.ziu.epoch = 2 := by decide +kernel

theorem witness_AckTimeoutForcesBladesOff : waitingPart.ziu.zone = .awaitAck ∧ waitingPart.ziu.ackSet = [2] ∧
    ({ waitingPart.ziu with ackAt := some (sec 100) } : Ziu).ackAt = some waitingPart.now := by decide +kernel

theorem witness_ResyncCopySettlesItsLine : ∀ f, (copyingPart f).tmc.inProgress = some ⟨⟨.resync 9 8201, 4105⟩, [], f⟩ ∧
    (copyingPart f).ziu.copying = some 9 ∧ (copyingPart f).tbp.heldWrites = [] ∧ sparseWf .clean (copyingPart f).ziu.dirty = true := by
  decide +kernel

/-- The same part with two lines in RESYNC, the second of them error-held or not, and the pass that of a commit or of an ABORT. -/
def passPart (last : LineState) (aborting : Bool) : State :=
  let s := copyingPart false
  s.setZiu { s.ziu with dirty := [(9, .resync), (4095, last)], aborting := aborting, started := 4 }

/-- R23 and R25: the pass goes on from line 10 to the lowest line in RESYNC, line 4095, error-held or not. -/
theorem witness_ResyncCopySettlesItsLine_goes_on : (passPart .resync false).ziu.zone = .resyncing ∧
    (passPart .resync false).plu.layout = some layout ∧ ∀ st ∈ [LineState.resync, .errorHeld],
      lowest (fun k => 10 ≤ k ∧ (after .resyncCopyComplete (passPart st false)).ziu.inResync k) 4095 := by
  have d (st : LineState) (h : st ∈ [LineState.resync, .errorHeld]) :
      (after .resyncCopyComplete (passPart st false)).ziu.dirty = [(4095, st)] := by
    revert st; decide +kernel
  refine ⟨rfl, rfl, fun st hst => ⟨⟨by decide, ?_⟩, ?_⟩⟩
  · simp only [Ziu.inResync, Ziu.lineState, d st hst]
    revert st
    decide
  · rintro k hk ⟨-, h⟩
    simp only [Ziu.inResync, Ziu.lineState, d st hst] at h
    simp [sparseGet, show (4095 : Nat) ≠ k by omega] at h
/-- R25: the pass ends at the last line, COMMITTED, COMMITTED_WITH_ERRORS with the lines that are error-held, or ABORTED with them. -/
theorem test_pass_ends :
    let last (f aborting : Bool) : State := after .resyncCopyComplete ((copyingPart f).setZiu { (copyingPart f).ziu with
      dirty := [(3, .errorHeld), (9, .resync)], aborting := aborting, started := 4 })
    (last false false).ziu.zone = .idle ∧ (last false false).ziu.accepted = 4 ∧
    ((last false false).ziu.result, (last false false).ziu.detail) = (.committedWithErrors, 1) ∧
    ((last true false).ziu.result, (last true false).ziu.detail) = (.committedWithErrors, 2) ∧
    ((last false true).ziu.result, (last false true).ziu.detail) = (.aborted, 1) := by decide +kernel

/-! #### Blade links, blades and ports -/

/-- The part with the link of blade 2 in a state. -/
def linkPart (st : LinkState) (bl : BladeState) : State :=
  (bladePart.setLink 2 { upLink with state := st, helloAt := some (sec 100), holdoffAt := some (sec 100), keepAt := some (sec 100) }).setBlade 2
    { upBlade with state := bl }

theorem witness_HelloMakesTheLinkUp : ((linkPart .firstWait .powering).link 2).state.waits = true ∧
    ((linkPart .returnWait .lost).link 2).state.waits = true ∧ ((linkPart .firstWait .powering).link 2).errors < 65535 ∧
    ((2#8).toNat = (2 : Slot).1) ∧ (bladePart.link 2).state = .up := by decide +kernel

theorem witness_FetchBindsToTheLiveBank : (bladePart.link 2).fetches.get 1 = none ∧ bladePart.pbu.hold = false ∧
    (4092#16).toNat + (4#8).toNat ≤ 4096 ∧ 4096 < (4093#16).toNat + (4#8).toNat ∧
    (bladePart.setPbu { bladePart.pbu with hold := true }).pbu.hold = true := by decide +kernel

/-- The part with the link of blade 2 in a state and its fetch tags occupied below a number; an OVERRUN for tag 1 waits or does not. -/
def tagsPart (st : LinkState) (bl : BladeState) (n : Nat) (overrun : Bool) : State :=
  let s := linkPart st bl
  s.setLink 2 { s.link 2 with
    fetches := Vector.mapIx (Vector.replicate 4 none) (fun i _ => if i.1 < n then some ⟨9, 1, none, [], false⟩ else none)
    ready := if overrun then [⟨1, 1, .overrun, []⟩] else [] }

theorem witness_FetchBindsToTheLiveBank_others : ((tagsPart .firstWait .powering 3 false).link 2).state.waits = true ∧
    ((tagsPart .returnWait .lost 3 false).link 2).state.waits = true ∧ ((tagsPart .firstWait .powering 3 false).link 2).fetches.get 3 = none ∧
    (∀ k, ((tagsPart .up .up 4 true).link 2).fetches.get k ≠ none) ∧ (∀ k, ((tagsPart .firstWait .powering 4 false).link 2).fetches.get k ≠ none) ∧
    (∃ d ∈ ((tagsPart .up .up 4 true).link 2).ready, d.tag = 1 ∧ d.status = .overrun) ∧
    (∀ d ∈ ((tagsPart .up .up 4 true).link 2).ready, d.tag = 2 → d.status ≠ .overrun) ∧
    ((tagsPart .up .up 3 false).link 2).fetches.get 2 ≠ none ∧ ((tagsPart .up .up 3 false).link 2).fetches.get 3 = none ∧
    (tagsPart .up .up 3 false).evu.intake.length < 32 ∧ ((tagsPart .lost .lost 0 false).link 2).state = .lost ∧
    (idlePart.link 2).state = .down := by decide +kernel

/-- The part while the last read of a bound fetch of blade 2 is in progress. -/
def fetchingPart : State :=
  busy (bladePart.setLink 2 { upLink with fetches := Vector.put upLink.fetches 1 (some ⟨5, 1, some (1, 1), [fullLine], false⟩) })
    (.fetch 2 1 0) 8197

theorem witness_FetchCompletionAnswersWithTheBoundEpoch : fetchingPart.tmc.inProgress = some ⟨⟨.fetch 2 1 0, 8197⟩, [], false⟩ ∧
    fetchingPart.tmc.isLast (.fetch 2 1 0) = true ∧ (fetchingPart.link 2).fetches.get 1 = some ⟨5, 1, some (1, 1), [fullLine], false⟩ ∧
    (busy bladePart (.abandoned 1) 9).tmc.inProgress = some ⟨⟨.abandoned 1, 9⟩, [], false⟩ := by decide +kernel

/-- The last fetch against the old bank in AWAIT_ACK is in progress, its read bound or abandoned, with the acknowledgements given. -/
def lastFetchPart (k : AccessKind) (owing : List Slot) : State :=
  busy ((waitingPart.setZiu { waitingPart.ziu with ackSet := owing, ackAt := some (sec 101), inFlight := #v[1, 0], dirty := [(9, .resync)] }).setLink 2
    { upLink with fetches := Vector.put upLink.fetches 1 (some ⟨5, 1, some (0, 0), [fullLine], false⟩) }) k 4101

/-- R19: AWAIT_ACK ends with the last fetch, bound or abandoned, once nothing is owed, and the copy of line 9 has begun; it ends with
the last acknowledgement as well, and goes on while a fetch is in flight or a blade owes. -/
theorem witness_awaitJudged : ∀ k ∈ [AccessKind.fetch 2 1 0, .abandoned 0], (lastFetchPart k []).ziu.zone = .awaitAck ∧
    (lastFetchPart k []).ziu.stageBank = 0 ∧ (lastFetchPart k []).plu.layout = some layout ∧
    sparseWf .clean (lastFetchPart k []).ziu.dirty = true ∧
    (after .fetchCompletion (lastFetchPart k [])).ziu.inFlight.get 0 = 0 ∧ (after .fetchCompletion (lastFetchPart k [])).ziu.ackSet = [] ∧
    (after .fetchCompletion (lastFetchPart k [])).ziu.zone = .resyncing ∧ (after .fetchCompletion (lastFetchPart k [])).ziu.copying = some 9 ∧
    (after .fetchCompletion (lastFetchPart k [])).ziu.ackAt = none ∧ (after .fetchCompletion (lastFetchPart k [2])).ziu.zone = .awaitAck := by
  decide +kernel

theorem witness_EpochAckLeavesTheSet_ends : 2 ∈ waitingPart.ziu.ackSet ∧ waitingPart.plu.layout = some layout ∧
    waitingPart.ziu.inFlight.get waitingPart.ziu.stageBank = 0 ∧ sparseWf .clean waitingPart.ziu.dirty = true ∧
    (after (.epochAck 2 1#32) waitingPart).ziu.ackSet = [] ∧ (after (.epochAck 2 1#32) waitingPart).ziu.zone = .idle ∧
    (after (.epochAck 2 1#32) waitingPart).ziu.result = .committed ∧
    (after (.epochAck 2 1#32) (waitingPart.setZiu { waitingPart.ziu with ackSet := [2, 3] })).ziu.ackSet = [3] := by decide +kernel

theorem witness_StatusIsHandedToTheFanUnit : bladePart.linkFollows 2 ∧ (bladePart.link 2).state = .up ∧ (bladePart.link 3).state ≠ .up := by
  unfold State.linkFollows
  decide +kernel

theorem witness_PortNoteRecordsTheOptic : (bladePart.link 2).portCount = some 24 ∧ (23#8).toNat < 24 ∧ (3#8).toNat < 4 ∧
    24 ≤ (24#8).toNat ∧ (bladePart.link 2).errors < 65535 := by decide +kernel

/-- The part with port 3 of blade 2 in a state, an order for it outstanding at tag 6. -/
def orderPart (st : PortState) (desired : Bool) (a : OrderAction) : State :=
  (bladePart.setPort port3 { Port.reset with
    state := st, desired := desired, request := some class1, granted := some class1, cause := .request }).setLink 2
    { upLink with orders := Vector.put upLink.orders 6 (some ⟨⟨3, a, class1⟩, some (sec 100)⟩) }

theorem witness_OrderAckDecidesThePort :
    ((orderPart .goingUp true .enable).link 2).orders.get 6 = some ⟨⟨3, .enable, class1⟩, some (sec 100)⟩ ∧
    (orderPart .goingUp true .enable).idlePort port3 ∧ ((orderPart .goingUp true .enable).port port3).granted = some class1 ∧
    ((orderPart .goingUp true .enable).port port3).state = .goingUp ∧ ((orderPart .goingUp true .enable).port port3).leaving = .clear ∧
    ((orderPart .goingDown false .disable).port port3).state = .goingDown ∧ (orderPart .goingDown false .disable).idlePort port3 := by
  unfold State.idlePort
  decide +kernel

/-- The bounds of a reading and what lies beyond them; a hotspot of 125 °C makes blade 2 HOT, and its ONLINE, GOING_UP and GOING_DOWN
ports and those in SHED with POWER leave by R98. -/
theorem witness_StatusIsHandedToTheFanUnit_readings :
    (-40 ≤ (0xD8#8 : Byte).toInt ∧ (125#8 : Byte).toInt ≤ 125) ∧ (0xD7#8 : Byte).toInt < -40 ∧ 125 < (126#8 : Byte).toInt ∧
    (bladePart.ftu.temps.get 2).thermal ≠ .hot ∧
    ∀ st ∈ [PortState.online, .goingUp, .goingDown, .shed], ((after (.status 2 0xD8#8 125#8) (orderPart st true .enable)).ftu.temps.get 2).thermal = .hot := by
  decide +kernel

theorem test_heat : let t (st : PortState) : Port :=
      (after (.status 2 20#8 125#8) ((orderPart st true .enable).setPort port3 { (orderPart st true .enable).port port3 with cause := .power })).port port3
    ((t .online).state, (t .online).cause) = (.goingDown, .thermal) ∧ ((t .goingUp).state, (t .goingUp).leaving) = (.goingUp, .thermal) ∧
    ((t .goingDown).state, (t .goingDown).cause) = (.goingDown, .thermal) ∧ ((t .shed).state, (t .shed).cause) = (.shed, .thermal) := by
  decide +kernel

/-- The part with port 3 of blade 2 going down, the cause given, and the restore holdoff running or not. -/
def downPart (cause : PortCause) (holdoff : Option Nat) : State :=
  let s := orderPart .goingDown true .disable
  (s.setPort port3 { s.port port3 with cause := cause }).setPbu { s.pbu with holdoffAt := holdoff }

theorem witness_OrderAckDecidesThePort_others :
    ((orderPart .goingUp false .reconfig).port port3).desired = false ∧
    (orderPart .goingUp true .enable).projected ≤ (computeFigures (orderPart .goingUp true .enable)).available ∧
    (((orderPart .goingUp true .enable).setPort port3 { (orderPart .goingUp true .enable).port port3 with leaving := .thermal }).port port3).leaving ≠ .clear ∧
    ((orderPart .goingUp true .reconfig).link 2).orders.get 6 = some ⟨⟨3, .reconfig, class1⟩, some (sec 100)⟩ ∧
    ((downPart .power (some 0)).port port3).cause = .power ∧ (downPart .power (some 0)).pbu.holdoffAt ≠ none ∧
    ((downPart .feRefused none).port port3).cause = .feRefused ∧ ((downPart .request none).port port3).request = some class1 ∧
    class1.xd = false ∧ (downPart .power (some 0)).idlePort port3 ∧
    (∀ k : OrderTag, k.1 = (5#8).toNat → (bladePart.link 2).orders.get k = none) ∧ ∀ k : OrderTag, k.1 ≠ (8#8).toNat := by
  unfold State.idlePort
  decide +kernel

theorem witness_EpochAckLeavesTheSet : (waitingPart.link 2).state = .up ∧ waitingPart.ziu.zone = .awaitAck ∧
    (1#32).toNat = waitingPart.ziu.epoch ∧ ¬(bladePart.ziu.zone = .awaitAck) := by decide +kernel

theorem witness_LossOfALinkLosesTheBlade : ((linkPart .up .up).link 2).state = .up ∧
    ranOut ((linkPart .up .up).link 2).keepAt (linkPart .up .up).now = true ∧
    (((orderPart .goingUp true .enable).link 2).orders.get 6).bind (·.deadline) = some (orderPart .goingUp true .enable).now ∧
    ((linkPart .returnWait .lost).link 2).state = .returnWait ∧
    ranOut ((linkPart .returnWait .lost).link 2).helloAt (linkPart .returnWait .lost).now = true ∧
    (upLink.repeatedLoss (sec 100) = false) ∧ ({ upLink with losses := [sec 41, sec 50] } : Link).repeatedLoss (sec 100) = true := by
  decide +kernel

theorem witness_LinkWaitsAndTransmissionsEnd : ((linkPart .lost .lost).link 2).state = .lost ∧
    ranOut ((linkPart .lost .lost).link 2).holdoffAt (linkPart .lost .lost).now = true ∧
    ((linkPart .firstWait .powering).link 2).state = .firstWait ∧
    ranOut ((linkPart .firstWait .powering).link 2).helloAt (linkPart .firstWait .powering).now = true ∧
    ({ upLink with sending := some ⟨.fetchData ⟨1, 1, .ok, [fullLine]⟩, true⟩, welcome := some 1 } : Link).sending =
      some ⟨.fetchData ⟨1, 1, .ok, [fullLine]⟩, true⟩ ∧
    ({ upLink with sending := some ⟨.order 6 ⟨3, .enable, class1⟩, true⟩, notice := some 2 } : Link).state.sends = true := by decide +kernel

theorem witness_InvalidMessageIsCounted : receptionFailure 2 [0#8] = some .crc ∧
    receptionFailure 2 (wireMessage 9#8 2#8 0#8 []) = some .badType ∧ (bladePart.link 2).state ≠ .down ∧
    (bladePart.link 2).errors < 65535 ∧ bladePart.evu.intake.length < 32 := by decide +kernel

theorem witness_BladeSeatedAndPulled : armedPart.pins.bladePresent.get 2 = false ∧ (armedPart.blade 2).state = .absent ∧
    (setPresent bladePart 2 true).pins.bladePresent.get 2 = true := by decide +kernel

theorem witness_BladeSeatedAndPulled_waits : armedPart.waitsMatch ∧ (∀ i, (armedPart.port ⟨2, i⟩).state = .offline) ∧
    (setPresent bladePart 2 true).waitsMatch := by
  unfold State.waitsMatch
  decide +kernel

/-- The part with blade 4 settling. -/
def settlingPart (s : State) : State := s.setBlade 4 { Blade.reset with state := .settling, debounceAt := some (sec 100), errorsAt := some (sec 100) }

theorem witness_SettledBladeIsPoweredOrWaits : ((settlingPart bladePart).blade 4).state = .settling ∧
    ranOut ((settlingPart bladePart).blade 4).debounceAt (settlingPart bladePart).now = true ∧
    ((settlingPart bladePart).link 4).state = .down ∧ (settlingPart bladePart).bladeFits = true ∧
    (settlingPart (bladePart.setPbu { bladePart.pbu with hold := true })).bladeFits = false ∧ (settlingPart idlePart).plu.part ≠ .armed ∧
    ranOut ((settlingPart bladePart).blade 4).errorsAt (settlingPart bladePart).now = true := by decide +kernel

theorem witness_SettledBladeIsPoweredOrWaits_whole : (settlingPart bladePart).linesWhole :=
  linesWhole_of_checks _ (by decide +kernel) (by decide +kernel)

/-- A request word with sequence 9: mode, class 1, priority 5. -/
def requestWord (mode : Nat) : BitVec 64 := BitVec.ofNat 64 (mode + 256 + 5 * 2 ^ 24 + 9 * 2 ^ 32)

theorem witness_RequestWordsMoveThePort_on : firstHanded (handing bladePart (.portRequest port3) (requestWord 1)) WatchedWord.isRequest =
      some ⟨.portRequest port3, requestWord 1⟩ ∧ (RequestWord.ofBits (requestWord 1)).sequence ≠ (bladePart.port port3).lastSeq ∧
    (RequestWord.ofBits (requestWord 1)).form = .on class1 5 ∧ bladePart.beyondCount port3 = false ∧ (bladePart.blade 2).state = .up ∧
    (bladePart.port port3).state = .offline ∧ bladePart.queue 2 = [] ∧ bladePart.licenceFits 2 class1.units = true ∧
    bladePart.powerFits (portDraw bladePart.plu.inUse class1 (bladePart.port port3).optic) = true ∧ bladePart.hot 2 = false := by decide +kernel

theorem witness_RequestWordsMoveThePort_off : (RequestWord.ofBits (requestWord 0)).form = .off ∧
    (RequestWord.ofBits (requestWord 7)).form = .invalid ∧ ((orderPart .online true .enable).port port3).state = .online ∧
    (orderPart .online true .enable).idlePort port3 ∧ (orderPart .online true .enable).beyondCount port3 = false ∧
    bladePart.idlePort port3 := by
  unfold State.idlePort
  decide +kernel

/-- The part with port 3 of blade 2 in a state, a class granted or none, listed where it waits, and a request word for it. -/
def askedPart (st : PortState) (g : Option PortConfig) (w : BitVec 64) : State :=
  let s := bladePart.setPort port3 { Port.reset with state := st, desired := true, request := some class1, granted := g, priority := 2 }
  let s := if st = .waitLicense then s.setLu { s.lu with queues := Vector.put s.lu.queues 2 [⟨3, 1⟩] } else s
  handing (if st = .waitPower then s.setPbu { s.pbu with waitList := [⟨port3, 2, 0⟩] } else s) (.portRequest port3) w

/-- A request word with sequence 9: mode, class, XD, priority 5. -/
def askWord (mode cls xd : Nat) : BitVec 64 := BitVec.ofNat 64 (mode + 256 * cls + 2 ^ 16 * xd + 5 * 2 ^ 24 + 9 * 2 ^ 32)

/-- The outcomes of R95: no XD_PORTS unit free, a queue before it or no unit, no power, a HOT blade. -/
theorem witness_RequestWordsMoveThePort_admission : (RequestWord.ofBits (askWord 1 1 1)).form = .on ⟨.class1, true⟩ 5 ∧
    (bladePart.setLu { bladePart.lu with xdPorts := FeatureState.newPart }).xdFree = false ∧ bladePart.xdFree = true ∧
    (askedPart .waitLicense none 0#64).queue 2 ≠ [] ∧
    (bladePart.setLu { bladePart.lu with portUnits := FeatureState.newPart }).licenceFits 2 1 = false ∧
    (bladePart.setPbu { bladePart.pbu with available := 1199 }).powerFits 0 = false ∧
    (bladePart.setFtu { bladePart.ftu with temps := Vector.put bladePart.ftu.temps 2 { warmTemp with thermal := .hot } }).hot 2 = true := by
  decide +kernel

/-- The configurations of R97 for a port granted class 2: the same, one with less, one with more that fits and one that does not. -/
theorem witness_RequestWordsMoveThePort_reconfiguration : let s (n : Nat) := askedPart .online (some (plain .class2)) (askWord 1 n 0)
    let draw (c : SpeedClass) : Nat := portDraw (s 1).plu.inUse (plain c) none
    (∀ n ∈ [1, 2, 3], firstHanded (s n) WatchedWord.isRequest = some ⟨.portRequest port3, askWord 1 n 0⟩) ∧
    (RequestWord.ofBits (askWord 1 2 0)).form = .on (plain .class2) 5 ∧ (RequestWord.ofBits (askWord 1 3 0)).form = .on (plain .class3) 5 ∧
    (plain .class1).units ≤ (plain .class2).units ∧ draw .class1 ≤ draw .class2 ∧ (plain .class2).units < (plain .class3).units ∧
    (s 3).queue 2 = [] ∧ (s 3).licenceFits 2 ((plain .class3).units - (plain .class2).units) = true ∧
    (s 3).powerFits ((draw .class3 : Int) - (draw .class2 : Int)) = true ∧ (s 1).projected ≤ (computeFigures (s 1)).available ∧
    ((s 3).setLu { (s 3).lu with portUnits := FeatureState.newPart }).licenceFits 2 2 = false := by decide +kernel

theorem witness_RequestWordsMoveThePort_waits : (∀ st ∈ [PortState.online, .shed, .waitLicense, .waitPower],
    (askedPart st (some class1) (askWord 1 1 0)).waitsMatch) ∧ ((askedPart .waitPower none 0#64).port port3).state = .waitPower ∧
    (∃ e ∈ (askedPart .waitPower none 0#64).pbu.waitList, e.port = port3) ∧
    ((askedPart .waitLicense none 0#64).port port3).request = some class1 ∧ class1 ≠ plain .class2 ∧ (plain .class2).xd = false := by
  unfold State.waitsMatch
  decide +kernel

theorem witness_RequestWordsMoveThePort_away : bladePart.beyondCount ⟨2, 24⟩ = true ∧ bladePart.beyondCount ⟨2, 23⟩ = false ∧
    (bladePart.port ⟨2, 24⟩).state = .offline ∧ ((linkPart .lost .lost).blade 2).state ≠ .up ∧
    (linkPart .lost .lost).beyondCount port3 = false ∧ (armedPart.blade 2).state ≠ .up ∧ armedPart.beyondCount port3 = false := by decide +kernel

/-- Malformed words, and one for a port in each state: five states are no candidates, and for the two in service projected draw is
within A. -/
theorem witness_RequestWordsMoveThePort_invalid :
    (RequestWord.ofBits (requestWord 7)).form = .invalid ∧ (RequestWord.ofBits (askWord 1 0 0)).form = .invalid ∧
    (RequestWord.ofBits (askWord 1 5 0)).form = .invalid ∧ (RequestWord.ofBits (askWord 1 1 2)).form = .invalid ∧
    ∀ st ∈ [PortState.offline, .waitLicense, .waitPower, .goingUp, .online, .goingDown, .shed],
      firstHanded (askedPart st (some class1) (requestWord 7)) WatchedWord.isRequest = some ⟨.portRequest port3, requestWord 7⟩ := by
  decide +kernel

theorem witness_RequestWordsMoveThePort_stays :
    (∀ st ∈ [PortState.offline, .waitLicense, .waitPower, .goingDown, .shed],
      ¬((askedPart st (some class1) (requestWord 7)).shedCandidate port3)) ∧
    (orderPart .online true .enable).projected ≤ (computeFigures (orderPart .online true .enable)).available ∧
    (orderPart .goingUp true .enable).projected ≤ (computeFigures (orderPart .goingUp true .enable)).available :=
  ⟨by unfold State.shedCandidate; decide +kernel, by decide +kernel, by decide +kernel⟩

/-- R92 and R93: the refusal shows in the record but in GOING_DOWN and SHED, and moves no port. -/
theorem test_malformed_word :
    let x (st : PortState) : Port := (after .portRequestInvalid (askedPart st (some class1) (requestWord 7))).port port3
    (∀ st ∈ [PortState.offline, .waitLicense, .waitPower, .goingUp, .online], ((x st).state, (x st).cause) = (st, .badRequest)) ∧
    ∀ st ∈ [PortState.goingDown, .shed], ((x st).state, (x st).cause) = (st, .none) := by decide +kernel

/-- R95 and R97 on that part: a failed licence check, a failed power check, a HOT blade, a RECONFIG and a refusal. -/
theorem test_request_outcomes :
    let on (s : State) : Port := (after .portRequestOn s).port port3
    let s := askedPart .offline none (askWord 1 1 0)
    let o (n : Nat) := askedPart .online (some (plain .class2)) (askWord 1 n 0)
    (on (s.setLu { s.lu with portUnits := FeatureState.newPart })).state = .waitLicense ∧
    (on (s.setPbu { s.pbu with hold := true })).state = .waitPower ∧
    (on (askedPart .offline none (askWord 1 1 1))).state = .goingUp ∧ ((on (o 1)).state, (on (o 1)).granted) = (.goingUp, some class1) ∧
    ((on ((o 3).setLu { (o 3).lu with portUnits := FeatureState.newPart })).state,
      (on ((o 3).setLu { (o 3).lu with portUnits := FeatureState.newPart })).cause) = (.online, .speedHeld) := by decide +kernel

/-! #### Licences -/

/-- The part with a submit word of token slot 4 handed over. -/
def submitPart (code : Nat) : State := handing bladePart (.tokenSubmit 4) (BitVec.ofNat 64 (code + 65536 * 3))

/-- The part with token slot 4 in a state. -/
def slotPart (st : TokenState) : State :=
  bladePart.setLu { bladePart.lu with fifo := [4], slots := Vector.put bladePart.lu.slots 4 { TokenSlot.reset with state := st, current := 3 } }

theorem witness_SubmissionsAreQueuedAndChecked : firstHanded (submitPart 1) WatchedWord.isSubmit = some ⟨.tokenSubmit 4, 0x30001#64⟩ ∧
    firstHanded (submitPart 2) WatchedWord.isSubmit = some ⟨.tokenSubmit 4, 0x30002#64⟩ ∧ wordCode 0x30001#64 = 1 ∧ wordCode 0x30002#64 ≠ 1 ∧
    wordSequence 0x30001#64 ≠ (bladePart.lu.slots.get 4).seen ∧ wordSequence 0x30002#64 ≠ (bladePart.lu.slots.get 4).seen ∧
    (bladePart.lu.slots.get 4).state = .empty ∧ ((slotPart .checking).lu.slots.get 4).state = .checking ∧
    (slotPart .queued).lu.fifo = [4] ∧ (slotPart .queued).lu.occupied = false ∧ (slotPart .queued).plu.layout = some layout := by decide +kernel

/-- A token with the serial and the check given. -/
def tokenOf (feature units sequence serial check : Nat) : List Byte :=
  leBytes 2 feature ++ (leBytes 2 units ++ (leBytes 4 sequence ++ (leBytes 8 serial ++ (leBytes 8 check ++ List.replicate 40 0#8))))

/-- A token for this part with the digest that it carries. -/
def tokenLine (feature units sequence : Nat) : List Byte :=
  tokenOf feature units sequence Config.deviceSerial.toNat (digestOf feature units sequence).toNat

theorem tokenOf_fields (f u q n c : Nat) (hf : f < 2 ^ 16) (hu : u < 2 ^ 16) (hq : q < 2 ^ 32) (hn : n < 2 ^ 64) (hc : c < 2 ^ 64) :
    tokenField (tokenOf f u q n c) 0 2 = f ∧ tokenField (tokenOf f u q n c) 2 2 = u ∧ tokenField (tokenOf f u q n c) 4 4 = q ∧
    tokenField (tokenOf f u q n c) 8 8 = n ∧ tokenField (tokenOf f u q n c) 16 8 = c := by
  have d (n : Nat) (a b : List Byte) (h : a.length = n) : (a ++ b).drop n = b := by subst h; simp
  have k (n : Nat) (a b : List Byte) (h : a.length = n) : (a ++ b).take n = a := by subst h; simp
  have e1 : ∀ l : List Byte, l.drop 4 = (l.drop 2).drop 2 := fun l => by simp
  have e2 : ∀ l : List Byte, l.drop 8 = ((l.drop 2).drop 2).drop 4 := fun l => by simp
  have e3 : ∀ l : List Byte, l.drop 16 = (((l.drop 2).drop 2).drop 4).drop 8 := fun l => by simp
  unfold tokenField
  rw [e1, e2, e3, List.drop_zero]
  unfold tokenOf
  rw [d 2 _ _ (by simp), d 2 _ _ (by simp), d 4 _ _ (by simp), d 8 _ _ (by simp), k 2 _ _ (by simp), k 2 _ _ (by simp), k 4 _ _ (by simp),
    k 8 _ _ (by simp), k 8 _ _ (by simp)]
  simp only [leNat_leBytes]
  exact ⟨Nat.mod_eq_of_lt hf, Nat.mod_eq_of_lt hu, Nat.mod_eq_of_lt hq, Nat.mod_eq_of_lt hn, Nat.mod_eq_of_lt hc⟩

theorem tokenLine_fields (f u q : Nat) (hf : f < 2 ^ 16) (hu : u < 2 ^ 16) (hq : q < 2 ^ 32) :
    tokenField (tokenLine f u q) 0 2 = f ∧ tokenField (tokenLine f u q) 2 2 = u ∧ tokenField (tokenLine f u q) 4 4 = q ∧
    tokenField (tokenLine f u q) 8 8 = Config.deviceSerial.toNat ∧ tokenField (tokenLine f u q) 16 8 = (digestOf f u q).toNat := by
  unfold tokenLine
  exact tokenOf_fields f u q _ _ hf hu hq (BitVec.isLt _) (BitVec.isLt _)

/-- A token of PORT_UNITS for this part is genuine. -/
theorem tokenLine_genuine (u q : Nat) (hu : u < 2 ^ 16) (hq : q < 2 ^ 32) : tokenGenuine (tokenLine 1 u q) .portUnits := by
  have h := tokenLine_fields 1 u q (by decide) hu hq
  exact ⟨h.1, h.2.2.2.1, by rw [h.1, h.2.1, h.2.2.1, h.2.2.2.2]⟩

/-- The part with token slot 4 in CHECKING, PORT_UNITS at the floor given and reinstated or not, and one unit held or none. -/
def checkPart (floor : Nat) (reinstated held : Bool) : State :=
  let s := if held then (slotPart .checking).setPort port3 (onlinePort class1 0 0) else slotPart .checking
  s.setLu { s.lu with portUnits := { FeatureState.newPart with floor := floor, reinstated := reinstated } }

theorem checkPart_short (floor u : Nat) (r held : Bool) : (checkPart floor r held).shortBy .portUnits u (if held then 1 - u else 0) := by
  have h0 : ∀ b, bladePart.lu.reserves.get b = 0 := by decide
  have hr : ∀ b, (checkPart floor r held).lu.reserves.get b = 0 := by cases held <;> exact h0
  have hh : (checkPart floor r held).holdings .portUnits = if held then 1 else 0 := by cases held <;> rfl
  have hs : ((indices 8).map (fun b => (checkPart floor r held).slotUnits b)).sum = if held then 1 else 0 := by cases held <;> rfl
  refine ⟨fun _ => 0, fun b => by simp [hr b], ?_⟩
  rw [hh]
  simp only [Nat.sub_zero, hs]
  cases held <;> simp

theorem checkPart_checks (floor : Nat) (r held : Bool) : ((checkPart floor r held).lu.slots.get 4).state = .checking := by
  cases held <;> rfl

/-- One token for each result of Table 6.6-1. The features 0, 3 and 9 are none; the serial and the check differ by one from the part's
own; the sequence lies below the floor, at it and reinstated; and no unit is left for the one that is held. -/
theorem witness_TokenIsDecidedByItsChecks :
    (∀ f ∈ [0, 3, 9], tokenFails (checkPart 0 false false) (tokenOf f 1 1 1 1) .badFeature f) ∧
    tokenFails (checkPart 0 false false) (tokenOf 1 1 1 (Config.deviceSerial + 1#64).toNat 1) .badSerial 0 ∧
    tokenFails (checkPart 0 false false) (tokenOf 1 1 1 Config.deviceSerial.toNat (digestOf 1 1 1 + 1#64).toNat) .badCheck 0 ∧
    tokenFails (checkPart 2 false false) (tokenLine 1 1 1) .stale 2 ∧ tokenFails (checkPart 1 true false) (tokenLine 1 1 1) .alreadyApplied 1 ∧
    tokenFails (checkPart 0 false true) (tokenLine 1 0 1) .inUse 1 := by
  have other (x : BitVec 64) : (x + 1#64).toNat ≠ x.toNat := fun h => by simpa using BitVec.eq_of_toNat_eq h
  have g0 := tokenLine_genuine 0 1 (by decide) (by decide)
  have g1 := tokenLine_genuine 1 1 (by decide) (by decide)
  have q0 := tokenLine_fields 1 0 1 (by decide) (by decide) (by decide)
  have q1 := tokenLine_fields 1 1 1 (by decide) (by decide) (by decide)
  have s1 := tokenOf_fields 1 1 1 (Config.deviceSerial + 1#64).toNat 1 (by decide) (by decide) (by decide) (BitVec.isLt _) (by decide)
  have c1 := tokenOf_fields 1 1 1 Config.deviceSerial.toNat (digestOf 1 1 1 + 1#64).toNat (by decide) (by decide) (by decide)
    (BitVec.isLt _) (BitVec.isLt _)
  refine ⟨fun f hf => .inl ⟨?_, rfl, ?_⟩, .inr ⟨.portUnits, s1.1, .inl ⟨?_, rfl, rfl⟩⟩,
    .inr ⟨.portUnits, c1.1, .inr (.inl ⟨c1.2.2.2.1, fun h => ?_, rfl, rfl⟩)⟩,
    .inr ⟨.portUnits, g1.1, .inr (.inr (.inl ⟨g1, ?_, rfl, rfl⟩))⟩,
    .inr ⟨.portUnits, g1.1, .inr (.inr (.inr (.inl ⟨g1, q1.2.2.1, rfl, rfl, rfl⟩)))⟩,
    .inr ⟨.portUnits, g0.1, .inr (.inr (.inr (.inr ⟨g0, Nat.zero_le _, fun _ => rfl, by decide, ?_, rfl⟩)))⟩⟩
  · have hn := (tokenOf_fields f 1 1 1 1 (by simp at hf; omega) (by decide) (by decide) (by decide) (by decide)).1
    intro c
    simp only [tokenNames, hn]
    simp only [List.mem_cons, List.not_mem_nil, or_false] at hf
    cases c <;> simp <;> omega
  · exact ((tokenOf_fields f 1 1 1 1 (by simp at hf; omega) (by decide) (by decide) (by decide) (by decide)).1).symm
  · rw [s1.2.2.2.1]
    exact other _
  · have hc := h.2.2
    rw [c1.1, c1.2.1, c1.2.2.1, c1.2.2.2.2] at hc
    exact other _ hc
  · rw [q1.2.2.1]
    decide
  · rw [q0.2.1]
    exact checkPart_short 0 0 false true

/-- A token at the floor, not reinstated, and one above it pass every check. -/
theorem witness_TokenIsDecidedByItsChecks_passes : tokenPasses (checkPart 1 false false) (tokenLine 1 10 1) .portUnits ∧
    tokenPasses (checkPart 0 false true) (tokenLine 1 1 1) .portUnits ∧ tokenField (tokenLine 1 10 1) 4 4 = 1 := by
  have q := tokenLine_fields 1 10 1 (by decide) (by decide) (by decide)
  have r := tokenLine_fields 1 1 1 (by decide) (by decide) (by decide)
  refine ⟨⟨tokenLine_genuine 10 1 (by decide) (by decide), le_of_eq q.2.2.1.symm, fun _ => rfl, ?_⟩,
    ⟨tokenLine_genuine 1 1 (by decide) (by decide), Nat.zero_le _, fun _ => rfl, ?_⟩, q.2.2.1⟩
  · rw [q.2.1]
    exact checkPart_short 1 10 false false
  · rw [r.2.1]
    exact checkPart_short 0 1 false true

theorem witness_TokenIsDecidedByItsChecks_read : ∀ bad, (((checkPart 1 false false).setTmc { (checkPart 1 false false).tmc with
    inProgress := some ⟨⟨.token 4, 12548⟩, tokenLine 1 10 1, bad⟩ }).lu.slots.get 4).state = .checking := fun _ => rfl

theorem witness_ProgramEndsAppliedOrFaulted : waitingPart.lu.program = some ⟨0, .portUnits, 10, 5, sec 1⟩ ∧ sec 1 ≤ waitingPart.now := by
  decide +kernel

/-! #### Power, fans, events and the policy block -/

/-- The part with bay 1 in a state, its timers run out and its lines at levels. -/
def bayPart (st : PsuState) (present good ac : Bool) : State :=
  (bladePart.setPbu { bladePart.pbu with
    psus := Vector.put bladePart.pbu.psus 1 ⟨st, some (sec 100), some (sec 100), false, some 30000⟩, holdoffAt := some (sec 100) }).setPins
    { bladePart.pins with
      psuPresent := Vector.put bladePart.pins.psuPresent 1 present, powerGood := Vector.put bladePart.pins.powerGood 1 good
      acOk := Vector.put bladePart.pins.acOk 1 ac }

theorem witness_SupplySeatedSettledAndPulled : (bayPart .empty false false false).pins.psuPresent.get 1 = false ∧
    ((bayPart .empty false false false).pbu.psus.get 1).state = .empty ∧ (bayPart .online true true true).pins.psuPresent.get 1 = true ∧
    ((bayPart .settling true true true).pbu.psus.get 1).state = .settling ∧
    ranOut ((bayPart .settling true true true).pbu.psus.get 1).settleAt bladePart.now = true := by decide +kernel

theorem witness_SupplyFollowsItsLines : (bayPart .faulted true false true).pins.powerGood.get 1 = false ∧
    (bayPart .online true true true).pins.powerGood.get 1 = true ∧ (bayPart .inputLost true true false).pins.acOk.get 1 = false ∧
    (bayPart .online true true true).pins.acOk.get 1 = true := by decide +kernel

/-- The part of the example of R133: one PSU of 31,200 counted without redundancy, r = 5, T_base = 52,000, f = 95. -/
def examplePart : State :=
  (bladePart.setPbu { bladePart.pbu with
    psus := Vector.put (Vector.replicate 4 Psu.reset) 1 ⟨.online, none, none, false, some 31200⟩, derate := 95 }).setPlu
    { bladePart.plu with inUse := { Tunables.default with redundancy := .none, reserve := 5, thermalBase := 52000 } }

/-- R133's example: P = 31,200 with r = 5 gives S = 29,640; T_base = 52,000 with f = 95 gives T = 49,400; A = 29,640. -/
theorem test_budget_example : let t := after (.lowLineChange 0 true) examplePart
    t.pbu.supply = 31200 ∧ t.pbu.reserved = 29640 ∧ t.pbu.ceiling = 49400 ∧ t.pbu.available = 29640 := by decide +kernel

theorem witness_BudgetFollowsItsFormulas : examplePart.pins.lowLine.get 0 ≠ true ∧ examplePart.pbu.hold = false ∧
    examplePart.plu.inUse.reserve = 5 ∧ examplePart.plu.inUse.thermalBase = 52000 ∧ examplePart.pbu.derate = 95 ∧
    (∀ j, ((bladePart.setPbu { bladePart.pbu with psus := Vector.replicate 4 Psu.reset }).pbu.psus.get j).counted = false) := by decide +kernel

theorem witness_BudgetFollowsItsFormulas_bounded : examplePart.bounded := by
  unfold State.bounded
  decide +kernel

theorem witness_PowerTimersRunOut : ((bayPart .inputLost true true false).pbu.psus.get 1).state = .inputLost ∧
    ranOut ((bayPart .inputLost true true false).pbu.psus.get 1).graceAt bladePart.now = true ∧
    ranOut (bayPart .inputLost true true false).pbu.holdoffAt bladePart.now = true := by decide +kernel

/-- The part with the restore holdoff run out, with blade 4 waiting for power or not, port 3 in a state and on the wait list or not,
and the power available. -/
def restorePart (waits : Bool) (st : PortState) (available : Nat) : State :=
  let s := bladePart.setPort port3 { Port.reset with
    state := st, desired := true, request := some class1, granted := if st = .shed then some class1 else none }
  (if waits then s.setBlade 4 { Blade.reset with state := .waitPower } else s).setPbu { s.pbu with
    holdoffAt := some (sec 100), available := available, waitList := if st = .waitPower then [⟨port3, 0, 0⟩] else [] }

theorem witness_PowerTimersRunOut_restore : (∀ a, (restorePart true .offline a).bladeWait = [4]) ∧
    ((restorePart true .offline 90000).plu.inUse.defaultBase + (restorePart true .offline 90000).plu.inUse.margin : Nat) ≤
      (restorePart true .offline 90000).headroom ∧
    (restorePart true .offline 1200).headroom < 1 ∧ (restorePart false .shed 90000).bladeWait = [] ∧
    ((restorePart false .shed 90000).restorable port3) ∧ (∀ b i, (⟨b, i⟩ : PortRef) ≠ port3 → ¬(restorePart false .shed 90000).restorable ⟨b, i⟩) ∧
    (∀ b i, ¬(restorePart false .waitPower 90000).restorable ⟨b, i⟩) ∧
    ((restorePart false .waitPower 90000).pbu.waitList.find? (fun x => !(restorePart false .waitPower 90000).hot x.port.slot)) =
      some ⟨port3, 0, 0⟩ ∧ (restorePart false .waitPower 90000).queue 2 = [] ∧
    (restorePart false .waitPower 90000).licenceFits 2 class1.units = true := by
  unfold State.restorable
  refine ⟨fun a => rfl, ?_⟩
  decide +kernel

theorem witness_PowerTimersRunOut_waits : (restorePart false .shed 90000).waitsMatch ∧ (restorePart false .waitPower 90000).waitsMatch ∧
    (restorePart false .shed 1200).headroom < 1 ∧ (restorePart false .waitPower 1200).headroom < 1 ∧
    ((restorePart false .shed 90000).port port3).granted = some class1 ∧
    ((restorePart false .waitPower 90000).port port3).request = some class1 ∧
    ((restorePart false .waitPower 90000).setLu { bladePart.lu with portUnits := FeatureState.newPart }).licenceFits 2 class1.units = false ∧
    ((portDraw (restorePart false .shed 90000).plu.inUse class1 none + (restorePart false .shed 90000).plu.inUse.margin : Nat) : Int) ≤
      (restorePart false .shed 90000).headroom := by
  unfold State.waitsMatch
  decide +kernel

/-- The first candidate of the restore process: the waiting blade, else the port in SHED, else the port of the wait list (R143). -/
theorem test_restore_order : (after .restoreHoldoffExpiry (restorePart true .shed 90000)).blade 4 =
      { Blade.reset with state := .powering, base := Tunables.default.defaultBase, powerEn := true } ∧
    ((after .restoreHoldoffExpiry (restorePart false .shed 90000)).port port3).state = .goingUp ∧
    ((after .restoreHoldoffExpiry (restorePart true .shed 1200)).port port3).state = .shed := by decide +kernel

theorem witness_TachPulsesAreCountedByTheWindow : bladePart.ftu.windowAt ≤ bladePart.now := by decide +kernel

/-- Table 8.2-1: the second window without a pulse stalls a rotor in OK, the third low window makes it SLOW, the third good one OK. -/
theorem test_judgements : judgement { RotorRec.reset with state := .ok, zero := 1, count := 0 } 3780 = .stalled ∧
    judgement { RotorRec.reset with state := .ok, low := 2, count := 100 } 3780 = .slow ∧
    judgement { RotorRec.reset with state := .slow, good := 2, count := 126 } 3780 = .ok ∧
    judgement { RotorRec.reset with state := .slow, good := 2, count := 125 } 3780 = .slow := by decide +kernel

/-- The part with rotor 5 spinning up. -/
def spinupPart : State :=
  bladePart.setFtu { bladePart.ftu with
    rotors := Vector.put bladePart.ftu.rotors 5 { RotorRec.reset with state := .spinup, spinupAt := some (sec 100) } }

theorem witness_TraysRotorsAndFreshness : bladePart.pins.trayPresent.get 2 = false ∧ (setTray bladePart 2 true).pins.trayPresent.get 2 = true ∧
    (spinupPart.ftu.rotors.get 5).state = .spinup ∧ ranOut (spinupPart.ftu.rotors.get 5).spinupAt spinupPart.now = true ∧
    ranOut (bladePart.ftu.temps.get 2).freshAt bladePart.now = true := by decide +kernel

theorem witness_TraysRotorsAndFreshness_law : spinupPart.fansFollow ∧ spinupPart.dutyLaw (zoneOfRotor 5) := by
  unfold State.fansFollow State.dutyLaw
  decide +kernel

/-- The part with an event in the intake, its ring indices given. -/
def ringPart (producer consumer : Nat) : State :=
  bladePart.setEvu { bladePart.evu with intake := [⟨1, 0, busProtocolEvent 3 false 128 1⟩], producer := producer, consumer := consumer }

theorem witness_RecordsAreWrittenAndPublished : (ringPart 0 0).mayRecord = true ∧ (ringPart 0 0).evu.ringLost = none ∧
    (ringPart 0 0).evu.full (ringPart 0 0).capacity = false ∧ (ringPart 255 0).evu.full (ringPart 255 0).capacity = true ∧
    (bladePart.setEvu { bladePart.evu with phase := .drained .critical }).evu.phase = .drained .critical := by decide +kernel

theorem witness_RecordsAreWrittenAndPublished_lines : (ringPart 0 0).linesWhole ∧ (ringPart 0 0).plu.layout = some layout :=
  ⟨linesWhole_of_checks _ (by decide +kernel) (by decide +kernel), by decide +kernel⟩

/-- The part with a RING_LOST held. -/
def lostPart (producer : Nat) : State :=
  (ringPart producer 0).setEvu { (ringPart producer 0).evu with ringLost := some ⟨9, 0, false⟩, pending := 3 }

theorem witness_RecordsAreWrittenAndPublished_held : (lostPart 0).mayRecord = true ∧ (lostPart 0).evu.ringLost = some ⟨9, 0, false⟩ ∧
    (lostPart 0).evu.full (lostPart 0).capacity = false ∧ (lostPart 255).evu.full (lostPart 255).capacity = true ∧ (lostPart 0).linesWhole :=
  ⟨by decide +kernel, by decide +kernel, by decide +kernel, by decide +kernel, linesWhole_of_checks _ (by decide +kernel) (by decide +kernel)⟩

/-- The part with a record drained at the producer index, attention DEASSERTED and the coalescing timer given. -/
def drainedPart (producer : Nat) (sev : Severity) (timer : Option Nat) : State :=
  (ringPart producer 0).setEvu { (ringPart producer 0).evu with phase := .drained sev, coalesceAt := timer }

/-- The cases of R166 for a record that is published, at the coalesce count of 8 and the coalesce time of 1000 µs. -/
theorem witness_RecordsAreWrittenAndPublished_attention : (drainedPart 7 .info none).evu.phase = .drained .info ∧
    (drainedPart 7 .info none).evu.asserted = false ∧ (drainedPart 7 .info none).plu.inUse.coCount = 8 ∧
    let now (s : State) : Bool × Option Nat := ((after .eventPublish s).evu.asserted, (after .eventPublish s).evu.coalesceAt)
    now (drainedPart 7 .info none) = (true, none) ∧ now (drainedPart 6 .info none) = (false, some (sec 100 + usec 1000)) ∧
    now (drainedPart 6 .warn (some 5)) = (false, some 5) ∧ now (drainedPart 6 .critical (some 5)) = (true, none) := by decide +kernel

theorem witness_ConsumerIndexAndAttention :
    firstHanded (handing (ringPart 5 3) .consumerIndex 5#64) WatchedWord.isConsumer = some ⟨.consumerIndex, 5#64⟩ ∧
    (5 < (ringPart 5 3).capacity ∧ (5 + 256 - 3) % 256 ≤ (5 + 256 - 3) % 256) ∧ ¬((6 + 256 - 3) % 256 ≤ (5 + 256 - 3) % 256) ∧
    ¬(256 < (ringPart 5 3).capacity) ∧ ranOut (some (sec 100)) bladePart.now = true ∧ bladePart.plu.uptimeAt ≤ bladePart.now := by decide +kernel

/-- Consumer index words against a ring with two unconsumed records, ATTN asserted or the coalescing timer running: the index that
empties it, one that leaves a record, the present one, one past the producer and one at the capacity (R163, R166). -/
theorem witness_ConsumerIndexAndAttention_attention :
    let part (asserted : Bool) (timer : Option Nat) : State :=
      (ringPart 5 3).setEvu { (ringPart 5 3).evu with asserted := asserted, coalesceAt := timer }
    let left (asserted : Bool) (timer : Option Nat) (v : BitVec 64) : Nat × Bool × Option Nat :=
      let e := (after .consumerIndexWrite (handing (part asserted timer) .consumerIndex v)).evu
      (e.consumer, e.asserted, e.coalesceAt)
    left true none 5#64 = (5, false, none) ∧ left false (some 7) 5#64 = (5, false, none) ∧
      left true none 4#64 = (4, true, none) ∧ left false (some 7) 4#64 = (4, false, some 7) ∧
      left true none 3#64 = (3, true, none) ∧ left false (some 7) 3#64 = (3, false, some 7) ∧
      left true none 6#64 = (3, true, none) ∧ left false (some 7) 6#64 = (3, false, some 7) ∧
      left false (some 7) 256#64 = (3, false, some 7) := by decide +kernel

/-- A policy control word with sequence 7. -/
def policyWord (code : Nat) : BitVec 64 := BitVec.ofNat 64 (code + 65536 * 7)

/-- An unarmed part with the layout in its copy of the policy block. -/
def layoutPart : State := idlePart.setPlu { idlePart.plu with copy := idlePart.plu.copy.writeMasked 8 (layout.baseBytes.map some) }

theorem witness_ArmIsDecidedByPartStateAndLayout :
    firstHanded (handing idlePart .policyControl (policyWord 1)) WatchedWord.isPolicy = some ⟨.policyControl, policyWord 1⟩ ∧
    wordSequence (policyWord 1) ≠ idlePart.plu.seen ∧ wordCode (policyWord 1) = 1 ∧ idlePart.plu.part = .unconfigured ∧
    bladePart.plu.part = .armed ∧ wordCode (policyWord 0) = 0 ∧ 1 < wordCode (policyWord 2) := by decide +kernel

/-- The layout as it stands in the copy, and the one of a copy in which nothing stands: all regions at 0. -/
theorem witness_ArmIsDecidedByPartStateAndLayout_frozen : layoutFrozen layoutPart.plu.copy layout ∧
    layoutFrozen idlePart.plu.copy ⟨0, 0, 0, 0, 0, 0, Vector.replicate 8 0⟩ := by
  unfold layoutFrozen
  decide +kernel

/-- Two regions share a byte where each begins below the other's end. -/
theorem shareByte_iff (l : Layout) (i j : Nat) : shareByte l i j ↔
    i < j ∧ j ≤ 5 ∧ l.baseOf i < l.baseOf j + l.sizeOf j ∧ l.baseOf j < l.baseOf i + l.sizeOf i := by
  have pos (k : Nat) : 0 < l.sizeOf k := by unfold Layout.sizeOf; split <;> omega
  have hi := pos i
  have hj := pos j
  refine and_congr_right fun _ => and_congr_right fun _ => ⟨fun ⟨x, h⟩ => by omega, fun h => ⟨max (l.baseOf i) (l.baseOf j), ?_⟩⟩
  omega

/-- What is asked of regions 1 to 5 alone is seen from the six numbers below 6. -/
theorem none_of_six (p : Nat → Prop) (h : ∀ k, p k → k ≤ 5) (six : ∀ k : Fin 6, ¬p k) (k : Nat) : ¬p k :=
  fun hk => six ⟨k, by have := h k hk; omega⟩ hk

theorem not_misplaced (l : Layout) (six : ∀ k : Fin 6, ¬misplaced l k) : ∀ k, ¬misplaced l k := none_of_six _ (fun _ h => h.2.1) six

theorem not_tooHigh (l : Layout) (size : Nat) (six : ∀ k : Fin 6, ¬tooHigh l size k) : ∀ k, ¬tooHigh l size k :=
  none_of_six _ (fun _ h => h.2.1) six

/-- The first pair of regions that share a byte is seen from the pairs of numbers below 6. -/
theorem first_shared (l : Layout) (i j : Nat)
    (six : ∀ m n : Fin 6, m.1 < n.1 → l.baseOf m < l.baseOf n + l.sizeOf n → l.baseOf n < l.baseOf m + l.sizeOf m →
      i < m.1 ∨ (i = m.1 ∧ j ≤ n.1)) : ∀ m n, shareByte l m n → i < m ∨ (i = m ∧ j ≤ n) := by
  intro m n h
  obtain ⟨hm, hn, h1, h2⟩ := (shareByte_iff l m n).1 h
  exact six ⟨m, by omega⟩ ⟨n, by omega⟩ hm h1 h2

/-- A layout for each check of Table 10.2-1: a capacity code of 5, the ring off its alignment, the live window beyond the memory, and
regions that share a byte: all at 0, and the licence page on the last page of the port table. -/
theorem witness_ArmIsDecidedByPartStateAndLayout_fails : layoutFails { layout with capCode := 5 } (memoryBytes 0) .badCapacity 5 ∧
    layoutFails { layout with ring := 0xC6800 } (memoryBytes 0) .misaligned 5 ∧
    layoutFails { layout with live := memoryBytes 0 } (memoryBytes 0) .outsideMemory 2 ∧
    layoutFails ⟨0, 0, 0, 0, 0, 0, Vector.replicate 8 0⟩ (memoryBytes 0) .overlap 256 ∧
    layoutFails { layout with licence := 0xC2000 } (memoryBytes 0) .overlap (3 + 256 * 4) := by
  refine ⟨.inl ⟨by decide, rfl, rfl⟩, .inr (.inl ⟨by decide, ⟨?_, ?_⟩, rfl⟩), .inr (.inr (.inl ⟨by decide, not_misplaced _ ?_, ⟨?_, ?_⟩, rfl⟩)),
    .inr (.inr (.inr ⟨by decide, not_misplaced _ ?_, not_tooHigh _ _ ?_, rfl, 0, 1, (shareByte_iff _ _ _).2 ?_, first_shared _ _ _ ?_, rfl⟩)),
    .inr (.inr (.inr ⟨by decide, not_misplaced _ ?_, not_tooHigh _ _ ?_, rfl, 3, 4, (shareByte_iff _ _ _).2 ?_, first_shared _ _ _ ?_, rfl⟩))⟩
  all_goals first | (unfold misplaced; decide +kernel) | (unfold tooHigh; decide +kernel) | decide +kernel

theorem witness_ArmIsDecidedByPartStateAndLayout_passes : layoutPasses layout (memoryBytes 0) := by
  refine ⟨by decide, not_misplaced _ ?_, not_tooHigh _ _ ?_, fun i j h => ?_⟩
  · unfold misplaced
    decide +kernel
  · unfold tooHigh
    decide +kernel
  · have := first_shared layout 6 0 (by decide +kernel) i j h
    have := ((shareByte_iff _ _ _).1 h).2.1
    have := ((shareByte_iff _ _ _).1 h).1
    omega

/-- The part at the end of arming. -/
def fillDonePart : State := settlingPart (bladePart.setPlu { bladePart.plu with part := .arming, fill := .drained, started := 7 })

theorem witness_EnterArmedStartsTheUnits : fillDonePart.plu.part = .arming ∧ fillDonePart.plu.fill = .drained ∧
    ((fillDonePart.setBlade 4 { fillDonePart.blade 4 with debounced := true }).blade 4).debounced = true ∧
    fillDonePart.plu.layout = some layout := by decide +kernel

/-- The part at the end of arming with blade 2 charged 1200 dW, blades 4 and 5 settled, a supply by N_PLUS_1 from two PSUs and drops
that no RING_LOST has reported. -/
def settledPair (capacity pending : Nat) : State :=
  let settled : Blade := { Blade.reset with state := .settling, debounced := true }
  let s := (fillDonePart.setBlade 4 settled).setBlade 5 settled
  let psu : Psu := ⟨.online, none, none, false, some capacity⟩
  (s.setPbu { s.pbu with psus := #v[psu, psu, Psu.reset, Psu.reset] }).setEvu
    { s.evu with intake := [], pending := pending, lostTotal := pending }

/-- Entry to ARMED with a power budget of 1 dW too little for one settled blade, for one alone, of 1 dW too little for both, for both,
and in HOLD (R85, R86, R138). -/
theorem witness_EnterArmedStartsTheUnits_blades :
    let blades (s : State) : BladeState × BladeState := ((after .enterArmed s).blade 4 |>.state, (after .enterArmed s).blade 5 |>.state)
    blades (settledPair 4699 0) = (.waitPower, .waitPower) ∧ blades (settledPair 4700 0) = (.powering, .waitPower) ∧
      blades (settledPair 8199 0) = (.powering, .waitPower) ∧ blades (settledPair 8200 0) = (.powering, .powering) ∧
      blades ((settledPair 8200 0).setPbu { (settledPair 8200 0).pbu with hold := true }) = (.waitPower, .waitPower) ∧
      (settledPair 8200 0).bladeWait = [] ∧ (settledPair 8200 0).pbu.hold = false := by decide +kernel

/-- The EVU's starting point without drops and with one, before the events of the entry (R161, R164). -/
theorem witness_EnterArmedStartsTheUnits_events : (settledPair 8200 0).evu.intake = [] ∧
    let start (pending : Nat) : Option RingLost × Nat := ((armUnits (settledPair 8200 pending)).evu.ringLost, (armUnits (settledPair 8200 pending)).evu.sequence)
    start 0 = (none, 0) ∧ start 1 = (some ⟨1, (settledPair 8200 1).timestamp, true⟩, 1) := by decide +kernel

theorem witness_WatchShadowsThroughResetAndArming : bladePart.pins.warm = false ∧ fillDonePart.plu.fill = .drained := by decide +kernel

/-! ### What single commands do, held against the manual's tables and worked sequences -/

/-- Table 7.1-1: the capacity codes 00, 01, 10 and 11 name 12,000, 18,000, 24,000 and 30,000 dW. -/
theorem test_capacity_codes : capacityOf 0#2 = 12000 ∧ capacityOf 1#2 = 18000 ∧ capacityOf 2#2 = 24000 ∧ capacityOf 3#2 = 30000 := by
  decide +kernel

/-- R131: a 24,000 dW supply on low line gives 13,200 dW. -/
theorem test_low_line_example : usable ⟨.online, none, none, false, some 24000⟩ true = 13200 := by decide +kernel

/-- Section 8.7.1: at 12,000 rpm and a lowest duty of 45 the expected minimum is 3,780 rpm. -/
theorem test_expected_minimum_example : expectedMinimum 12000 45 = 3780 := by decide +kernel

/-- The CRC of R63 over the digits 1 to 9: 0x29B1, the check value published for this polynomial and start value. -/
theorem test_crc_of_nine_digits : crc16 [0x31, 0x32, 0x33, 0x34, 0x35, 0x36, 0x37, 0x38, 0x39] = 0x29B1#16 := by decide +kernel

/-- R116, worked by hand for the key 0, the serial 0 and the token of feature 0, units 0 and sequence 1: the product
0x5851F42D4C957F2D rotated left by 23 places. -/
theorem test_digest_rotates : digestWith 0#64 0#64 0#64 ⟨0, 0, 1, 0, 0⟩ = 0x16A64ABF96AC28FA#64 := by decide +kernel

/-- R116, worked step by step outside Lean for feature 1, 30 units and sequence 5. -/
theorem test_digest_of_a_token : digestWith 0x1111222233334444#64 0x5555666677778888#64 0x0102030405060708#64 ⟨1, 30, 5, 0, 0⟩ =
    0xCE574F6D82AA85AE#64 := by decide +kernel

/-! #### Section 6.10: a grant round over three blades -/

/-- The start of the round. The headroom holds the first four grants (90 dW) and not the fifth. -/
def roundPart : State :=
  let held (n : Nat) (waiting : List SpeedClass) : Vector Port 48 := Vector.mapIx (Vector.replicate 48 Port.reset) (fun i x =>
    if i.1 < n then onlinePort (plain .class4) 0 0
    else match waiting[i.1 - n]? with
      | some c => licencePort (plain c)
      | none => x)
  let up : Blade := { upBlade with base := 0 }
  let s := armedPart.setPau ⟨#v[up, up, up, .reset, .reset, .reset, .reset, .reset],
    #v[held 1 [.class1, .class1], held 2 [.class3, .class1], held 3 [.class1, .class4, .class1], portsBelow 0 (fun _ => .reset),
      portsBelow 0 (fun _ => .reset), portsBelow 0 (fun _ => .reset), portsBelow 0 (fun _ => .reset), portsBelow 0 (fun _ => .reset)]⟩
  let s := s.setBlc #v[upLink, upLink, upLink, .reset, .reset, .reset, .reset, .reset]
  let s := s.setLu { s.lu with
    portUnits := { FeatureState.newPart with entitlement := 24 }
    reserves := #v[4, 4, 4, 0, 0, 0, 0, 0]
    queues := #v[[⟨1, 1⟩, ⟨2, 1⟩], [⟨2, 2⟩, ⟨3, 1⟩], [⟨3, 1⟩, ⟨4, 4⟩, ⟨5, 1⟩], [], [], [], [], []]
    counters := #v[2, -1, -1, 0, 0, 0, 0, 0]
    slots := Vector.put s.lu.slots 0 { TokenSlot.reset with state := .programming }
    program := some ⟨0, .portUnits, 30, 1, sec 1⟩ }
  (s.setPlu { s.plu with inUse := { Tunables.default with thermalBase := 340, weights := #v[1, 2, 3, 1, 1, 1, 1, 1] } }).setPbu
    { s.pbu with available := 340, ceiling := 340 }

/-- Section 6.10.3: queues, counters, units held and common free after the round, and P0b waiting for power. -/
theorem test_grant_round_example : let t := after (.nvProgramComplete true) roundPart
    t.lu.counters = #v[-1, -3, 4, 0, 0, 0, 0, 0] ∧ t.queue 0 = [] ∧ t.queue 1 = [] ∧ t.queue 2 = [⟨4, 4⟩, ⟨5, 1⟩] ∧
    t.slotUnits 0 = 5 ∧ t.slotUnits 1 = 11 ∧ t.slotUnits 2 = 13 ∧ t.commonFree 30 = 1 ∧
    t.pbu.waitList.map (·.port) = [⟨0, 2⟩] ∧ (t.port ⟨0, 1⟩).state = .goingUp ∧ (t.port ⟨2, 4⟩).state = .waitLicense := by decide +kernel

/-- The round with one more unit reserved for each slot: slot 0 has its head's unit unused in its reserve. -/
def reservePart : State := roundPart.setLu { roundPart.lu with reserves := #v[5, 4, 4, 0, 0, 0, 0, 0] }

theorem witness_ProgramEndsAppliedOrFaulted_round : let t := after (.nvProgramComplete true) roundPart
    let r := roundPart.setLu { roundPart.lu with portUnits := t.lu.portUnits, xdPorts := t.lu.xdPorts, program := none }
    roundPart.lu.entitlementInUse .portUnits < t.lu.entitlementInUse .portUnits ∧
    (∀ c, ∀ x ∈ (roundPart.queue c).head?, r.unusedReserve 30 c < x.units) ∧ (roundPart.queue 0).head? = some ⟨1, 1⟩ ∧
    0 < r.weight 0 ∧ r.licenceFits 0 1 = true ∧ (roundPart.port ⟨0, 1⟩).request ≠ none ∧
    (∀ c, c ≠ 0 → ∀ x ∈ (roundPart.queue c).head?, 0 < r.weight c → r.licenceFits c x.units = true →
      clampCounter (roundPart.lu.counters.get c + r.weight c) < clampCounter (roundPart.lu.counters.get 0 + r.weight 0) ∨
      (clampCounter (roundPart.lu.counters.get c + r.weight c) = clampCounter (roundPart.lu.counters.get 0 + r.weight 0) ∧ 0 < c)) ∧
    1 ≤ (reservePart.setLu { reservePart.lu with portUnits := t.lu.portUnits }).unusedReserve 30 0 := by decide +kernel

theorem witness_ProgramEndsAppliedOrFaulted_waits : roundPart.waitsMatch ∧ reservePart.waitsMatch := by
  unfold State.waitsMatch
  constructor <;> decide +kernel

/-! #### Section 7.8: a supply failure -/

/-- The starting point of Section 7.8.1. -/
def supplyPart : State :=
  let prio (i : Fin 48) : Fin 8 := if i.1 < 8 then 7 else if i.1 < 24 then 5 else if i.1 < 40 then 2 else 0
  let ports := portsBelow 48 (fun i => onlinePort (plain .class3) 2 (prio i))
  let none48 := portsBelow 0 (fun _ => .reset)
  let up : Blade := { upBlade with base := 3800, portCount := some 48 }
  let s := armedPart.setPau ⟨#v[up, up, up, .reset, .reset, .reset, .reset, .reset],
    #v[ports, ports, ports, none48, none48, none48, none48, none48]⟩
  let s := s.setBlc #v[upLink, upLink, upLink, .reset, .reset, .reset, .reset, .reset]
  let s := s.setPbu { s.pbu with
    psus := #v[⟨.online, none, none, false, some 24000⟩, ⟨.online, none, none, false, some 24000⟩,
      ⟨.online, none, none, false, some 18000⟩, Psu.reset]
    supply := 31200, reserved := 29640, ceiling := 49400, available := 29640, derate := 95 }
  let s := s.setPins { s.pins with
    psuPresent := #v[true, true, true, false], powerGood := #v[true, true, true, false], acOk := #v[true, true, true, false]
    lowLine := #v[false, true, false, false] }
  s.setPlu { s.plu with inUse := { Tunables.default with reserve := 5, thermalBase := 52000 } }

/-- Section 7.8.2: P, S, T, A and the headroom after the failure; 119 ports are shed, the last of them slot 0 port 9.
The first of the 39, 40 and 40 DISABLEs of the blades is already in transmission. -/
theorem test_supply_failure_example : let t := after (.powerGoodFall 0) supplyPart
    (t.pbu.psus.get 0).state = .faulted ∧ t.pbu.supply = 13200 ∧ t.pbu.reserved = 12540 ∧ t.pbu.ceiling = 49400 ∧
    t.pbu.available = 12540 ∧ t.committed = 17880 ∧ t.projected = 12525 ∧ t.headroom = 15 ∧ t.pbu.powerCritical = false ∧
    t.pbu.redundancyLost = false ∧ (t.port ⟨0, 9⟩).state = .goingDown ∧ (t.port ⟨0, 9⟩).cause = .power ∧
    (t.port ⟨0, 8⟩).state = .online ∧ (t.link 0).queue.length = 38 ∧ (t.link 1).queue.length = 39 ∧ (t.link 2).queue.length = 39 := by
  decide +kernel

/-- R139 and R140 on the same part with T = 17,000 × 95 / 100 = 16,150 and the alarm raised: of the 48 ports of 45 dW each blade has,
the 24 of priority 0 and then 15 of slot 2 of priority 2 bring 17,880 down to 16,125, and the alarm clears. -/
theorem test_shed_selection :
    let s := (supplyPart.setPlu { supplyPart.plu with inUse := { supplyPart.plu.inUse with thermalBase := 17000 } }).setPbu
      { supplyPart.pbu with powerCritical := true }
    let t := after (.lowLineChange 0 true) s
    t.pbu.available = 16150 ∧ t.projected = 16125 ∧ t.pbu.powerCritical = false ∧ (t.port ⟨0, 40⟩).state = .goingDown ∧
    (t.port ⟨2, 25⟩).state = .goingDown ∧ (t.port ⟨2, 24⟩).state = .online ∧ (t.port ⟨1, 39⟩).state = .online := by decide +kernel

/-- R129 and R36: with its last ONLINE supply on INPUT_LOST the part declares HOLD, and answers RETRY to a READ that it holds. -/
theorem test_hold_declared :
    let s := examplePart.setTbp { examplePart.tbp with heldReads := [⟨3, [40], [0]⟩] }
    let t := after (.acOkFall 1) (s.setPins { s.pins with acOk := Vector.replicate 4 true, powerGood := Vector.replicate 4 true })
    t.pbu.hold = true ∧ (t.pbu.psus.get 1).state = .inputLost ∧ t.tagSlot 3 = ⟨none, some ⟨.retry, []⟩⟩ ∧ t.tmc.holdTold = true := by
  decide +kernel

/-! #### Section 8.7: a tray pulled in zone 0 -/

/-- The starting point of Section 8.7.1, 0.4 s into a measurement window. The port draws of slots 0 to 3, which shed no port,
stand with their base draws. -/
def trayPart : State :=
  let ports := portsBelow 30 (fun i => onlinePort ⟨.class1, true⟩ 3 (if i.1 < 24 then 4 else 1))
  let none48 := portsBelow 0 (fun _ => .reset)
  let up : Blade := { upBlade with base := 3500, portCount := some 48 }
  let full : Blade := { up with base := 3500 + 30 * 75 }
  let temp (input : Int) (l : Vector Bool 4) (demand : Nat) : BladeTemp :=
    { warmTemp with inlet := some 20, hotspot := some input, freshAt := some (sec 105), input := input, latches := l, demand := demand }
  let low := #v[true, false, false, false]
  let high := #v[true, true, false, false]
  let s := armedPart.setPau ⟨#v[full, full, full, full, up, up, .reset, .reset],
    #v[none48, none48, none48, none48, ports, ports, none48, none48]⟩
  let s := s.setBlc #v[upLink, upLink, upLink, upLink, upLink, upLink, .reset, .reset]
  let s := s.setPbu { s.pbu with
    psus := #v[⟨.online, none, none, false, some 24000⟩, ⟨.online, none, none, false, some 24000⟩,
      ⟨.online, none, none, false, some 24000⟩, Psu.reset]
    supply := 48000, reserved := 48000, ceiling := 40000, available := 40000, derate := 100 }
  let s := s.setPins { s.pins with
    psuPresent := #v[true, true, true, false], powerGood := #v[true, true, true, false], acOk := #v[true, true, true, false]
    trayPresent := Vector.replicate 6 true }
  let s := s.setFtu { s.ftu with
    temps := #v[temp 42 high 45, temp 38 low 30, temp 44 high 45, temp 41 high 45, temp 35 low 30, temp 35 low 30, .reset, .reset]
    zones := #v[⟨45, 45, 45⟩, ⟨30, 30, 30⟩] }
  -- the port draw of the example, 75 dW, is made up of e = 20, o = 25 and x = 30
  s.setPlu { s.plu with inUse := { Tunables.default with thermalBase := 40000, xdDraw := 30 } }

/-- Section 8.7.2: L, f and A after the pull, zone 0 at full duty, its OK rotors in SPINUP, and the seven ports shed
(the first DISABLE of a blade is already in transmission). -/
theorem test_tray_pulled_example : let t := after (.trayRemoved 1) trayPart
    (t.ftu.rotors.get 2).state = .absent ∧ (t.ftu.rotors.get 3).state = .absent ∧ t.ftu.trays.get 1 = .failed ∧ t.ftu.lost = 2 ∧
    t.ftu.derate = 85 ∧ t.ftu.zones = #v[⟨100, 100, 45⟩, ⟨30, 30, 30⟩] ∧
    (∀ r ∈ ([0, 1, 4, 5] : List Rotor), (t.ftu.rotors.get r).state = .spinup ∧ (t.ftu.rotors.get r).spinupAt = some (sec 108)) ∧
    (t.ftu.rotors.get 6).state = .ok ∧ t.pbu.available = 34000 ∧ t.projected = 33975 ∧ t.headroom = 25 ∧
    (t.link 5).queue.map (·.port) = [28, 27, 26, 25, 24] ∧ (t.port ⟨5, 29⟩).state = .goingDown ∧ (t.port ⟨4, 29⟩).state = .goingDown ∧
    (t.port ⟨4, 28⟩).state = .online := by
  decide +kernel

/-! #### Section 3.4.1: three classes under load, and Section 3.4.2: a correction in the live bank -/

/-- The arbiter with fetch reads of slots 0 and 3, a TBP read and the SWQ head presented. -/
def loadPart (tbpWait internalWait : Nat) (last : Slot) (debt : Nat) : State :=
  bladePart.setTmc { bladePart.tmc with
    presented := [⟨.fetch 0 0 0, 5000⟩, ⟨.fetch 3 0 0, 5001⟩, ⟨.busRead 7 0, 5002⟩, ⟨.swqHead, 40⟩]
    tbpWait := tbpWait, internalWait := internalWait, lastSlot := last, debt := debt }

/-- What the arbiter grants and the two waiting counts after it. -/
def granted (s : State) : Option AccessKind × Nat × Nat :=
  match choose s with
  | .access a => (some a.kind, (s.tmc.countGrant a).tbpWait, (s.tmc.countGrant a).internalWait)
  | _ => (none, s.tmc.tbpWait, s.tmc.internalWait)

/-- Grants 1 to 4 of the table, and the urgent refresh before grant 5. -/
theorem test_service_order_example :
    granted (loadPart 2 5 3 7) = (some (.fetch 0 0 0), 3, 6) ∧ granted (loadPart 3 6 0 7) = (some (.busRead 7 0), 0, 7) ∧
    granted (loadPart 0 7 0 7) = (some .swqHead, 1, 0) ∧ granted (loadPart 1 0 0 7) = (some (.fetch 3 0 0), 2, 1) ∧
    choose (loadPart 2 1 3 8) = .refresh := by decide +kernel

/-- R58: an access presented after a deferred scrub of its line waits behind it, whatever its class. -/
theorem test_scrub_goes_first :
    let s := bladePart.setTmc { bladePart.tmc with presented := [⟨.deferredScrub 0 9, 4105⟩, ⟨.busRead 7 0, 4105⟩], deferred := [(0, 9)] }
    (granted s).1 = some (.deferredScrub 0 9) := by decide +kernel

/-- A fetch of bank line 300 of the live bank of an even epoch, with one wrong bit in word 5 (Section 3.4.2). -/
theorem test_correction_example :
    let s := bladePart.setZiu { bladePart.ziu with swap := true, epoch := 6 }
    let t := after (.grant [⟨5, false⟩]) (s.setTmc { s.tmc with presented := [⟨.fetch 4 0 0, 4096 + 300⟩] })
    t.tmc.deferred = [(0, 300)] ∧ t.tmc.corrected = ⟨1, 64 * (4096 + 300), 64 * (4096 + 300)⟩ ∧ t.tmc.uncorrectable.count = 0 := by
  decide +kernel

/-- R49, R51, R54: a deferred scrub of a line whose word 2 still has a wrong bit that an earlier read has counted. With no new wrong bit,
and with a second one in word 2, no corrected word is counted; with a new one in word 4 that word is, also on a line that is
uncorrectable by word 6. -/
theorem test_deferred_scrub_counts_once :
    let s := (queuedUpPart [⟨.deferredScrub 0 9, 4105⟩] 0 0 0)
    let s := s.setTmc { s.tmc with marks := [(8 * 4105 + 2, .oneWrong)], corrected := ⟨1, 7, 7⟩ }
    let counts (flips : List BitFlip) := (((after (.grant flips) s).tmc.corrected, (after (.grant flips) s).tmc.uncorrectable.count))
    counts [] = (⟨1, 7, 7⟩, 0) ∧ counts [⟨2, false⟩] = (⟨1, 7, 7⟩, 1) ∧ counts [⟨4, false⟩] = (⟨2, 7, 64 * 4105⟩, 0) ∧
    counts [⟨4, false⟩, ⟨6, true⟩] = (⟨2, 7, 64 * 4105⟩, 1) := by decide +kernel

/-! #### Section 1.10: a commit -/

/-- A COMMIT with sequence 4 and a declared count of 1 over one staged line (1.10.1): VALIDATING, PENDING. -/
theorem test_commit_accepted : let t := after .commit (zoneWord 1 { bladePart.ziu with dirty := [(9, .staged)] })
    t.ziu.zone = .validating ∧ t.ziu.result = .pending ∧ t.ziu.detail = 0 ∧ t.ziu.accepted = 4 ∧ t.ziu.declared = 1 := by decide +kernel

/-- The flip after the last member line (1.10.1). -/
theorem test_flip : let t := after .validatorReadComplete lastLinePart
    t.ziu.zone = .awaitAck ∧ t.ziu.swap = true ∧ t.ziu.epoch = 2 ∧ t.ziu.dirty = [(9, .resync)] ∧ t.ziu.ackSet = [2] ∧
    t.ziu.ackAt = some (sec 100 + msec 500) ∧ t.ziu.liveZones = 1 ∧ t.ziu.liveMembers = 1 ∧ (t.link 2).sending = some ⟨.epoch 2, true⟩ := by decide +kernel

/-- A stage write in AWAIT_ACK is answered RETRY and leaves its line CLEAN; in VALIDATING it ends the validation with
STAGE_CHANGED and the line number (1.10.2). -/
theorem test_racing_write :
    let write : Instr := .write 3 (BitVec.ofNat 32 (0x40000 + 64 * 200)) 1#3 fullLine (List.replicate 64 true)
    let a := after write (bladePart.setZiu { bladePart.ziu with zone := .awaitAck })
    let v := after write validatingPart
    (a.tagSlot 3).response = some ⟨.retry, []⟩ ∧ a.ziu.lineState 200 = .clean ∧
    v.ziu.zone = .idle ∧ v.ziu.result = .stageChanged ∧ v.ziu.detail = 200 ∧ v.ziu.lineState 200 = .staged ∧ v.ziu.epoch = 1 := by
  decide +kernel

/-- R20: the last acknowledgement empties the set and stops the timer, while a fetch of the old bank is still in flight. -/
theorem test_last_ack_stops_the_timer :
    let z := waitingPart.ziu
    let s := waitingPart.setZiu { z with ackAt := some (sec 101), inFlight := Vector.replicate 2 1 }
    let t := after (.epochAck 2 1#32) s
    t.ziu.ackSet = [] ∧ t.ziu.ackAt = none ∧ t.ziu.zone = .awaitAck := by decide +kernel

/-- The resync engine passes over STAGED lines, and the pass ends COMMITTED (1.10.4). -/
theorem test_resync_ends :
    let s := copyingPart false
    let t := after .resyncCopyComplete (s.setZiu { s.ziu with dirty := [(9, .resync), (131, .staged), (200, .staged)] })
    t.ziu.zone = .idle ∧ t.ziu.result = .committed ∧ t.ziu.dirty = [(131, .staged), (200, .staged)] := by decide +kernel

/-! #### Section 2.4.1: a port table write -/

/-- The part with blade 0 UP. -/
def portTablePart : State := (armedPart.setLink 0 upLink).setBlade 0 upBlade

/-- A write of two lines: records 0 and 1 have their request words completed and are handed over in order; record 2
keeps its shadow; the part-owned bytes of records 0 and 3 are stripped. -/
theorem test_port_table_write_example :
    let word (c p q : Nat) : List Byte := leBytes 8 (1 + 256 * c + 2 ^ 24 * p + 2 ^ 32 * q)
    let data := word 3 2 5 ++ List.replicate 24 7#8 ++ word 2 0 5 ++ List.replicate 24 7#8 ++ word 1 0 9 ++ List.replicate 56 7#8
    let on (n : Nat) (b : Bool) : List Bool := List.replicate n b
    let enables := on 32 true ++ on 8 true ++ on 24 false ++ on 4 true ++ on 36 false ++ on 24 true
    let t := after (.write 3 0xC0000#32 2#3 data enables) portTablePart
    t.tbp.handed.map (·.word) = [.portRequest ⟨0, 0⟩, .portRequest ⟨0, 1⟩] ∧
    (t.tbp.portShadow.get 0)[0] = BitVec.ofNat 64 (1 + 256 * 3 + 2 ^ 24 * 2 + 2 ^ 32 * 5) ∧ (t.tbp.portShadow.get 0)[2] = 0#64 ∧
    t.tmc.presented.map (fun a => (a.line, match a.kind with
      | .busWrite _ _ m _ => (List.range 64).filter (fun i => (m[i]?.getD none).isSome)
      | _ => [])) = [(0x3000, List.range 8 ++ (List.range 8).map (32 + ·)), (0x3001, List.range 4)] := by decide +kernel

/-! #### Section 4.8: an order timeout and a repeated loss, and Section 5.5.2: the return of a blade -/

/-- The deadline of an order runs out (4.8.2): LOST for 1 s with the loss recorded, orders and fetches discarded. -/
theorem test_order_timeout_example :
    let s := orderPart .goingUp true .enable
    let l := s.link 2
    let t := after (.orderDeadline 2 6) (s.setLink 2 { l with losses := [sec 60], queue := [⟨4, .enable, class1⟩] })
    (t.link 2).state = .lost ∧ (t.link 2).holdoffAt = some (sec 101) ∧ (t.link 2).losses = [sec 60, sec 100] ∧ (t.link 2).queue = [] ∧
    (t.link 2).orders = Vector.replicate 8 none ∧ (t.blade 2).state = .lost ∧ (t.blade 2).cause = .orderTimeout := by decide +kernel

/-- A third loss 55 s after the oldest of the history is a repeated loss (4.8.4): the link enters DOWN, the blade FAULTED. -/
theorem test_repeated_loss_example :
    let s := linkPart .up .up
    let t := after (.keepaliveExpiry 2) (s.setLink 2 { s.link 2 with losses := [sec 45, sec 85] })
    (t.link 2).state = .down ∧ (t.link 2).losses = [] ∧ (t.blade 2).state = .faulted ∧ (t.blade 2).powerEn = false := by decide +kernel

/-- The blade of Section 5.5 just before its return: slot 2 LOST, and its ports 0 to 7 as they then stand. -/
def returningPart : State :=
  let base : Port := { Port.reset with desired := true, request := some (plain .class1), granted := some (plain .class1), priority := 4, optic := some 0 }
  let ports : Vector Port 48 := Vector.mapIx (Vector.replicate 48 Port.reset) (fun i x =>
    match i.1 with
    | 0 => { base with state := .online }
    | 1 => { base with state := .goingUp }
    | 2 => { base with state := .goingUp, leaving := .power, cause := .power }
    | 3 => { base with state := .goingDown, desired := false, cause := .request }
    | 4 => { base with cause := .bladeDown, granted := none }
    | 5 => { base with state := .shed, cause := .power }
    | 6 => { base with state := .online, desired := false }
    | 7 => { base with cause := .bladeDown, granted := none, priority := 2 }
    | _ => x)
  let s := linkPart .returnWait .lost
  s.setPau { s.pau with ports := Vector.put s.pau.ports 2 ports }

/-- Section 5.5.2, with headroom enough for every port: the HELLO makes the blade UP with the new base draw, ports 0 and 1 are
enabled again, and ports 3 and 6 become OFFLINE. The restore process then takes ports 2 and 5 out of SHED and grants 4 and 7. -/
theorem test_return_example : let t := after (.hello 2 2 0 1 2 32 3200) returningPart
    (t.link 2).state = .up ∧ (t.blade 2).state = .up ∧ (t.blade 2).base = 3200 ∧
    (List.range 8).map (fun i => ((t.pau.ports.get 2)[i]?.getD .reset).state) =
      [.goingUp, .goingUp, .goingUp, .offline, .goingUp, .goingUp, .offline, .goingUp] ∧
    ((t.pau.ports.get 2)[3]).cause = .request ∧ (t.link 2).queue.map (·.port) = [0, 1, 2, 5, 4, 7] := by decide +kernel

/-- Section 5.5.2 where the headroom does not allow a restore: ports 2 and 5 stay SHED, 4 and 7 wait for power. -/
theorem test_return_without_headroom :
    let s := returningPart
    let s := (s.setPlu { s.plu with inUse := { Tunables.default with thermalBase := 3279 } }).setPbu { s.pbu with ceiling := 3279, available := 3279 }
    let t := after (.hello 2 2 0 1 2 32 3200) s
    (List.range 8).map (fun i => ((t.pau.ports.get 2)[i]?.getD .reset).state) =
      [.goingUp, .goingUp, .shed, .offline, .waitPower, .shed, .offline, .waitPower] ∧
    t.pbu.waitList.map (·.port) = [⟨2, 4⟩, ⟨2, 7⟩] ∧ (t.link 2).queue.map (·.port) = [0, 1] := by decide +kernel

/-! #### Table 11.7-1: messages as bytes, and R152: the rotor records -/

/-- The bytes of an EPOCH_ACK of slot 2 for epoch 16,909,060, of a FETCH of tag 3 from line 4,092 and of a HELLO, low byte first. -/
theorem test_messages_as_bytes :
    EngineMessage.ofBytes [6, 2, 4, 0, 0, 4, 3, 2, 1, 0, 0] = some (.epochAck 0x01020304#32) ∧
    EngineMessage.ofBytes [2, 2, 3, 0, 3, 0xFC, 0x0F, 4, 0, 0] = some (.fetch 3 4092#16 4#8) ∧
    EngineMessage.ofBytes [1, 2, 6, 0, 0, 1, 2, 24, 0, 0xB0, 0x04, 0, 0] = some (.hello 2 0 1 2 24 1200#16) := by decide +kernel

/-- A byte more than the length field says fails with BAD_LENGTH. -/
theorem test_message_lengths : receptionFailure 2 (wireMessage 7#8 2#8 0#8 []) = none ∧
    receptionFailure 2 (wireMessage 6#8 2#8 0#8 [1#8]) = some .badLength := by decide +kernel

/-- A window whose counts are those of the window before still has the record of each rotor written, in lines 37 and 38. -/
theorem test_rotor_records_written : let t := after .measurementWindowEnd (after .measurementWindowEnd bladePart)
    ((t.swq.entries.filter (fun e => decide (e.line = 37))).length, (t.swq.entries.filter (fun e => decide (e.line = 38))).length) = (2, 1) := by
  decide +kernel

/-! #### Section 9.7: an overflow of the ring -/

/-- The full ring of Section 9.7 with a BUDGET event at the head of the intake. -/
def overflowPart : State :=
  bladePart.setEvu { bladePart.evu with
    intake := [⟨1000, 0, budgetEvent bladePart .shed 0⟩], sequence := 1000, producer := 250, consumer := 251, asserted := true }

/-- The head event finds the ring full and is dropped; the RING_LOST of sequence 1001 is held, and a consumer write of 10
is accepted. -/
theorem test_overflow_example : let t := after .recordWrite overflowPart
    let u := after .consumerIndexWrite (handing t .consumerIndex 10#64)
    t.evu.pending = 1 ∧ t.evu.lostTotal = 1 ∧ t.evu.intake = [] ∧ (t.evu.ringLost.map (·.seq)) = some 1001 ∧ t.evu.producer = 250 ∧
    u.evu.consumer = 10 ∧ u.attn = true := by decide +kernel

/-- Once a slot is free the held RING_LOST is placed and the pending count returns to 0. -/
theorem test_overflow_reported :
    let t := after .recordWrite (overflowPart.setEvu { overflowPart.evu with
      intake := [], pending := 1, lostTotal := 1, ringLost := some ⟨1001, 0, false⟩, consumer := 10 })
    t.evu.pending = 0 ∧ t.evu.ringLost = none ∧ t.evu.phase = .draining .warn := by decide +kernel

end Sys2Proof.Tests
end

section
/-! PROOFS. The table memory path: a request on a busy tag (R30) and the watch shadows through the resets and the entry to
ARMED (R39). -/

namespace Sys2Proof.Machine

/-! ### The arms of the commands -/

theorem exec_read_eq (tag : BusTag) (addr : BitVec 32) (len : BitVec 3) (s : State) :
    exec (.read tag addr len) s = execRead tag addr len s := rfl

theorem exec_write_eq (tag : BusTag) (addr : BitVec 32) (len : BitVec 3) (data : List Byte) (enables : List Bool) (s : State) :
    exec (.write tag addr len data enables) s = execWrite tag addr len data enables s := rfl

theorem exec_powerOnReset_eq (p : PowerOn) (s : State) : exec (.powerOnReset p) s = .next (powerOn s p) := rfl

theorem exec_warmReset_eq (s : State) : exec .warmReset s = execWarmReset s := rfl

theorem exec_enterArmed_eq (s : State) : exec .enterArmed s = execEnterArmed s := rfl

/-! ### Status writes change the TMC and the SWQ alone -/

theorem asked_fillFrom : ∀ (fuel : Nat) (s : State) (k : Nat), Asked s (fillFrom fuel s k)
  | 0, s, _ => asked_setSwq s _
  | fuel + 1, s, k => by
    unfold fillFrom
    split
    · exact .refl s
    · split
      · exact ((asked_setSwq s _).trans (asked_swqIssue _)).trans (asked_fillFrom fuel _ _)
      · exact asked_setSwq s _

theorem asked_statusWrite (s : State) (u : UnitId) (item : StatusItem) : Asked s (statusWrite s u item) := by
  unfold statusWrite
  split
  · exact asked_fillFrom _ s _
  · split
    · exact .refl s
    · split
      · exact .refl s
      · split
        · exact (asked_setSwq s _).trans (asked_swqIssue _)
        · exact asked_setSwq s _

theorem Asked.evu {s t : State} (h : Asked s t) : t.evu = s.evu := by rw [h.rest]

theorem Asked.armed {s t : State} (h : Asked s t) : t.armed = s.armed := by
  rw [h.rest]
  rfl

theorem Asked.timestamp {s t : State} (h : Asked s t) : t.timestamp = s.timestamp := by
  rw [h.rest]
  rfl

/-! ### One event handed to the EVU -/

/-- An armed part with a place in its intake takes the event with the next sequence (R160). -/
theorem handEvent_taken {s : State} (e : Event) (harmed : s.armed = true) (hplace : s.evu.intake.length < 32) :
    handEvent s e = s.setEvu { s.evu with
      sequence := (s.evu.sequence + 1) % 65536
      intake := s.evu.intake ++ [⟨(s.evu.sequence + 1) % 65536, s.timestamp, e⟩] } := by
  simp [handEvent, harmed, hplace]

/-- Before the part is ARMED, and with the intake full, the event is dropped and counted (R160, R164). -/
theorem handEvent_dropped {s : State} (e : Event) (h : s.armed = false ∨ 32 ≤ s.evu.intake.length) :
    (handEvent s e).evu.intake = s.evu.intake ∧ (handEvent s e).evu.lostTotal = min max32 (s.evu.lostTotal + 1) := by
  unfold handEvent
  split
  · exact ⟨rfl, rfl⟩
  · rename_i harmed
    have hfull : ¬s.evu.intake.length < 32 := by
      rcases h with h | h
      · simp [h] at harmed
      · omega
    dsimp only
    rw [if_neg hfull]
    exact ⟨rfl, rfl⟩

/-- The creation of a RING_LOST leaves the intake and the count of lost events. -/
theorem evuRest_intake_lostTotal (s : State) :
    (evuRest s).evu.intake = s.evu.intake ∧ (evuRest s).evu.lostTotal = s.evu.lostTotal := by
  unfold evuRest
  split <;> exact ⟨rfl, rfl⟩

/-- The status writes of a command, as publication enqueues them. -/
def stateWritten (o : State) (w : Work) : State := (writtenItems o w).foldl (fun s p => statusWrite s p.1 p.2) w.st

theorem asked_stateWritten (o : State) (w : Work) : Asked w.st (stateWritten o w) :=
  asked_foldl _ (fun s (p : UnitId × StatusItem) => asked_statusWrite s p.1 p.2) _ _

/-- The EVU is published as the events of the command and the RING_LOST behind them leave it: what is published behind those
changes the TMC and the SWQ alone. -/
theorem publishState_evu (o : State) (w : Work) :
    (publishState o w).evu = (evuRest (w.events.foldl (handRaised (writtenItems o w)) (stateWritten o w))).evu := by
  have hrest : ∀ s : State, (tmcRest (scrubRest s)).evu = s.evu := fun _ => rfl
  unfold publishState
  dsimp only
  rw [hrest, ← stateWritten]
  generalize evuRest _ = s
  split
  · exact (asked_statusWrite s _ _).evu
  · rfl

/-- A command that raises one event of a unit without status writes hands it to the EVU behind its status writes. -/
theorem publish_direct_event (o : State) {w : Work} {e : Event} (h : w.events = [⟨none, e⟩]) :
    (publish o w).evu.intake = (handEvent (stateWritten o w) e).evu.intake ∧
      (publish o w).evu.lostTotal = (handEvent (stateWritten o w) e).evu.lostTotal := by
  have hevu : (publish o w).evu = (evuRest (handEvent (stateWritten o w) e)).evu := by
    rw [publish_evu, publishState_evu, h]
    rfl
  rw [hevu]
  exact evuRest_intake_lostTotal _

/-! ### A request on a busy tag -/

/-- A READ whose tag is outstanding does nothing but raise its BUS_PROTOCOL event (R30). -/
theorem readRequest_busy {w : Work} {tag : BusTag} (addr len : Nat) (h : (w.st.tagSlot tag).outstanding.isSome = true) :
    readRequest w tag addr len = w.raiseDirect (busProtocolEvent tag false addr len) := by
  unfold readRequest
  exact if_pos h

/-- A WRITE whose tag is outstanding does nothing but raise its BUS_PROTOCOL event (R30). -/
theorem writeRequest_busy {w : Work} {tag : BusTag} (addr len : Nat) (data : List Byte) (enables : List Bool)
    (h : (w.st.tagSlot tag).outstanding.isSome = true) :
    writeRequest w tag addr len data enables = w.raiseDirect (busProtocolEvent tag true addr len) := by
  unfold writeRequest
  exact if_pos h

/-- On a ready bus a READ or a WRITE whose tag is outstanding answers the state that publishes its BUS_PROTOCOL event. -/
theorem exec_request_busy {tag : BusTag} (addr : BitVec 32) (len : BitVec 3) {s : State} (isWrite : Bool) (data : List Byte)
    (enables : List Bool) (hready : s.ready = true) (hbusy : (s.tagSlot tag).outstanding.isSome = true) :
    exec (if isWrite then .write tag addr len data enables else .read tag addr len) s =
      .next (publish s ((Work.start s).raiseDirect (busProtocolEvent tag isWrite addr.toNat len.toNat))) := by
  cases isWrite with
  | true =>
    rw [if_pos rfl, exec_write_eq, execWrite, act_of_occasion s _ hready, writeRequest_busy (w := Work.start s) _ _ _ _ hbusy]
  | false =>
    rw [if_neg Bool.false_ne_true, exec_read_eq, execRead, act_of_occasion s _ hready,
      readRequest_busy (w := Work.start s) _ _ hbusy]

/-- Publication touches neither table memory nor the ring's indices, the attention state or the coalescing timer. -/
theorem publish_backgroundKept (o : State) (w : Work) : backgroundKept w.st (publish o w) :=
  have hevu := (publish_published o w).evu
  ⟨fun a => by rw [publish_mem], publish_marks o w, hevu.producer, hevu.consumer, hevu.asserted, hevu.coalesceAt⟩

/-- Settles O18: the request's work is its event alone, so only publication acts on the part, and the event meets the EVU as it
stood. -/
theorem requestOnABusyTagIsDiscarded : Obligations.RequestOnABusyTagIsDiscarded := by
  intro tag addr len s isWrite data enables hready hbusy
  let event := busProtocolEvent tag isWrite addr.toNat len.toNat
  let w := (Work.start s).raiseDirect event
  have hu : Asked s (stateWritten s w) := asked_stateWritten s w
  obtain ⟨hintake, hlost⟩ := publish_direct_event s (w := w) (e := event) rfl
  generalize stateWritten s w = u at hu hintake hlost
  have hevu : u.evu = s.evu := hu.evu
  refine ⟨publish s w, exec_request_busy addr len isWrite data enables hready hbusy, publish_backgroundKept s w,
    (publish_published s w).tmc.jobs, ?taken, ?dropped, rfl, rfl⟩
  case taken =>
    intro hpart hplace
    have harmed : u.armed = true := hu.armed.trans (decide_eq_true hpart)
    have htime : u.timestamp = s.timestamp := hu.timestamp
    rw [hintake, handEvent_taken event harmed (hevu ▸ hplace), State.setEvu_evu, hevu, htime]
  case dropped =>
    intro hdrop
    have hdrop : u.armed = false ∨ 32 ≤ u.evu.intake.length :=
      hdrop.imp (fun h => hu.armed.trans (decide_eq_false h)) (fun h => hevu ▸ h)
    obtain ⟨hkept, hcount⟩ := handEvent_dropped event hdrop
    exact ⟨by rw [hintake, hkept, hevu], by rw [hlost, hcount, hevu]; rfl⟩

/-! ### Warm reset and the TBP -/

theorem zoneResult_tbp (w : Work) (r : CommitResult) (detail seq : Nat) : (zoneResult w r detail seq).st.tbp = w.st.tbp := by
  rw [(resynced_zoneResult w r detail seq).rest]

theorem endValidation_tbp (w : Work) : (endValidation w).st.tbp = w.st.tbp := rfl

/-- Warm reset drops the requests of the TBP and changes nothing else of it (R45), whether or not it ends a validation. -/
theorem exec_warmReset_tbp {s : State} (h : s.pins.warm = false) :
    ∃ t, exec .warmReset s = .next t ∧ t.tbp = s.tbp.dropped := by
  rw [exec_warmReset_eq, execWarmReset, act_of_occasion s _ (by rw [h]; rfl)]
  refine ⟨_, rfl, ?_⟩
  rw [publish_tbp]
  dsimp only
  split
  · rw [zoneResult_tbp, endValidation_tbp]
    rfl
  · rfl

/-! ### Entry to ARMED, the TBP and the PLU -/

/-- The TBP and the PLU stay as they were. -/
structure TbpPluKept (s t : State) : Prop where
  tbp : t.tbp = s.tbp
  plu : t.plu = s.plu

theorem TbpPluKept.refl (s : State) : TbpPluKept s s := ⟨rfl, rfl⟩

theorem TbpPluKept.trans {s t u : State} (h : TbpPluKept s t) (k : TbpPluKept t u) : TbpPluKept s u :=
  ⟨k.tbp.trans h.tbp, k.plu.trans h.plu⟩

theorem Settled.tbpPluKept {s t : State} (h : Settled s t) : TbpPluKept s t := ⟨h.tbp, h.plu⟩

theorem Targeted.tbpPluKept {l : List FanZone} {s t : State} (h : Targeted l s t) : TbpPluKept s t := by
  rw [h.rest]
  exact ⟨rfl, rfl⟩

theorem tbpPluKept_startLink (s : State) (b : Slot) : TbpPluKept s (startLink s b) := by
  unfold startLink
  dsimp only
  split <;> exact ⟨rfl, rfl⟩

theorem tbpPluKept_moveBlade (w : Work) (b : Slot) (x : Blade) : TbpPluKept w.st (moveBlade w b x).st := by
  rw [moveBlade_st]
  exact ⟨rfl, rfl⟩

theorem tbpPluKept_bladePowerCheck (w : Work) (b : Slot) : TbpPluKept w.st (bladePowerCheck w b).st := by
  unfold bladePowerCheck
  split
  · exact (tbpPluKept_moveBlade w b _).trans (tbpPluKept_startLink _ b)
  · exact tbpPluKept_moveBlade w b _

theorem tbpPluKept_releaseSettled (w : Work) (b : Slot) : TbpPluKept w.st (releaseSettled w b).st := by
  unfold releaseSettled
  dsimp only
  split
  · exact tbpPluKept_bladePowerCheck w b
  · exact .refl _

theorem tbpPluKept_releaseAll : ∀ (l : List Slot) (w : Work), TbpPluKept w.st (l.foldl releaseSettled w).st
  | [], _ => .refl _
  | b :: l, w => (tbpPluKept_releaseSettled w b).trans (tbpPluKept_releaseAll l _)

/-- Behind the units' starting points, entry to ARMED changes neither the TBP nor the PLU. -/
theorem tbpPluKept_enterArmedWork (w : Work) : TbpPluKept (armUnits w.st) (enterArmedWork w).st := by
  unfold enterArmedWork
  dsimp only
  rw [Work.rewrite_st]
  have hbudget : TbpPluKept (armUnits w.st) (budgetStep none (w.map armUnits)).st :=
    (settled_budgetStep none (.refl (w.map armUnits).st)).tbpPluKept
  generalize budgetStep none (w.map armUnits) = w1 at hbudget ⊢
  have hblades := tbpPluKept_releaseAll (indices 8) w1
  generalize (indices 8).foldl releaseSettled w1 = w2 at hblades ⊢
  have htargets := (targeted_targetStep w2).tbpPluKept
  generalize targetStep w2 = w3 at htargets ⊢
  have hsettle := (settle_settled w3).tbpPluKept
  exact ((hbudget.trans hblades).trans htargets).trans hsettle

/-- At the end of the fill, ENTER_ARMED makes the part ARMED and the TBP as entry to ARMED leaves it (R39, R170). -/
theorem exec_enterArmed_tbp {s : State} (hpart : s.plu.part = .arming) (hfill : s.plu.fill = .drained) :
    ∃ t, exec .enterArmed s = .next t ∧ t.plu.part = .armed ∧ t.tbp = s.tbp.onArmed := by
  have h := tbpPluKept_enterArmedWork (Work.start s)
  rw [exec_enterArmed_eq, execEnterArmed, act_of_occasion s _ (by rw [decide_eq_true hpart, decide_eq_true hfill, Bool.and_self])]
  refine ⟨_, rfl, ?_, ?_⟩
  · rw [publish_plu, h.plu]
    rfl
  · rw [publish_tbp, h.tbp]
    rfl

/-! ### The watch shadows -/

/-- A table of port shadows that are all zero reads zero at every port. -/
theorem portShadows_zero (b : Slot) (i : Fin 48) :
    ((Vector.replicate 8 (Vector.replicate 48 0#64)).get b).get i = 0#64 := by
  rw [Vector.get_replicate, Vector.get_replicate]

/-- Settles O60: power-on reset leaves the TBP's reset values, warm reset drops only requests, and entry to ARMED leaves
`Tbp.onArmed`. -/
theorem watchShadowsThroughResetAndArming : Obligations.WatchShadowsThroughResetAndArming := by
  refine ⟨fun p s => ⟨powerOn s p, exec_powerOnReset_eq p s, rfl, rfl, fun b i => ?_, fun k => ?_, rfl⟩, fun s hwarm => ?_,
    fun s hpart hfill => ?_⟩
  · exact portShadows_zero b i
  · exact Vector.get_replicate 8 0#64 k
  · obtain ⟨t, hexec, htbp⟩ := exec_warmReset_tbp hwarm
    refine ⟨t, hexec, ?_⟩
    rw [htbp]
    exact ⟨rfl, rfl, rfl, rfl, rfl⟩
  · obtain ⟨t, hexec, harmed, htbp⟩ := exec_enterArmed_tbp hpart hfill
    refine ⟨t, hexec, harmed, ?_⟩
    rw [htbp]
    exact ⟨rfl, rfl, portShadows_zero, Vector.get_replicate 8 0#64, rfl⟩

end Sys2Proof.Machine
end

section
/-! PROOFS. The duty law of the fan zones (R157): what the law depends on, the bounds behind it, and the computation of the
targets that restores it. -/

namespace Sys2Proof.Machine

/-! ### What the law depends on -/

/-- The figures of a state that the duty law of the fan zones speaks of. -/
structure DutyView where
  zones  : Vector FanZoneRec 2
  trays  : Vector TrayState 6
  temps  : Vector BladeTemp 8
  armed  : Bool
  inUse  : Tunables
  seated : Vector Bool 8

/-- The view of a state. -/
def State.dutyView (s : State) : DutyView :=
  ⟨s.ftu.zones, s.ftu.trays, s.ftu.temps, s.armed, s.plu.inUse, s.pau.blades.map (fun x => decide (x.state ≠ .absent))⟩

section View

variable {s t : State}

@[simp] theorem dutyView_seated (s : State) (b : Slot) : s.dutyView.seated.get b = s.seated b :=
  Vector.getElem_map (fun x : Blade => decide (x.state ≠ .absent)) b.2

theorem zones_of_dutyView (h : t.dutyView = s.dutyView) : t.ftu.zones = s.ftu.zones := congrArg DutyView.zones h
theorem trays_of_dutyView (h : t.dutyView = s.dutyView) : t.ftu.trays = s.ftu.trays := congrArg DutyView.trays h
theorem temps_of_dutyView (h : t.dutyView = s.dutyView) : t.ftu.temps = s.ftu.temps := congrArg DutyView.temps h
theorem armed_of_dutyView (h : t.dutyView = s.dutyView) : t.armed = s.armed := congrArg DutyView.armed h
theorem inUse_of_dutyView (h : t.dutyView = s.dutyView) : t.plu.inUse = s.plu.inUse := congrArg DutyView.inUse h

theorem seated_of_dutyView (h : t.dutyView = s.dutyView) (b : Slot) : t.seated b = s.seated b := by
  rw [← dutyView_seated, h, dutyView_seated]

/-- The figures of the three units that the view is taken from decide it. -/
theorem dutyView_of_units (ftu : t.ftu = s.ftu) (plu : t.plu = s.plu) (pau : t.pau = s.pau) : t.dutyView = s.dutyView := by
  unfold State.dutyView State.armed
  rw [ftu, plu, pau]

theorem targetDuty_of_dutyView (h : t.dutyView = s.dutyView) (z : FanZone) : t.targetDuty z = s.targetDuty z := by
  unfold State.targetDuty State.zoneBlades
  simp only [trays_of_dutyView h, temps_of_dutyView h, armed_of_dutyView h, inUse_of_dutyView h, seated_of_dutyView h]

end View

theorem seated_iff {s : State} {b : Slot} : s.seated b = true ↔ (s.blade b).state ≠ .absent := decide_eq_true_iff

/-! ### The target of a zone -/

/-- A tray of the zone is not OK, or a present blade of it has no fresh temperature, or the part is not ARMED: the zone is
driven in full (R157). -/
def State.fullDuty (s : State) (z : FanZone) : Prop :=
  s.plu.part ≠ .armed ∨ (∃ t, zoneOfTray t = z ∧ s.ftu.trays.get t ≠ .ok) ∨
    ∃ b, zoneOfSlot b = z ∧ (s.blade b).state ≠ .absent ∧ (s.ftu.temps.get b).fresh = false

theorem mem_zoneBlades {s : State} {z : FanZone} {b : Slot} :
    b ∈ s.zoneBlades z ↔ zoneOfSlot b = z ∧ (s.blade b).state ≠ .absent := by
  simp [State.zoneBlades, State.seated]

/-- The largest demand among some blades over a minimum. -/
def largestDemand (s : State) (blades : List Slot) (least : Nat) : Nat :=
  blades.foldl (fun acc b => max acc (s.ftu.temps.get b).demand) least

theorem targetDuty_of_fullDuty {s : State} {z : FanZone} (h : s.fullDuty z) : s.targetDuty z = 100 := by
  unfold State.targetDuty
  refine if_pos ?_
  rcases h with h | ⟨t, hz, ht⟩ | ⟨b, hz, hb, hf⟩
  · simp [State.armed, h]
  · have : (indices 6).any (fun t => decide (zoneOfTray t = z) && decide (s.ftu.trays.get t ≠ .ok)) = true :=
      List.any_eq_true.2 ⟨t, mem_indices t, by simp [hz, ht]⟩
    rw [this, Bool.or_true, Bool.true_or]
  · have : (s.zoneBlades z).any (fun b => !(s.ftu.temps.get b).fresh) = true :=
      List.any_eq_true.2 ⟨b, mem_zoneBlades.2 ⟨hz, hb⟩, by simp [hf]⟩
    rw [this, Bool.or_true]

theorem targetDuty_of_not_fullDuty {s : State} {z : FanZone} (h : ¬s.fullDuty z) :
    s.targetDuty z = largestDemand s (s.zoneBlades z) s.plu.inUse.minDuty := by
  unfold State.targetDuty
  refine if_neg fun hc => h ?_
  rw [Bool.or_eq_true, Bool.or_eq_true] at hc
  rcases hc with (hc | hc) | hc
  · exact .inl (by simpa [State.armed] using hc)
  · obtain ⟨t, -, ht⟩ := List.any_eq_true.1 hc
    exact .inr (.inl ⟨t, by simpa using ht⟩)
  · obtain ⟨b, hb, hf⟩ := List.any_eq_true.1 hc
    obtain ⟨hz, hs⟩ := mem_zoneBlades.1 hb
    exact .inr (.inr ⟨b, hz, hs, by simpa using hf⟩)

/-- The largest demand is the minimum or a blade's demand, and neither the minimum nor a demand lies above it. -/
theorem largestDemand_spec (s : State) : ∀ (l : List Slot) (m : Nat),
    m ≤ largestDemand s l m ∧ (∀ b ∈ l, (s.ftu.temps.get b).demand ≤ largestDemand s l m) ∧
      (largestDemand s l m = m ∨ ∃ b ∈ l, largestDemand s l m = (s.ftu.temps.get b).demand)
  | [], m => ⟨Nat.le_refl m, by simp, .inl rfl⟩
  | b :: l, m => by
    obtain ⟨hleast, hdemand, hfrom⟩ := largestDemand_spec s l (max m (s.ftu.temps.get b).demand)
    have hcons : largestDemand s (b :: l) m = largestDemand s l (max m (s.ftu.temps.get b).demand) := rfl
    rw [hcons]
    refine ⟨(Nat.le_max_left ..).trans hleast, fun c hc => ?_, ?_⟩
    · rcases List.mem_cons.1 hc with rfl | hc
      · exact (Nat.le_max_right ..).trans hleast
      · exact hdemand c hc
    · rcases hfrom with hfrom | ⟨c, hc, hfrom⟩
      · rcases max_choice m (s.ftu.temps.get b).demand with hm | hm
        · exact .inl (hfrom.trans hm)
        · exact .inr ⟨b, List.mem_cons_self, hfrom.trans hm⟩
      · exact .inr ⟨c, List.mem_cons_of_mem b hc, hfrom⟩

/-! ### The bounds behind the law -/

/-- The duties that a target or a demand can take stay within 100 percent: the demands of the blades, the minimum duty and the
breakpoints of the curve in use, and the driven duties (R156, R157, R171). -/
structure State.dutiesBounded (s : State) : Prop where
  demand : ∀ b, (s.ftu.temps.get b).demand ≤ 100
  minDuty : s.plu.inUse.minDuty ≤ 100
  curve : ∀ i, (s.plu.inUse.curve.get i).duty ≤ 100
  driven : ∀ z, (s.ftu.zones.get z).driven ≤ 100

/-- The duty law holds in both zones, and the duties it may take next are bounded. -/
structure State.dutySound (s : State) : Prop where
  law : ∀ z, s.dutyLaw z
  bounded : s.dutiesBounded

theorem State.dutiesBounded.congr {s t : State} (h : s.dutiesBounded) (temps : t.ftu.temps = s.ftu.temps)
    (zones : t.ftu.zones = s.ftu.zones) (inUse : t.plu.inUse = s.plu.inUse) : t.dutiesBounded :=
  ⟨by rw [temps]; exact h.demand, by rw [inUse]; exact h.minDuty, by rw [inUse]; exact h.curve, by rw [zones]; exact h.driven⟩

theorem State.dutiesBounded.of_view {s t : State} (h : s.dutiesBounded) (hv : t.dutyView = s.dutyView) : t.dutiesBounded :=
  h.congr (temps_of_dutyView hv) (zones_of_dutyView hv) (inUse_of_dutyView hv)

/-- The law and its bounds depend on the view alone. -/
theorem State.dutySound.of_view {s t : State} (h : s.dutySound) (hv : t.dutyView = s.dutyView) : t.dutySound := by
  refine ⟨fun z => ?_, h.bounded.of_view hv⟩
  unfold State.dutyLaw
  rw [zones_of_dutyView hv, targetDuty_of_dutyView hv]
  exact h.law z

/-- Tunables in range have the minimum duty from 20 to 100 percent (R157). -/
theorem minDuty_of_inRange {t : Tunables} (h : t.inRange = true) : 20 ≤ t.minDuty ∧ t.minDuty ≤ 100 := by
  simp only [Tunables.inRange, Bool.and_eq_true, decide_eq_true_iff] at h
  grind

/-- Tunables in range have every breakpoint's duty within 100 percent. -/
theorem curve_of_inRange {t : Tunables} (h : t.inRange = true) (i : Fin 4) : (t.curve.get i).duty ≤ 100 := by
  have hall : t.curve.toList.all (fun b => decide (-40 ≤ b.temp) && decide (b.temp ≤ 125) && decide (b.duty ≤ 100)) = true := by
    simp only [Tunables.inRange, Bool.and_eq_true] at h
    grind
  have hi := List.all_eq_true.1 hall (t.curve.get i) (by simp [Vector.get])
  simp only [Bool.and_eq_true, decide_eq_true_iff] at hi
  exact hi.2

theorem clampNat_le {lo hi : Nat} (h : lo ≤ hi) (v : Nat) : clampNat lo hi v ≤ hi := by
  unfold clampNat
  omega

/-- The curve that the policy block gives has every duty within 100 percent (R171). -/
theorem curve_ofCopy (m : Memory) (i : Fin 4) : ((Tunables.ofCopy m).curve.get i).duty ≤ 100 := by
  fin_cases i <;> exact clampNat_le (Nat.zero_le _) _

theorem minDuty_ofCopy (m : Memory) : (Tunables.ofCopy m).minDuty ≤ 100 := clampNat_le (by omega) _

/-- The part's bounded figures and the duty law give the bounds behind the law. -/
theorem dutySound_of_bounded {s : State} (h : s.bounded) (law : ∀ z, s.dutyLaw z) : s.dutySound := by
  obtain ⟨hrange, -, -, -, hdemand⟩ := h
  refine ⟨law, hdemand, (minDuty_of_inRange hrange).2, curve_of_inRange hrange, fun z => ?_⟩
  obtain ⟨-, -, hdriven⟩ := law z
  exact hdriven

/-- The largest of bounded demands over a bounded minimum is bounded. -/
theorem targetDuty_le {s : State} (h : s.dutiesBounded) (z : FanZone) : s.targetDuty z ≤ 100 := by
  by_cases hfull : s.fullDuty z
  · exact (targetDuty_of_fullDuty hfull).le
  · rw [targetDuty_of_not_fullDuty hfull]
    obtain ⟨-, -, hfrom | ⟨b, -, hfrom⟩⟩ := largestDemand_spec s (s.zoneBlades z) s.plu.inUse.minDuty
    · rw [hfrom]
      exact h.minDuty
    · rw [hfrom]
      exact h.demand b

/-- No target lies below the minimum duty (R157). -/
theorem minDuty_le_targetDuty {s : State} (h : s.plu.inUse.minDuty ≤ 100) (z : FanZone) :
    s.plu.inUse.minDuty ≤ s.targetDuty z := by
  by_cases hfull : s.fullDuty z
  · rw [targetDuty_of_fullDuty hfull]
    exact h
  · rw [targetDuty_of_not_fullDuty hfull]
    exact (largestDemand_spec s _ _).1

/-! ### The computation of the targets -/

/-- Computing the targets establishes the duty law in every state with bounded duties (R157, R158). -/
theorem dutySound_targetStep {w : Work} (h : w.st.dutiesBounded) : (targetStep w).st.dutySound := by
  have ht := targeted_targetStep w
  generalize (targetStep w).st = t at ht
  have hmem : ∀ z : FanZone, z ∈ [(0 : FanZone), 1] := by decide
  have hdriven : ∀ z, (t.ftu.zones.get z).driven ≤ 100 := fun z => by
    rw [(ht.zone z (hmem z)).2]
    exact max_le (h.driven z) (targetDuty_le h z)
  refine ⟨fun z => ?_, ?_, ?_, ?_, hdriven⟩
  · obtain ⟨htarget, hmax⟩ := ht.zone z (hmem z)
    refine ⟨htarget.trans (ht.targetDuty z).symm, ?_, hdriven z⟩
    rw [htarget, hmax]
    exact le_max_right _ _
  · rw [ht.rest]
    exact h.demand
  · rw [ht.rest]
    exact h.minDuty
  · rw [ht.rest]
    exact h.curve

/-- The fall of a window end leaves the target and takes the driven duty no lower than it (R158). -/
theorem FanZoneRec.fall_spec (x : FanZoneRec) (h : x.target ≤ x.driven) :
    x.fall.target = x.target ∧ x.target ≤ x.fall.driven ∧ x.fall.driven ≤ x.driven := by
  unfold FanZoneRec.fall
  dsimp only
  split <;> omega

/-- The duty law outlasts the fall of the driven duties at a window end (R158). -/
theorem dutySound_fall {s : State} (h : s.dutySound) :
    (s.setFtu { s.ftu with zones := s.ftu.zones.map FanZoneRec.fall }).dutySound := by
  have hzone : ∀ z : FanZone, (s.ftu.zones.map FanZoneRec.fall).get z = (s.ftu.zones.get z).fall :=
    fun z => Vector.getElem_map FanZoneRec.fall z.2
  have hlaw : ∀ z, (s.ftu.zones.get z).fall.target = s.targetDuty z ∧
      (s.ftu.zones.get z).fall.target ≤ (s.ftu.zones.get z).fall.driven ∧ (s.ftu.zones.get z).fall.driven ≤ 100 := fun z => by
    obtain ⟨htarget, hle, hdriven⟩ := h.law z
    obtain ⟨fallTarget, fallLe, fallDriven⟩ := (s.ftu.zones.get z).fall_spec hle
    exact ⟨fallTarget.trans htarget, fallTarget.trans_le fallLe, fallDriven.trans hdriven⟩
  refine ⟨fun z => ?_, h.bounded.demand, h.bounded.minDuty, h.bounded.curve, fun z => ?_⟩
  · unfold State.dutyLaw
    rw [State.setFtu_ftu, hzone]
    exact hlaw z
  · obtain ⟨-, -, hdriven⟩ := hlaw z
    rw [State.setFtu_ftu, hzone]
    exact hdriven

end Sys2Proof.Machine
end

section
/-! PROOFS. What leaves the duties of the fan zones alone: the view of the duty law under each operation that is no part of the
fan and thermal unit. The laws of settling (Laws/Settling) leave open what becomes of a blade that waits for power; here it stays
present. -/

namespace Sys2Proof.Machine

/-! ### Single changes -/

@[simp] theorem dutyView_setPins (s : State) (x) : (s.setPins x).dutyView = s.dutyView := rfl
@[simp] theorem dutyView_setTmc (s : State) (x) : (s.setTmc x).dutyView = s.dutyView := rfl
@[simp] theorem dutyView_setTbp (s : State) (x) : (s.setTbp x).dutyView = s.dutyView := rfl
@[simp] theorem dutyView_setSwq (s : State) (x) : (s.setSwq x).dutyView = s.dutyView := rfl
@[simp] theorem dutyView_setZiu (s : State) (x) : (s.setZiu x).dutyView = s.dutyView := rfl
@[simp] theorem dutyView_setLu (s : State) (x) : (s.setLu x).dutyView = s.dutyView := rfl
@[simp] theorem dutyView_setPbu (s : State) (x) : (s.setPbu x).dutyView = s.dutyView := rfl
@[simp] theorem dutyView_setEvu (s : State) (x) : (s.setEvu x).dutyView = s.dutyView := rfl
@[simp] theorem dutyView_setLink (s : State) (b x) : (s.setLink b x).dutyView = s.dutyView := rfl
@[simp] theorem dutyView_setPort (s : State) (p x) : (s.setPort p x).dutyView = s.dutyView := rfl
@[simp] theorem dutyView_setQueue (s : State) (b q) : (s.setQueue b q).dutyView = s.dutyView := rfl

/-- A change of the rotors alone. -/
theorem dutyView_setRotors (s : State) (x : Vector RotorRec 12) : (s.setFtu { s.ftu with rotors := x }).dutyView = s.dutyView := rfl

/-- A change of the PLU that keeps the tunables in use and does not arm or disarm the part. -/
theorem dutyView_setPlu {s : State} {x : Plu} (inUse : x.inUse = s.plu.inUse) (armed : decide (x.part = .armed) = s.armed) :
    (s.setPlu x).dutyView = s.dutyView := by
  unfold State.dutyView
  rw [State.setPlu_plu, inUse, ← armed]
  rfl

/-- A change of a blade's record that leaves it present or absent as it was. -/
theorem dutyView_setBlade {s : State} {b : Slot} {x : Blade} (h : decide (x.state ≠ .absent) = s.seated b) :
    (s.setBlade b x).dutyView = s.dutyView := by
  have hseated : (Vector.put s.pau.blades b x).map (fun x => decide (x.state ≠ .absent)) =
      s.pau.blades.map (fun x => decide (x.state ≠ .absent)) := by
    refine Vector.ext fun i hi => ?_
    rw [Vector.getElem_map, Vector.getElem_map]
    have hget := Vector.get_put s.pau.blades b ⟨i, hi⟩ x
    change (Vector.put s.pau.blades b x)[i] = _ at hget
    rw [hget]
    split
    · rename_i e
      subst e
      exact h
    · rfl
  unfold State.dutyView
  rw [State.setBlade_ftu, State.setBlade_plu]
  exact congrArg (DutyView.mk _ _ _ _ _) hseated

/-- A change of a blade's record that keeps its state. -/
theorem dutyView_setBlade_of_state {s : State} {b : Slot} {x : Blade} (h : x.state = (s.blade b).state) :
    (s.setBlade b x).dutyView = s.dutyView := dutyView_setBlade (by rw [h]; rfl)

/-- A present blade that stays present. -/
theorem dutyView_setBlade_of_present {s : State} {b : Slot} {x : Blade} (hs : s.seated b = true) (hx : x.state ≠ .absent) :
    (s.setBlade b x).dutyView = s.dutyView := dutyView_setBlade (by rw [hs]; exact decide_eq_true hx)

theorem Asked.dutyView {s t : State} (h : Asked s t) : t.dutyView = s.dutyView := by
  rw [h.rest]
  rfl

theorem Resynced.dutyView {s t : State} (h : Resynced s t) : t.dutyView = s.dutyView := by
  rw [h.rest]
  rfl

theorem Abandoned.dutyView {b : Slot} {s t : State} (h : Abandoned b s t) : t.dutyView = s.dutyView := by
  rw [h.rest]
  rfl

theorem Published.dutyView {s t : State} (h : Published s t) : t.dutyView = s.dutyView := dutyView_of_units h.ftu h.plu h.pau

@[simp] theorem dutyView_publish (o : State) (w : Work) : (publish o w).dutyView = w.st.dutyView := rfl

theorem dutyView_foldl {α : Type} (f : State → α → State) (hf : ∀ s a, (f s a).dutyView = s.dutyView) :
    ∀ (l : List α) (s : State), (l.foldl f s).dutyView = s.dutyView
  | [], _ => rfl
  | a :: l, s => (dutyView_foldl f hf l (f s a)).trans (hf s a)

/-- A fold of works each of which leaves the view. -/
theorem dutyView_foldlWork {α : Type} (f : Work → α → Work) (hf : ∀ w a, (f w a).st.dutyView = w.st.dutyView) :
    ∀ (l : List α) (w : Work), (l.foldl f w).st.dutyView = w.st.dutyView
  | [], _ => rfl
  | a :: l, w => (dutyView_foldlWork f hf l (f w a)).trans (hf w a)

/-! ### The transmitter and the ports -/

@[simp] theorem dutyView_pumpLink (s : State) (b) : (pumpLink s b).dutyView = s.dutyView := rfl

@[simp] theorem dutyView_handOrder (s : State) (b o) : (handOrder s b o).dutyView = s.dutyView := by
  unfold handOrder
  split <;> rfl

@[simp] theorem dutyView_orderPort (w : Work) (p a c) : (orderPort w p a c).st.dutyView = w.st.dutyView := dutyView_handOrder _ _ _

@[simp] theorem raisePort_st (w : Work) (p c v a) : (raisePort w p c v a).st = w.st := rfl

@[simp] theorem released_st (w : Work) (x : Port) : (released w x).st = w.st := by
  unfold released
  dsimp only
  split <;> split <;> rfl

@[simp] theorem dutyView_joinLicence (w : Work) (p u) : (joinLicence w p u).st.dutyView = w.st.dutyView := rfl

@[simp] theorem dutyView_leaveLicence (w : Work) (p) : (leaveLicence w p).st.dutyView = w.st.dutyView := by
  unfold leaveLicence
  dsimp only
  split <;> rfl

@[simp] theorem dutyView_joinPower (w : Work) (p) : (joinPower w p).st.dutyView = w.st.dutyView := rfl

@[simp] theorem dutyView_leavePower (w : Work) (p) : (leavePower w p).st.dutyView = w.st.dutyView := rfl

@[simp] theorem dutyView_reposition (w : Work) (p) : (reposition w p).st.dutyView = w.st.dutyView := by
  unfold reposition
  split <;> rfl

@[simp] theorem dutyView_leaveWait (w : Work) (p) : (leaveWait w p).st.dutyView = w.st.dutyView := by
  unfold leaveWait
  split <;> simp

@[simp] theorem dutyView_toOffline (w : Work) (p c) : (toOffline w p c).st.dutyView = w.st.dutyView := by
  unfold toOffline
  simp

@[simp] theorem dutyView_toShed (w : Work) (p c) : (toShed w p c).st.dutyView = w.st.dutyView := by
  unfold toShed
  dsimp only
  split <;> simp

@[simp] theorem dutyView_toGoingDown (w : Work) (p c) : (toGoingDown w p c).st.dutyView = w.st.dutyView := by
  unfold toGoingDown
  dsimp only
  split <;> simp

@[simp] theorem dutyView_toGoingUp (w : Work) (p c a) : (toGoingUp w p c a).st.dutyView = w.st.dutyView := by
  unfold toGoingUp
  simp

@[simp] theorem dutyView_refusePort (w : Work) (p c) : (refusePort w p c).st.dutyView = w.st.dutyView := by
  unfold refusePort
  dsimp only
  split <;> simp

@[simp] theorem dutyView_chargePort (w : Work) (p c) : (chargePort w p c).st.dutyView = w.st.dutyView := by
  unfold chargePort
  split <;> simp

@[simp] theorem dutyView_refuseXd (w : Work) (p) : (refuseXd w p).st.dutyView = w.st.dutyView := rfl

@[simp] theorem dutyView_decideAdmission (w : Work) (p c l q) : (decideAdmission w p c l q).st.dutyView = w.st.dutyView := by
  unfold decideAdmission
  split
  · split <;> simp
  · simp

@[simp] theorem dutyView_admitPort (w : Work) (p) : (admitPort w p).st.dutyView = w.st.dutyView := by
  unfold admitPort
  dsimp only
  split
  · rfl
  · split <;> simp

@[simp] theorem dutyView_completeMove (w : Work) (p l q) : (completeMove w p l q).st.dutyView = w.st.dutyView := by
  unfold completeMove
  split
  · rfl
  · split <;> simp

@[simp] theorem dutyView_applyReconfig (w : Work) (p o n) : (applyReconfig w p o n).st.dutyView = w.st.dutyView := by
  unfold applyReconfig
  dsimp only
  split <;> split <;> simp

@[simp] theorem dutyView_reconfigure (w : Work) (p o n) : (reconfigure w p o n).st.dutyView = w.st.dutyView := by
  unfold reconfigure
  dsimp only
  split
  · simp
  · split <;> simp

@[simp] theorem dutyView_evaluateOnline (w : Work) (p) : (evaluateOnline w p).st.dutyView = w.st.dutyView := by
  unfold evaluateOnline
  split
  · split <;> simp
  · rfl

@[simp] theorem dutyView_leavePort (w : Work) (p c) : (leavePort w p c).st.dutyView = w.st.dutyView := by
  unfold leavePort
  split <;> simp

@[simp] theorem dutyView_heatPort (w : Work) (p) : (heatPort w p).st.dutyView = w.st.dutyView := by
  unfold heatPort
  dsimp only
  split
  · simp
  · simp
  · split <;> simp
  · split <;> simp
  · rfl

@[simp] theorem dutyView_heatBlade (w : Work) (b) : (heatBlade w b).st.dutyView = w.st.dutyView :=
  dutyView_foldlWork _ dutyView_heatPort _ w

@[simp] theorem dutyView_restorePort (w : Work) (p) : (restorePort w p).st.dutyView = w.st.dutyView := by
  unfold restorePort
  split <;> simp

@[simp] theorem dutyView_disableDone (w : Work) (p a) : (disableDone w p a).st.dutyView = w.st.dutyView := by
  unfold disableDone
  dsimp only
  split
  · simp
  · split
    · simp
    · simp
    · split <;> simp
    · simp

@[simp] theorem dutyView_enableDone (w : Work) (p) : (enableDone w p).st.dutyView = w.st.dutyView := by
  unfold enableDone
  dsimp only
  split
  · simp
  · split <;> simp

@[simp] theorem dutyView_acknowledge (w : Work) (p a r) : (acknowledge w p a r).st.dutyView = w.st.dutyView := by
  unfold acknowledge
  split <;> simp

@[simp] theorem dutyView_evaluateOff (w : Work) (p) : (evaluateOff w p).st.dutyView = w.st.dutyView := by
  unfold evaluateOff
  split <;> simp

@[simp] theorem dutyView_evaluateOn (w : Work) (p c) : (evaluateOn w p c).st.dutyView = w.st.dutyView := by
  unfold evaluateOn
  dsimp only
  split
  · simp
  · split <;> simp
  · split <;> simp
  · rfl
  · simp
  · rfl
  · split <;> simp

@[simp] theorem dutyView_carryRequest (w : Work) (p on c) : (carryRequest w p on c).st.dutyView = w.st.dutyView := by
  unfold carryRequest
  dsimp only
  split
  · simp
  · split
    · split
      · simp
      · split <;> simp
    · split <;> simp

@[simp] theorem dutyView_requestOn (w : Work) (p c q n) : (requestOn w p c q n).st.dutyView = w.st.dutyView := by
  unfold requestOn
  simp

@[simp] theorem dutyView_requestOff (w : Work) (p n) : (requestOff w p n).st.dutyView = w.st.dutyView := by
  unfold requestOff
  simp

@[simp] theorem dutyView_requestInvalid (w : Work) (p n) : (requestInvalid w p n).st.dutyView = w.st.dutyView := by
  unfold requestInvalid
  simp

@[simp] theorem dutyView_outOfService (w : Work) (p) : (outOfService w p).st.dutyView = w.st.dutyView := by
  unfold outOfService
  split <;> simp

@[simp] theorem dutyView_bladeOutOfService (w : Work) (b) : (bladeOutOfService w b).st.dutyView = w.st.dutyView :=
  dutyView_foldlWork _ dutyView_outOfService _ w

@[simp] theorem dutyView_stopWaiting (w : Work) (p) : (stopWaiting w p).st.dutyView = w.st.dutyView := by
  unfold stopWaiting
  split <;> simp

@[simp] theorem dutyView_bladeStopsWaiting (w : Work) (b) : (bladeStopsWaiting w b).st.dutyView = w.st.dutyView :=
  dutyView_foldlWork _ dutyView_stopWaiting _ w

@[simp] theorem dutyView_reconcileBeyond (w : Work) (p) : (reconcileBeyond w p).st.dutyView = w.st.dutyView := by
  unfold reconcileBeyond
  dsimp only
  split <;> split <;> simp

@[simp] theorem dutyView_reconcileStep (w : Work) (p) : (reconcileStep w p).st.dutyView = w.st.dutyView := by
  unfold reconcileStep
  dsimp only
  split
  · simp
  · rfl
  · split
    · split <;> simp
    · split
      · simp
      · split <;> simp
  · split
    · split <;> simp
    · split
      · simp
      · split <;> simp
  · rfl

@[simp] theorem dutyView_reconcilePort (w : Work) (p) : (reconcilePort w p).st.dutyView = w.st.dutyView := by
  unfold reconcilePort
  dsimp only
  split
  · simp
  · split <;> simp

@[simp] theorem dutyView_reconcile (w : Work) (b) : (reconcile w b).st.dutyView = w.st.dutyView :=
  dutyView_foldlWork _ dutyView_reconcilePort _ w

/-! ### Grant rounds and tokens -/

@[simp] theorem dutyView_grantHead (w : Work) (b e) : (grantHead w b e).st.dutyView = w.st.dutyView := by
  unfold grantHead
  simp

@[simp] theorem dutyView_reserveStep (a : Work × Bool) (b) : (reserveStep a b).1.st.dutyView = a.1.st.dutyView := by
  unfold reserveStep
  split
  · split <;> simp
  · rfl

@[simp] theorem dutyView_reservePass (w : Work) : (reservePass w).1.st.dutyView = w.st.dutyView := by
  have hfold : ∀ (l : List Slot) (a : Work × Bool), (l.foldl reserveStep a).1.st.dutyView = a.1.st.dutyView := by
    intro l
    induction l with
    | nil => exact fun _ => rfl
    | cons b l ih => exact fun a => (ih _).trans (dutyView_reserveStep a b)
  unfold reservePass
  rw [hfold]

@[simp] theorem dutyView_roundFrom : ∀ (n : Nat) (w : Work), (roundFrom n w).st.dutyView = w.st.dutyView
  | 0, _ => rfl
  | n + 1, w => by
    unfold roundFrom
    dsimp only
    split
    · rw [dutyView_roundFrom n, dutyView_reservePass]
    · split
      · rfl
      · have hcount : ∀ c, (w.map fun s => s.setLu { s.lu with counters := c }).st.dutyView = w.st.dutyView := fun _ => rfl
        split
        · rw [dutyView_roundFrom n, dutyView_grantHead, hcount]
        · exact hcount _

@[simp] theorem dutyView_grantRound (w : Work) : (grantRound w).st.dutyView = w.st.dutyView := by
  have hround := dutyView_roundFrom (w.st.queued + 1) w
  unfold grantRound
  generalize roundFrom (w.st.queued + 1) w = r at hround ⊢
  exact hround

@[simp] theorem dutyView_grantIfDue (w : Work) : (grantIfDue w).st.dutyView = w.st.dutyView := by
  unfold grantIfDue
  split <;> simp

@[simp] theorem dutyView_setSlot (w : Work) (k x) : (setSlot w k x).st.dutyView = w.st.dutyView := rfl

@[simp] theorem dutyView_tokenDone (w : Work) (k r d) : (tokenDone w k r d).st.dutyView = w.st.dutyView := rfl

@[simp] theorem grantOnRise_st (n : Nat) (w : Work) : (grantOnRise n w).st = w.st := by
  unfold grantOnRise
  split <;> rfl

@[simp] theorem dutyView_entitle (w : Work) (f n) : (entitle w f n).st.dutyView = w.st.dutyView := rfl

@[simp] theorem dutyView_actOnToken (w : Work) (k t) : (actOnToken w k t).st.dutyView = w.st.dutyView := by
  unfold actOnToken
  dsimp only
  split <;> simp

@[simp] theorem dutyView_programDone (w : Work) (p v) : (programDone w p v).st.dutyView = w.st.dutyView := by
  unfold programDone
  dsimp only
  split <;> simp

/-! ### The budget -/

@[simp] theorem raiseBudget_st (w : Work) (o n) : (raiseBudget w o n).st = w.st := rfl

@[simp] theorem dutyView_setCritical (w : Work) (c) : (setCritical w c).st.dutyView = w.st.dutyView := by
  unfold setCritical
  split <;> simp

@[simp] theorem dutyView_selectShed (a : Nat) : ∀ (l : List (PortRef × Port)) (m n : Nat) (w : Work),
    (selectShed a l m n w).1.st.dutyView = w.st.dutyView
  | [], _, _, _ => rfl
  | (p, x) :: l, m, n, w => by
    unfold selectShed
    split
    · rfl
    · rw [dutyView_selectShed a l, dutyView_leavePort]

@[simp] theorem dutyView_shedSelection (r) (w : Work) : (shedSelection r w).st.dutyView = w.st.dutyView := by
  unfold shedSelection
  dsimp only
  split <;> simp

/-- A choice between two works leaves the view when both do. -/
theorem dutyView_ite {v : DutyView} {c : Prop} [Decidable c] {a b : Work} (ha : a.st.dutyView = v) (hb : b.st.dutyView = v) :
    (if c then a else b).st.dutyView = v := by
  split
  · exact ha
  · exact hb

@[simp] theorem dutyView_computeBudget (r e) (w : Work) : (computeBudget r e w).st.dutyView = w.st.dutyView := by
  have hfigures : (w.setPbu (computeFigures w.st)).st.dutyView = w.st.dutyView := rfl
  have hended := dutyView_ite (c := e = true) (a := raiseBudget (w.setPbu (computeFigures w.st)) .holdEnded 0) hfigures hfigures
  unfold computeBudget
  dsimp only
  refine dutyView_ite ?_ ?_
  · rw [dutyView_shedSelection]
    exact dutyView_ite hended hended
  · rw [dutyView_setCritical]
    exact dutyView_ite hended hended

@[simp] theorem dutyView_budgetStep (r) (w : Work) : (budgetStep r w).st.dutyView = w.st.dutyView := by
  unfold budgetStep
  split <;> simp

/-! ### The blades -/

/-- A blade's move leaves the view when it leaves the blade present or absent as it was. -/
theorem dutyView_moveBlade {w : Work} {b : Slot} {x : Blade} (h : decide (x.state ≠ .absent) = w.st.seated b) :
    (moveBlade w b x).st.dutyView = w.st.dutyView := by
  rw [moveBlade_st]
  exact dutyView_setBlade h

/-- A present blade moves to another state in which it is present. -/
theorem dutyView_moveBlade_of_present {w : Work} {b : Slot} {x : Blade} (hs : w.st.seated b = true) (hx : x.state ≠ .absent) :
    (moveBlade w b x).st.dutyView = w.st.dutyView := dutyView_moveBlade (by rw [hs]; exact decide_eq_true hx)

@[simp] theorem dutyView_startLink (s : State) (b) : (startLink s b).dutyView = s.dutyView := by
  unfold startLink
  dsimp only
  split <;> rfl

@[simp] theorem dutyView_abandonLink (w : Work) (b) : (abandonLink w b).st.dutyView = w.st.dutyView := (abandonLink_abandoned w b).dutyView

@[simp] theorem dutyView_stopLink (w : Work) (b) : (stopLink w b).st.dutyView = w.st.dutyView := by
  unfold stopLink
  split <;> simp

@[simp] theorem releaseBase_st (w : Work) (n) : (releaseBase w n).st = w.st := by
  unfold releaseBase
  split <;> rfl

theorem dutyView_powerBlade {w : Work} {b : Slot} (hs : w.st.seated b = true) : (powerBlade w b).st.dutyView = w.st.dutyView := by
  unfold powerBlade
  rw [Work.map_st, dutyView_startLink]
  exact dutyView_moveBlade_of_present hs (by simp)

theorem dutyView_bladePowerCheck {w : Work} {b : Slot} (hs : w.st.seated b = true) :
    (bladePowerCheck w b).st.dutyView = w.st.dutyView := by
  unfold bladePowerCheck
  split
  · exact dutyView_powerBlade hs
  · exact dutyView_moveBlade_of_present hs (by simp)

theorem dutyView_faultBlade {w : Work} {b : Slot} (c : BladeCause) (hs : w.st.seated b = true) :
    (faultBlade w b c).st.dutyView = w.st.dutyView := by
  have hstop : (stopLink (w.setBlade b { w.st.blade b with powerEn := false }) b).st.dutyView = w.st.dutyView := by
    rw [dutyView_stopLink, Work.setBlade_st]
    exact dutyView_setBlade_of_state rfl
  unfold faultBlade
  dsimp only
  rw [dutyView_bladeOutOfService, releaseBase_st,
    dutyView_moveBlade_of_present ((seated_of_dutyView hstop b).trans hs) (by simp), hstop]

theorem dutyView_bladeLost {w : Work} {b : Slot} (c : BladeCause) (hs : w.st.seated b = true) :
    (bladeLost w b c).st.dutyView = w.st.dutyView := by
  unfold bladeLost
  rw [dutyView_bladeStopsWaiting]
  exact dutyView_moveBlade_of_present hs (by simp)

/-- The loss of a present blade's link leaves the blade present, LOST or FAULTED. -/
theorem dutyView_loseLink {w : Work} {b : Slot} (c : BladeCause) (hs : w.st.seated b = true) :
    (loseLink w b c).st.dutyView = w.st.dutyView := by
  have hlink : ((abandonLink w b).map (fun s => s.setLink b ((s.link b).lose s.now))).st.dutyView = w.st.dutyView := by simp
  have hseated := (seated_of_dutyView hlink b).trans hs
  unfold loseLink
  dsimp only
  split
  · exact (dutyView_faultBlade _ hseated).trans hlink
  · exact (dutyView_bladeLost _ hseated).trans hlink

/-- The loss of the links of some present blades. -/
theorem dutyView_loseLinks (c : BladeCause) : ∀ (l : List Slot) (w : Work), (∀ b ∈ l, w.st.seated b = true) →
    (l.foldl (fun w b => loseLink w b c) w).st.dutyView = w.st.dutyView
  | [], _, _ => rfl
  | b :: l, w, hl => by
    have hb := dutyView_loseLink c (hl b List.mem_cons_self)
    rw [List.foldl_cons, dutyView_loseLinks c l _ fun d hd => (seated_of_dutyView hb d).trans (hl d (List.mem_cons_of_mem b hd)), hb]

theorem dutyView_bladeUp {w : Work} {b : Slot} (n base : Nat) (hs : w.st.seated b = true) :
    (bladeUp w b n base).st.dutyView = w.st.dutyView := by
  have hmove : (moveBlade w b { w.st.blade b with
      state := .up, portCount := some n, cause := .none, base := clampNat 0 8000 base }).st.dutyView = w.st.dutyView :=
    dutyView_moveBlade_of_present hs (by simp)
  unfold bladeUp
  dsimp only
  split <;> exact hmove

/-- A settled blade that passes to the power check is present. -/
@[simp] theorem dutyView_releaseSettled (w : Work) (b) : (releaseSettled w b).st.dutyView = w.st.dutyView := by
  unfold releaseSettled
  dsimp only
  split
  · rename_i h
    exact dutyView_bladePowerCheck (seated_iff.2 (by simp [h.1]))
  · rfl

/-! ### The restore process and settling -/

theorem dutyView_restoreBlades : ∀ (l : List Slot) (w : Work), (∀ b ∈ l, w.st.seated b = true) →
    (restoreBlades l w).1.st.dutyView = w.st.dutyView
  | [], _, _ => rfl
  | b :: l, w, hl => by
    unfold restoreBlades
    split
    · have hb := dutyView_powerBlade (hl b List.mem_cons_self)
      rw [dutyView_restoreBlades l _ fun d hd => (seated_of_dutyView hb d).trans (hl d (List.mem_cons_of_mem b hd)), hb]
    · rfl

@[simp] theorem dutyView_restoreShed : ∀ (l : List PortRef) (w : Work), (restoreShed l w).1.st.dutyView = w.st.dutyView
  | [], _ => rfl
  | p :: l, w => by
    unfold restoreShed
    dsimp only
    split
    all_goals
      split
      · rw [dutyView_restoreShed l, dutyView_restorePort]
      · rfl

@[simp] theorem dutyView_restoreWaiting : ∀ (l : List PowerWait) (w : Work), (restoreWaiting l w).st.dutyView = w.st.dutyView
  | [], _ => rfl
  | e :: l, w => by
    unfold restoreWaiting
    dsimp only
    split
    · exact dutyView_restoreWaiting l w
    · refine dutyView_ite ?_ rfl
      rw [dutyView_restoreWaiting l, dutyView_completeMove, dutyView_leavePower]

/-- The restore process powers blades that wait for power, which are present. -/
@[simp] theorem dutyView_restoreProcess (w : Work) : (restoreProcess w).st.dutyView = w.st.dutyView := by
  have hwait : (restoreBlades w.st.bladeWait w).1.st.dutyView = w.st.dutyView := by
    refine dutyView_restoreBlades _ w fun b hb => seated_iff.2 ?_
    have hstate : (w.st.blade b).state = .waitPower := by simpa [State.bladeWait] using hb
    simp [hstate]
  unfold restoreProcess
  dsimp only
  split
  · split <;> simp [hwait]
  · exact hwait

@[simp] theorem dutyView_restoreIfDue (w : Work) : (restoreIfDue w).st.dutyView = w.st.dutyView := by
  unfold restoreIfDue
  split
  · show (restoreDueNow w).st.dutyView = w.st.dutyView
    unfold restoreDueNow
    split
    · rfl
    · split <;> simp
  · rfl

/-- Settling keeps every present blade present, and touches no other figure of the duty law. -/
@[simp] theorem dutyView_settle (w : Work) : (settle w).st.dutyView = w.st.dutyView := by
  unfold settle
  simp

end Sys2Proof.Machine
end

section
/-! PROOFS. What leaves the duties of the fan zones alone, continued: the table memory path, the zone images, the blade links and
the units behind the table bus, under the view of the duty law. -/

namespace Sys2Proof.Machine

/-! ### Table memory -/

@[simp] theorem dutyView_tmcRest (s : State) : (tmcRest s).dutyView = s.dutyView := rfl

@[simp] theorem dutyView_clearChannel (s : State) : (clearChannel s).dutyView = s.dutyView := rfl

@[simp] theorem dutyView_present (s : State) (a) : (present s a).dutyView = s.dutyView := (asked_present s a).dutyView

@[simp] theorem dutyView_presentAll (s : State) (l) : (presentAll s l).dutyView = s.dutyView := (asked_presentAll s l).dutyView

@[simp] theorem dutyView_swqIssue (s : State) : (swqIssue s).dutyView = s.dutyView := (asked_swqIssue s).dutyView

@[simp] theorem dutyView_resumePresentations (s : State) : (resumePresentations s).dutyView = s.dutyView :=
  (asked_resumePresentations s).dutyView

@[simp] theorem dutyView_scrubRead (s : State) (l) : (scrubRead s l).dutyView = s.dutyView := by
  unfold scrubRead
  split
  · split <;> rfl
  · rfl

@[simp] theorem dutyView_lineRead (s : State) (l f) : (lineRead s l f).st.dutyView = s.dutyView := by
  unfold lineRead
  dsimp only
  split <;> simp

@[simp] theorem dutyView_patrolRead (s : State) (l f) : (patrolRead s l f).st.dutyView = s.dutyView := by
  unfold patrolRead
  dsimp only
  split <;> simp

@[simp] theorem dutyView_deferredRead (s : State) (l f) : (deferredRead s l f).st.dutyView = s.dutyView := rfl

@[simp] theorem dutyView_lineWrite (s : State) (l b f) : (lineWrite s l b f).dutyView = s.dutyView := rfl

@[simp] theorem dutyView_mergeWrite (s : State) (l v b f) : (mergeWrite s l v b f).1.dutyView = s.dutyView := by
  unfold mergeWrite
  dsimp only
  split <;> simp

@[simp] theorem dutyView_copyLine (s : State) (l v f) : (copyLine s l v f).1.dutyView = s.dutyView := by
  unfold copyLine
  dsimp only
  split <;> simp

/-- An access that is carried out changes table memory, its fetch or its job. -/
@[simp] theorem dutyView_carryOut (s : State) (a f) : (carryOut s a f).st.dutyView = s.dutyView := by
  unfold carryOut
  split
  · dsimp only
    split <;> simp
  · simp
  · simp
  · split
    · rfl
    · dsimp only
      split <;> simp
  · split <;> rfl
  · simp
  · simp
  · simp
  · rfl
  · simp

@[simp] theorem dutyView_grantAccess (s : State) (a f) : (grantAccess s a f).dutyView = s.dutyView := by
  unfold grantAccess
  simp

theorem dutyView_grantOnce {s t : State} {f : List BitFlip} (h : grantOnce s f = some t) : t.dutyView = s.dutyView := by
  unfold grantOnce at h
  split at h
  · obtain rfl := Option.some.inj h
    split <;> rfl
  · split at h
    · obtain rfl := Option.some.inj h
      rfl
    · dsimp only at h
      split at h
      · obtain rfl := Option.some.inj h
        rfl
      · split at h
        · obtain rfl := Option.some.inj h
          simp
        · cases h
      · obtain rfl := Option.some.inj h
        rfl

@[simp] theorem dutyView_patrolTick (s : State) : (patrolTick s).dutyView = s.dutyView := by
  unfold patrolTick
  dsimp only
  split <;> simp

@[simp] theorem reportCounter_st (k c) (w : Work) : (reportCounter k c w).st = w.st := by
  unfold reportCounter
  split <;> rfl

/-! ### The status write queue -/

@[simp] theorem dutyView_askDrainEvu (s : State) (v) : (askDrainEvu s v).dutyView = s.dutyView := by
  unfold askDrainEvu
  split <;> rfl

@[simp] theorem dutyView_askDrainPlu (s : State) : (askDrainPlu s).dutyView = s.dutyView := by
  unfold askDrainPlu
  split <;> rfl

@[simp] theorem dutyView_giveDrains (s : State) : (giveDrains s).dutyView = s.dutyView := by
  have hfill : ∀ (c : Bool) (s : State), (if c then s.setPlu { s.plu with fill := .drained } else s).dutyView = s.dutyView := by
    intro c s
    split <;> rfl
  unfold giveDrains
  dsimp only
  rw [hfill]
  split
  · split <;> rfl
  · rfl

@[simp] theorem dutyView_releaseEvents (u l) (s : State) : (releaseEvents u l s).dutyView = s.dutyView :=
  (published_releaseEvents u l s).dutyView

@[simp] theorem dutyView_afterTaken (s : State) (i u l) : (afterTaken s i u l).dutyView = s.dutyView := by
  unfold afterTaken
  split
  · dsimp only
    split <;> simp
  · split <;> simp
  · simp

@[simp] theorem dutyView_placeGrant (s : State) : (placeGrant s).dutyView = s.dutyView := by
  unfold placeGrant
  split
  · rfl
  · split
    · split
      · simp
      · split <;> simp
    · simp

@[simp] theorem dutyView_askRecordDrain (s : State) : (askRecordDrain s).dutyView = s.dutyView := by
  unfold askRecordDrain
  split
  · split <;> simp
  · rfl

/-! ### The table bus -/

@[simp] theorem dutyView_setTag (s : State) (t x) : (s.setTag t x).dutyView = s.dutyView := rfl

@[simp] theorem dutyView_acceptTag (s : State) (t v a l) : (acceptTag s t v a l).dutyView = s.dutyView := rfl

@[simp] theorem dutyView_respond (s : State) (t v d) : (respond s t v d).dutyView = s.dutyView := rfl

@[simp] theorem dutyView_startRead (s : State) (t l) : (startRead s t l).dutyView = s.dutyView := by
  unfold startRead
  simp

@[simp] theorem dutyView_takeRead (s : State) (t a) : (takeRead s t a).dutyView = s.dutyView := by
  unfold takeRead
  dsimp only
  split <;> simp

@[simp] theorem dutyView_releaseReads (s : State) : (releaseReads s).dutyView = s.dutyView :=
  dutyView_foldl _ (fun s (r : HeldRead) => dutyView_startRead s r.tag r.lines) _ _

@[simp] theorem dutyView_entryGone (s : State) (i) : (entryGone s i).dutyView = s.dutyView := dutyView_releaseReads _

@[simp] theorem dutyView_entryComplete (s : State) : (entryComplete s).dutyView = s.dutyView := by
  unfold entryComplete
  dsimp only
  split <;> simp

@[simp] theorem dutyView_readRequest (w : Work) (t a l) : (readRequest w t a l).st.dutyView = w.st.dutyView := by
  unfold readRequest
  dsimp only
  split
  · rfl
  · split
    · rfl
    · split <;> simp

@[simp] theorem dutyView_answerJob (s : State) (j v d) : (answerJob s j v d).dutyView = s.dutyView := by
  unfold answerJob
  split <;> rfl

@[simp] theorem dutyView_retireJob (s : State) (j) : (retireJob s j).dutyView = s.dutyView := rfl

@[simp] theorem dutyView_readDone (w : Work) (j) : (readDone w j).st.dutyView = w.st.dutyView := by
  unfold readDone
  simp

@[simp] theorem dutyView_writeDone (w : Work) (j) : (writeDone w j).st.dutyView = w.st.dutyView := by
  unfold writeDone
  dsimp only
  refine (dutyView_foldlWork _ ?_ _ _).trans ?_
  · exact fun _ _ => rfl
  · simp

/-! ### The zone images -/

@[simp] theorem dutyView_zoneResult (w : Work) (r d n) : (zoneResult w r d n).st.dutyView = w.st.dutyView :=
  (resynced_zoneResult w r d n).dutyView

@[simp] theorem dutyView_resyncAdvance (w : Work) : (resyncAdvance w).st.dutyView = w.st.dutyView := (resynced_advance w).dutyView

@[simp] theorem dutyView_startResync (w : Work) : (startResync w).st.dutyView = w.st.dutyView := (resynced_start w).dutyView

@[simp] theorem dutyView_testAwait (w : Work) : (testAwait w).st.dutyView = w.st.dutyView := (resynced_testAwait w).dutyView

@[simp] theorem dutyView_leaveAckSet (w : Work) (b) : (leaveAckSet w b).st.dutyView = w.st.dutyView := (resynced_leaveAckSet w b).dutyView

@[simp] theorem dutyView_dropInFlight (w : Work) (b) : (dropInFlight w b).st.dutyView = w.st.dutyView :=
  (resynced_dropInFlight w b).dutyView

@[simp] theorem dutyView_endValidation (w : Work) : (endValidation w).st.dutyView = w.st.dutyView := rfl

@[simp] theorem dutyView_validationFails (w : Work) (r d) : (validationFails w r d).st.dutyView = w.st.dutyView := by
  unfold validationFails
  simp

@[simp] theorem dutyView_flip (w : Work) (z m) : (flip w z m).st.dutyView = w.st.dutyView := by
  unfold Sys2Proof.Machine.flip
  dsimp only
  rw [dutyView_testAwait]
  refine (dutyView_foldl _ ?_ _ _).trans rfl
  exact fun _ _ => rfl

@[simp] theorem dutyView_presentValidator (w : Work) (r l) : (presentValidator w r l).st.dutyView = w.st.dutyView := by
  unfold presentValidator
  split <;> simp

@[simp] theorem dutyView_validateRange (w : Work) (v i) : (validateRange w v i).st.dutyView = w.st.dutyView := by
  unfold validateRange
  dsimp only
  split <;> simp

@[simp] theorem dutyView_validatorAdvance (w : Work) (v b) : (validatorAdvance w v b).st.dutyView = w.st.dutyView := by
  unfold validatorAdvance
  split
  · dsimp only
    split
    · simp
    · split <;> simp
  · split
    · simp
    · split
      · simp
      · split <;> simp

@[simp] theorem dutyView_validatorDelivers (w : Work) (r p) : (validatorDelivers w r p).st.dutyView = w.st.dutyView := by
  unfold validatorDelivers
  dsimp only
  split
  · split
    · rfl
    · split <;> simp
  · rfl

@[simp] theorem dutyView_commitCommand (w : Work) (d n) : (commitCommand w d n).st.dutyView = w.st.dutyView := by
  unfold commitCommand acceptCommit
  dsimp only
  split
  · simp
  · split
    · simp
    · split
      · simp
      · split <;> simp

@[simp] theorem dutyView_abortNow (w : Work) (n) : (abortNow w n).st.dutyView = w.st.dutyView := by
  unfold abortNow
  dsimp only
  split <;> simp

@[simp] theorem dutyView_abortCommand (w : Work) (n) : (abortCommand w n).st.dutyView = w.st.dutyView := by
  unfold abortCommand
  split <;> simp

/-! ### The blade links -/

@[simp] theorem dutyView_linkError (w : Work) (b) : (linkError w b).st.dutyView = w.st.dutyView := by
  unfold linkError
  split
  · rfl
  · exact dutyView_setBlade_of_state rfl

@[simp] theorem dutyView_linkFault (w : Work) (b r y t) : (linkFault w b r y t).st.dutyView = w.st.dutyView := dutyView_linkError w b

@[simp] theorem dutyView_keepAlive (w : Work) (b) : (keepAlive w b).st.dutyView = w.st.dutyView := by
  unfold keepAlive
  dsimp only
  split <;> rfl

@[simp] theorem dutyView_queueData (s : State) (b d) : (queueData s b d).dutyView = s.dutyView := rfl

@[simp] theorem dutyView_fetchOnFreeTag (s : State) (b t n c) : (fetchOnFreeTag s b t n c).dutyView = s.dutyView := by
  unfold fetchOnFreeTag
  split
  · rfl
  · unfold bindFetch
    dsimp only
    split
    · rw [dutyView_presentAll]
      rfl
    · rfl

@[simp] theorem dutyView_fetchTaken (w : Work) (b t n c) : (fetchTaken w b t n c).st.dutyView = w.st.dutyView := by
  unfold fetchTaken
  dsimp only
  split
  · split <;> simp
  · split <;> simp

@[simp] theorem dutyView_fetchDone (w : Work) (b t) : (fetchDone w b t).st.dutyView = w.st.dutyView := by
  unfold fetchDone
  split
  · rfl
  · split <;> simp

@[simp] theorem dutyView_noteOptic (w : Work) (p c) : (noteOptic w p c).st.dutyView = w.st.dutyView := by
  unfold noteOptic
  dsimp only
  split <;> rfl

@[simp] theorem dutyView_orderAnswered (w : Work) (b t o r) : (orderAnswered w b t o r).st.dutyView = w.st.dutyView := by
  unfold orderAnswered
  simp

@[simp] theorem dutyView_discardMessage (b raw f) (w : Work) : (discardMessage b raw f w).st.dutyView = w.st.dutyView := by
  unfold discardMessage
  split <;> simp

theorem dutyView_helloAccepted {w : Work} {b : Slot} (n base : Nat) (hs : w.st.seated b = true) :
    (helloAccepted w b n base).st.dutyView = w.st.dutyView := by
  unfold helloAccepted
  dsimp only
  rw [dutyView_settle, dutyView_reconcile, dutyView_budgetStep]
  refine (dutyView_bladeUp _ _ ?_).trans rfl
  exact hs

/-! ### Tokens and power supplies -/

@[simp] theorem dutyView_startCheck (s : State) (k l) : (startCheck s k l).dutyView = s.dutyView := by
  unfold startCheck
  dsimp only
  split
  · rw [dutyView_present]
    rfl
  · rfl

@[simp] theorem dutyView_submitToken (w : Work) (k n) : (submitToken w k n).st.dutyView = w.st.dutyView := by
  unfold submitToken
  dsimp only
  split <;> rfl

@[simp] theorem dutyView_tokenRead (w : Work) (k p) : (tokenRead w k p).st.dutyView = w.st.dutyView := by
  unfold tokenRead
  dsimp only
  split
  · rfl
  · split <;> simp

@[simp] theorem dutyView_tbpHold (s : State) : (tbpHold s).dutyView = s.dutyView := by
  unfold tbpHold
  refine (dutyView_foldl _ ?_ _ _).trans rfl
  exact fun _ _ => rfl

@[simp] theorem dutyView_tmcHold (s : State) : (tmcHold s).dutyView = s.dutyView := by
  unfold tmcHold
  split <;> rfl

@[simp] theorem dutyView_tmcHoldEnd (s : State) : (tmcHoldEnd s).dutyView = s.dutyView := by
  unfold tmcHoldEnd
  simp

@[simp] theorem dutyView_endHold (w : Work) : (endHold w).st.dutyView = w.st.dutyView := by
  unfold endHold
  dsimp only
  split
  · simp
  · split <;> simp

@[simp] theorem dutyView_afterPsu (w : Work) : (afterPsu w).st.dutyView = w.st.dutyView := by
  unfold afterPsu declareHold
  dsimp only
  split
  · simp
  · split <;> simp

@[simp] theorem dutyView_setPsu (w : Work) (i x) : (setPsu w i x).st.dutyView = w.st.dutyView := rfl

@[simp] theorem dutyView_movePsu (w : Work) (i x v) : (movePsu w i x v).st.dutyView = w.st.dutyView := by
  unfold movePsu
  dsimp only
  split <;> split <;> rfl

@[simp] theorem dutyView_psuEdge (w : Work) (i e) : (psuEdge w i e).st.dutyView = w.st.dutyView := by
  unfold psuEdge
  dsimp only
  split <;> simp

/-! ### The policy unit -/

@[simp] theorem dutyView_armResult (w : Work) (r d n) : (armResult w r d n).st.dutyView = w.st.dutyView := rfl

/-- An ARM taken outside ARMED leaves the part outside ARMED (R168). -/
theorem dutyView_beginArming {w : Work} (n : Nat) (h : w.st.plu.part ≠ .armed) : (beginArming w n).st.dutyView = w.st.dutyView := by
  have harmed : w.st.armed = false := decide_eq_false h
  unfold beginArming
  dsimp only
  split
  · rw [dutyView_armResult]
    exact dutyView_setPlu rfl (by rw [harmed]; rfl)
  · rw [Work.rewrite_st, dutyView_armResult]
    exact dutyView_setPlu rfl (by rw [harmed]; rfl)

@[simp] theorem dutyView_armCommand (w : Work) (n) : (armCommand w n).st.dutyView = w.st.dutyView := by
  unfold armCommand
  split
  · rename_i h
    exact dutyView_beginArming n (by simp [h])
  · rename_i h
    exact dutyView_beginArming n (by simp [h])
  · rfl
  · rfl

@[simp] theorem dutyView_coalesceChanged (o n) (w : Work) : (coalesceChanged o n w).st.dutyView = w.st.dutyView := by
  unfold coalesceChanged
  dsimp only
  split <;> rfl

end Sys2Proof.Machine
end

section
/-! PROOFS. What changes the duties of the fan zones: the operations of the fan and thermal unit, which keep the duties bounded
until the targets are computed, the tunables, and the commands, each of which keeps the duty law (R157). -/

namespace Sys2Proof.Machine

/-! ### The fan and thermal unit -/

/-- A fold of works each of which leaves the state. -/
theorem foldlWork_st {α : Type} (f : Work → α → Work) (hf : ∀ w a, (f w a).st = w.st) : ∀ (l : List α) (w : Work), (l.foldl f w).st = w.st
  | [], _ => rfl
  | a :: l, w => (foldlWork_st f hf l (f w a)).trans (hf w a)

/-- An operation that keeps the bounds keeps them over a list. -/
theorem dutiesBounded_foldl {α : Type} (f : Work → α → Work) (hf : ∀ w a, w.st.dutiesBounded → (f w a).st.dutiesBounded) :
    ∀ (l : List α) (w : Work), w.st.dutiesBounded → (l.foldl f w).st.dutiesBounded
  | [], _, h => h
  | a :: l, w, h => dutiesBounded_foldl f hf l (f w a) (hf w a h)

theorem dutiesBounded_setRotor {w : Work} (h : w.st.dutiesBounded) (r x) : (setRotor w r x).st.dutiesBounded := h.congr rfl rfl rfl

/-- The consequences of changed rotors are trays, L, f and events; demands, tunables and duties stay (R150 to R152). -/
theorem dutiesBounded_fanConsequences {w : Work} (h : w.st.dutiesBounded) (before) : (fanConsequences w before).st.dutiesBounded := by
  have hderived : (w.setFtu (w.st.ftu.derived w.st.plu.inUse)).st.dutiesBounded := h.congr rfl rfl rfl
  unfold fanConsequences
  dsimp only
  refine State.dutiesBounded.of_view ?_ (dutyView_setPbu _ _)
  rw [foldlWork_st, foldlWork_st]
  · exact hderived
  · intro w r
    split <;> rfl
  · intro w t
    split <;> rfl

/-- A blade's thermal record is replaced by one with a bounded demand. -/
theorem dutiesBounded_setTemp {w : Work} (h : w.st.dutiesBounded) (b : Slot) {x : BladeTemp} (hx : x.demand ≤ 100) :
    (setTemp w b x).st.dutiesBounded := by
  refine ⟨fun c => ?_, h.minDuty, h.curve, h.driven⟩
  show ((Vector.put w.st.ftu.temps b x).get c).demand ≤ 100
  rw [Vector.get_put]
  split
  · exact hx
  · exact h.demand c

/-- The demand is a duty of the curve, or 0 (R156). -/
theorem demandOf_le {curve : Vector Breakpoint 4} (h : ∀ i, (curve.get i).duty ≤ 100) (latches : Vector Bool 4) :
    demandOf curve latches ≤ 100 := by
  have hfold : ∀ (l : List (Fin 4)) (n : Nat), n ≤ 100 →
      l.foldl (fun acc i => if latches.get i then max acc (curve.get i).duty else acc) n ≤ 100 := by
    intro l
    induction l with
    | nil => exact fun _ hn => hn
    | cons i l ih =>
      refine fun n hn => ih _ ?_
      dsimp only
      split
      · exact max_le hn (h i)
      · exact hn
  exact hfold (indices 4) 0 (Nat.zero_le _)

theorem demand_compute_le {t : Tunables} (h : ∀ i, (t.curve.get i).duty ≤ 100) (x : BladeTemp) : (x.compute t).demand ≤ 100 :=
  demandOf_le h _

theorem dutiesBounded_thermalStep {w : Work} (h : w.st.dutiesBounded) (b : Slot) : (thermalStep w b).st.dutiesBounded := by
  unfold thermalStep
  dsimp only
  split
  · exact h
  · have hset := dutiesBounded_setTemp h b (x := { w.st.ftu.temps.get b with
      thermal := thermalNext (w.st.ftu.temps.get b).thermal (w.st.ftu.temps.get b).input w.st.plu.inUse.warn w.st.plu.inUse.crit })
      (h.demand b)
    split
    · exact hset.of_view (dutyView_heatBlade _ b)
    · split <;> exact hset

theorem dutiesBounded_freshStep {w : Work} (h : w.st.dutiesBounded) (b : Slot) (fresh : Bool) :
    (freshStep w b fresh).st.dutiesBounded := by
  unfold freshStep
  dsimp only
  split
  · exact h
  · have hset := dutiesBounded_setTemp h b (x := { w.st.ftu.temps.get b with
      fresh := fresh, wasFresh := (w.st.ftu.temps.get b).wasFresh || fresh }) (h.demand b)
    split <;> exact hset

theorem dutiesBounded_deliverStatus {w : Work} (h : w.st.dutiesBounded) (b i k) : (deliverStatus w b i k).st.dutiesBounded := by
  unfold deliverStatus
  dsimp only
  split
  · exact dutiesBounded_thermalStep (dutiesBounded_freshStep (dutiesBounded_setTemp h b (demand_compute_le h.curve _)) b true) b
  · exact dutiesBounded_freshStep (dutiesBounded_setTemp h b (x := { w.st.ftu.temps.get b with
      inlet := some i, hotspot := some k, taken := w.st.now, freshAt := some (w.st.now + sec 3) }) (h.demand b)) b false

theorem dutiesBounded_tempTunables {old new : Tunables} (hnew : ∀ i, (new.curve.get i).duty ≤ 100) {w : Work}
    (h : w.st.dutiesBounded) (b : Slot) : (tempTunables old new w b).st.dutiesBounded := by
  unfold tempTunables
  dsimp only
  split
  · exact dutiesBounded_thermalStep (dutiesBounded_setTemp h b (demand_compute_le hnew _)) b
  · exact dutiesBounded_setTemp h b (x := { w.st.ftu.temps.get b with
      stale := Vector.mapIx (w.st.ftu.temps.get b).stale (fun i st => st || (changedBreakpoints old.curve new.curve).get i) })
      (h.demand b)

theorem dutiesBounded_ftuTunables {old new : Tunables} (hnew : ∀ i, (new.curve.get i).duty ≤ 100) {w : Work}
    (h : w.st.dutiesBounded) : (ftuTunables old new w).st.dutiesBounded := by
  have hfold := dutiesBounded_foldl (tempTunables old new) (fun _ b hw => dutiesBounded_tempTunables hnew hw b) (indices 8) w h
  have htemps : (if old.curve ≠ new.curve ∨ old.warn ≠ new.warn ∨ old.crit ≠ new.crit ∨ old.inletOffset ≠ new.inletOffset then
      (indices 8).foldl (tempTunables old new) w else w).st.dutiesBounded := by
    split
    · exact hfold
    · exact h
  unfold ftuTunables
  dsimp only
  split
  · exact dutiesBounded_fanConsequences htemps _
  · exact htemps

theorem dutiesBounded_moveBlade {w : Work} (h : w.st.dutiesBounded) (b x) : (moveBlade w b x).st.dutiesBounded := by
  rw [moveBlade_st]
  exact h.congr rfl rfl rfl

theorem dutiesBounded_removeBlade {w : Work} (h : w.st.dutiesBounded) (b : Slot) : (removeBlade w b).st.dutiesBounded := by
  have hstop : (if (w.st.blade b).state.powered then stopLink (w.setBlade b { w.st.blade b with powerEn := false }) b else w).st.dutiesBounded := by
    split
    · refine State.dutiesBounded.of_view ?_ (dutyView_stopLink _ b)
      exact h.congr rfl rfl rfl
    · exact h
  have hport : ∀ s : State, s.dutiesBounded → (forgetOptics s b).dutiesBounded := fun s hs => hs.congr rfl rfl rfl
  unfold removeBlade
  dsimp only
  refine hport _ (State.dutiesBounded.of_view ?_ (dutyView_bladeOutOfService _ b))
  rw [releaseBase_st]
  exact dutiesBounded_moveBlade hstop b _

/-- A window end judges the rotors, computes the targets and lets the driven duties fall (R146, R149, R158). -/
theorem dutySound_windowEnd {w : Work} (h : w.st.dutiesBounded) : (windowEnd w).st.dutySound := by
  unfold windowEnd
  dsimp only
  rw [Work.rewrite_st, Work.setFtu_st]
  refine dutySound_fall (dutySound_targetStep (dutiesBounded_fanConsequences ?_ _))
  exact h.congr rfl rfl rfl

theorem dutySound_settle_targetStep {w : Work} (h : w.st.dutiesBounded) : (settle (targetStep w)).st.dutySound :=
  (dutySound_targetStep h).of_view (dutyView_settle _)

theorem dutySound_trayChange {w : Work} (h : w.st.dutiesBounded) (t v) : (trayChange w t v).st.dutySound :=
  dutySound_settle_targetStep (dutiesBounded_fanConsequences
    (dutiesBounded_setRotor (dutiesBounded_setRotor h _ _) _ _) _)

/-! ### The tunables and the writes that reach them -/

theorem dutiesBounded_ite {c : Prop} [Decidable c] {a b : Work} (ha : a.st.dutiesBounded) (hb : b.st.dutiesBounded) :
    (if c then a else b).st.dutiesBounded := by
  split
  · exact ha
  · exact hb

/-- Changed tunables are handed on, and the targets are computed from them (R156, R157, R171). -/
theorem dutySound_changeTunables {w : Work} (h : w.st.dutySound) {new : Tunables} (hmin : new.minDuty ≤ 100)
    (hcurve : ∀ i, (new.curve.get i).duty ≤ 100) : (changeTunables new w).st.dutySound := by
  have hw1 : (w.map (fun s => s.setPlu { s.plu with inUse := new })).st.dutiesBounded :=
    ⟨h.bounded.demand, hmin, hcurve, h.bounded.driven⟩
  have hbases : ((w.map (fun s => s.setPlu { s.plu with inUse := new })).map (powerBases new.defaultBase)).st.dutiesBounded :=
    hw1.congr rfl rfl rfl
  unfold changeTunables
  dsimp only
  split
  · exact h
  · have hw2 := dutiesBounded_ite (c := w.st.plu.inUse.defaultBase ≠ new.defaultBase) hbases hw1
    generalize (if w.st.plu.inUse.defaultBase ≠ new.defaultBase then _ else _ : Work) = w2 at hw2 ⊢
    have hw3 := dutiesBounded_ite (c := w2.st.committed < w.st.committed) (a := w2.dueRestore) hw2 hw2
    generalize (if w2.st.committed < w.st.committed then _ else _ : Work) = w3 at hw3 ⊢
    have hw4 := dutiesBounded_ite (c := w.st.plu.inUse.weights ≠ new.weights) (a := w3.dueGrant) hw3 hw3
    refine (dutySound_targetStep (dutiesBounded_ftuTunables (old := w.st.plu.inUse) hcurve hw4)).of_view ?_
    rw [dutyView_settle, dutyView_coalesceChanged]

theorem dutySound_enterCopy {w : Work} (h : w.st.dutySound) (a m) : (enterCopy w a m).st.dutySound := by
  have hcopy : ∀ copy, (w.map (fun s => s.setPlu { s.plu with copy := copy })).st.dutySound :=
    fun _ => h.of_view (dutyView_setPlu rfl rfl)
  unfold enterCopy
  dsimp only
  split
  · exact dutySound_changeTunables (hcopy _) (minDuty_ofCopy _) (curve_ofCopy _)
  · exact h

@[simp] theorem dutyView_dropParkedCopy (s : State) (l) : (dropParkedCopy s l).dutyView = s.dutyView := by
  unfold dropParkedCopy
  split <;> rfl

@[simp] theorem dutyView_mapStage (w : Work) (l) : (mapStage w l).st.dutyView = w.st.dutyView := by
  unfold mapStage
  split
  · rfl
  · dsimp only
    refine (dutyView_foldl _ ?_ _ _).trans ?_
    · intro s k
      rw [dutyView_setZiu, dutyView_dropParkedCopy]
    · split <;> simp

theorem dutySound_carryWrite {w : Work} (h : w.st.dutySound) (t l) : (carryWrite w t l).st.dutySound := by
  unfold carryWrite
  dsimp only
  split
  · refine dutySound_enterCopy (h.of_view ?_) _ _
    rw [Work.map_st, handWords, dutyView_setTbp, dutyView_mapStage, Work.map_st, dutyView_presentAll]
    rfl
  · refine h.of_view ?_
    rw [Work.map_st, handWords, dutyView_setTbp, dutyView_mapStage, Work.map_st, dutyView_presentAll]
    rfl

theorem dutySound_takeWriteRequest {w : Work} (h : w.st.dutySound) (t a l d e) : (takeWriteRequest w t a l d e).st.dutySound := by
  unfold takeWriteRequest
  dsimp only
  split
  · exact h.of_view rfl
  · refine State.dutySound.of_view ?_ (dutyView_resyncAdvance _)
    exact dutySound_carryWrite h _ _

theorem dutySound_writeRequest {w : Work} (h : w.st.dutySound) (t a l d e) : (writeRequest w t a l d e).st.dutySound := by
  unfold writeRequest
  dsimp only
  split
  · exact h
  · split
    · exact h.of_view rfl
    · split
      · exact h.of_view rfl
      · refine dutySound_takeWriteRequest ?_ _ _ _ _ _
        exact h.of_view rfl

theorem dutySound_foldl {α : Type} (f : Work → α → Work) (hf : ∀ w a, w.st.dutySound → (f w a).st.dutySound) :
    ∀ (l : List α) (w : Work), w.st.dutySound → (l.foldl f w).st.dutySound
  | [], _, h => h
  | a :: l, w, h => dutySound_foldl f hf l (f w a) (hf w a h)

theorem dutySound_releaseWrites {w : Work} (h : w.st.dutySound) : (releaseWrites w).st.dutySound := by
  have hempty : (w.setTbp { w.st.tbp with heldWrites := [] }).st.dutySound := h.of_view rfl
  have hcarry : ∀ (w : Work) (x : HeldWrite), w.st.dutySound →
      (carryWrite w x.tag (writeLines w.st (lineAddrs x.addr x.lines) x.data x.enables)).st.dutySound :=
    fun _ x hw => dutySound_carryWrite hw x.tag _
  exact dutySound_foldl _ hcarry w.st.tbp.heldWrites _ hempty

theorem dutySound_copyDone {w : Work} (h : w.st.dutySound) (l v) : (copyDone w l v).st.dutySound := by
  unfold copyDone
  dsimp only
  split
  · exact h.of_view rfl
  · refine (dutySound_releaseWrites (h.of_view ?_)).of_view (dutyView_resyncAdvance _)
    split <;> rfl

/-! ### The resets and the entry to ARMED -/

/-- After power-on reset the part is not ARMED, and both zones are driven in full (Table 8.6-1). -/
theorem dutySound_powerOn (s : State) (p : PowerOn) : (powerOn s p).dutySound := by
  have hzone : ∀ z, (powerOn s p).ftu.zones.get z = ⟨100, 100, 100⟩ := fun z => Vector.get_replicate _ _ _
  have htemp : ∀ b, (powerOn s p).ftu.temps.get b = BladeTemp.reset := fun b => Vector.get_replicate _ _ _
  have hfull : ∀ z, (powerOn s p).fullDuty z := fun z => .inl (by simp [powerOn, State.reset, Plu.reset])
  refine ⟨fun z => ?_, fun b => ?_, ?_, ?_, fun z => ?_⟩
  · unfold State.dutyLaw
    rw [hzone, targetDuty_of_fullDuty (hfull z)]
    simp
  · rw [htemp]
    exact Nat.zero_le _
  · show Tunables.default.minDuty ≤ 100
    decide
  · show ∀ i, (Tunables.default.curve.get i).duty ≤ 100
    decide
  · rw [hzone]

/-- Entry to ARMED computes the targets once its blades have passed the power check (R170). -/
theorem dutySound_enterArmedWork {w : Work} (h : w.st.dutiesBounded) : (enterArmedWork w).st.dutySound := by
  have harmed : (w.map armUnits).st.dutiesBounded := h.congr rfl rfl rfl
  unfold enterArmedWork
  dsimp only
  rw [Work.rewrite_st]
  refine dutySound_settle_targetStep (harmed.of_view ?_)
  rw [dutyView_foldlWork _ dutyView_releaseSettled, dutyView_budgetStep]

/-! ### The outcomes of the commands -/

/-- Where a command answers a next state, the duty law holds in it. -/
def soundAfter (o : Host.Outcome State Fault Refusal) : Prop := ∀ t, o = .next t → t.dutySound

section Commands

variable {s : State}

theorem soundAfter_next (h : s.dutySound) : soundAfter (.next s) := by
  rintro t ⟨⟩
  exact h

theorem soundAfter_finish {w : Work} (h : w.st.dutySound) : soundAfter (finish s w) :=
  soundAfter_next (h.of_view (dutyView_publish s w))

theorem soundAfter_act (h : s.dutySound) {c : Bool} {op : Work → Work} (hop : c = true → (op (Work.start s)).st.dutySound) :
    soundAfter (act c s op) := by
  unfold act
  split
  · rename_i hc
    exact soundAfter_finish (hop hc)
  · exact soundAfter_next h

/-- A command whose work leaves the view of the duty law. -/
theorem soundAfter_act_view (h : s.dutySound) {c : Bool} {op : Work → Work} (hop : (op (Work.start s)).st.dutyView = s.dutyView) :
    soundAfter (act c s op) := soundAfter_act h fun _ => h.of_view hop

theorem soundAfter_finish_view (h : s.dutySound) {w : Work} (hw : w.st.dutyView = s.dutyView) : soundAfter (finish s w) :=
  soundAfter_finish (h.of_view hw)

/-- A command that acts on a watched word and leaves the view of the duty law. -/
theorem soundAfter_onWord (h : s.dutySound) {mine : WatchedWord → Bool} {stale fits : Handed → Bool} {op : Handed → Work → Work}
    (hop : ∀ x w, (op x w).st.dutyView = w.st.dutyView) : soundAfter (onWord s mine stale fits op) := by
  unfold onWord
  split
  · exact soundAfter_next h
  · rename_i x _
    dsimp only
    have htaken : (s.setTbp { s.tbp with handed := s.tbp.handed.erase x }).dutySound := h.of_view rfl
    split
    · exact soundAfter_next htaken
    · split
      · exact soundAfter_finish_view htaken (hop x _)
      · exact soundAfter_next h

end Commands

end Sys2Proof.Machine
end

section
/-! PROOFS. Every command keeps the duty law of the fan zones, and what the law says of a zone (R157). -/

namespace Sys2Proof.Machine

section Commands

variable {s : State}

/-! ### The table memory path and the zone images -/

theorem soundAfter_onZoneWord (h : s.dutySound) {fits : Nat → Bool} {op : BitVec 64 → Work → Work}
    (hop : ∀ v w, (op v w).st.dutyView = w.st.dutyView) : soundAfter (onZoneWord s fits op) :=
  soundAfter_onWord h fun _ _ => (hop _ _).trans rfl

theorem soundAfter_initialisationComplete (h : s.dutySound) : soundAfter (execInitialisationComplete s) :=
  soundAfter_act_view h (by simp)

theorem soundAfter_warmReset (h : s.dutySound) : soundAfter (execWarmReset s) := by
  refine soundAfter_act_view h ?_
  dsimp only
  split
  · rw [dutyView_zoneResult]
    rfl
  · rfl

theorem soundAfter_warmResetRelease (h : s.dutySound) : soundAfter (execWarmResetRelease s) :=
  soundAfter_act_view h rfl

theorem soundAfter_read (h : s.dutySound) (t a n) : soundAfter (execRead t a n s) :=
  soundAfter_act_view h (dutyView_readRequest _ _ _ _)

theorem soundAfter_write (h : s.dutySound) (t a n d e) : soundAfter (execWrite t a n d e s) :=
  soundAfter_act h fun _ => dutySound_writeRequest h _ _ _ _ _

theorem soundAfter_readComplete (h : s.dutySound) : soundAfter (execReadComplete s) := by
  unfold execReadComplete
  split
  · exact soundAfter_finish_view h (dutyView_readDone _ _)
  · exact soundAfter_next h

theorem soundAfter_writeComplete (h : s.dutySound) : soundAfter (execWriteComplete s) := by
  unfold execWriteComplete
  split
  · exact soundAfter_finish_view h (dutyView_writeDone _ _)
  · exact soundAfter_next h

theorem soundAfter_commit (h : s.dutySound) : soundAfter (execCommit s) :=
  soundAfter_onZoneWord h fun _ _ => dutyView_commitCommand _ _ _

theorem soundAfter_abort (h : s.dutySound) : soundAfter (execAbort s) :=
  soundAfter_onZoneWord h fun _ _ => dutyView_abortCommand _ _

theorem soundAfter_zoneCommandNone (h : s.dutySound) : soundAfter (execZoneCommandNone s) :=
  soundAfter_onZoneWord h fun _ _ => rfl

theorem soundAfter_zoneBadCommand (h : s.dutySound) : soundAfter (execZoneBadCommand s) :=
  soundAfter_onZoneWord h fun _ _ => dutyView_zoneResult _ _ _ _

theorem soundAfter_validationStart (h : s.dutySound) : soundAfter (execValidationStart s) := by
  unfold execValidationStart
  split
  · exact soundAfter_finish_view h (dutyView_presentValidator _ _ _)
  · exact soundAfter_next h

theorem soundAfter_validatorReadComplete (h : s.dutySound) : soundAfter (execValidatorReadComplete s) := by
  unfold execValidatorReadComplete
  split
  · split
    · exact soundAfter_finish_view h (dutyView_validatorDelivers _ _ _)
    · exact soundAfter_next h
  · exact soundAfter_next h

theorem soundAfter_resyncCopyComplete (h : s.dutySound) : soundAfter (execResyncCopyComplete s) := by
  unfold execResyncCopyComplete
  split
  · split
    · exact soundAfter_finish (dutySound_copyDone h _ _)
    · exact soundAfter_next h
  · exact soundAfter_next h

theorem soundAfter_grant (h : s.dutySound) (f : List BitFlip) : soundAfter (execGrant f s) := by
  unfold execGrant
  split
  · rename_i t ht
    exact soundAfter_finish_view h (dutyView_grantOnce ht)
  · rintro t ⟨⟩

theorem soundAfter_refreshDue (h : s.dutySound) : soundAfter (execRefreshDue s) :=
  soundAfter_act_view h rfl

theorem soundAfter_idleTimeout (h : s.dutySound) : soundAfter (execIdleTimeout s) :=
  soundAfter_act_view h rfl

theorem soundAfter_selfRefreshEntry (h : s.dutySound) : soundAfter (execSelfRefreshEntry s) :=
  soundAfter_act_view h rfl

theorem soundAfter_selfRefreshExit (h : s.dutySound) : soundAfter (execSelfRefreshExit s) :=
  soundAfter_act_view h (dutyView_resumePresentations _)

theorem soundAfter_patrolTick (h : s.dutySound) : soundAfter (execPatrolTick s) :=
  soundAfter_act_view h (dutyView_patrolTick _)

theorem soundAfter_patrolReadComplete (h : s.dutySound) : soundAfter (execPatrolReadComplete s) := by
  unfold execPatrolReadComplete
  split
  · split
    · exact soundAfter_finish_view h rfl
    · exact soundAfter_next h
  · exact soundAfter_next h

theorem soundAfter_deferredScrubComplete (h : s.dutySound) : soundAfter (execDeferredScrubComplete s) := by
  unfold execDeferredScrubComplete
  split
  · split
    · exact soundAfter_finish_view h rfl
    · exact soundAfter_next h
  · exact soundAfter_next h

theorem soundAfter_reportPeriodEnd (h : s.dutySound) : soundAfter (execReportPeriodEnd s) :=
  soundAfter_act_view h (by simp)

theorem soundAfter_swqEntryComplete (h : s.dutySound) : soundAfter (execSwqEntryComplete s) := by
  unfold execSwqEntryComplete
  split
  · split
    · exact soundAfter_finish_view h (dutyView_entryComplete _)
    · exact soundAfter_next h
  · exact soundAfter_next h

theorem soundAfter_swqPlaceGrant (h : s.dutySound) : soundAfter (execSwqPlaceGrant s) :=
  soundAfter_act_view h (dutyView_placeGrant _)

/-! ### The blade links -/

/-- A blade whose link is not DOWN is present: every other state of a link goes with a state of a blade that is present. -/
theorem seated_of_link {b : Slot} (h : s.linkFollows b) (hl : (s.link b).state ≠ .down) : s.seated b = true := by
  rw [seated_iff]
  unfold State.linkFollows at h
  split at h
  · rename_i hdown
    exact absurd hdown hl
  all_goals
    rw [of_decide_eq_true h]
    decide

theorem seated_of_linkUp {b : Slot} (h : s.linkFollows b) (hl : s.linkUp b = true) : s.seated b = true :=
  seated_of_link h (by simp [of_decide_eq_true hl])

/-- The loss of the link of a present blade settles with the duty law. -/
theorem dutySound_loseLink {w : Work} (h : w.st.dutySound) {b : Slot} (c : BladeCause) (hs : w.st.seated b = true) :
    (settle (loseLink w b c)).st.dutySound :=
  h.of_view ((dutyView_settle _).trans (dutyView_loseLink c hs))

theorem soundAfter_ackTimeout (h : s.dutySound) (hl : ∀ b, s.linkFollows b) (ho : s.oweUp) : soundAfter (execAckTimeout s) := by
  have hseated : ∀ b ∈ s.ziu.ackSet, s.seated b = true := fun b hb => seated_of_link (hl b) (by simp [ho b hb])
  refine soundAfter_act_view h ?_
  unfold ackTimeoutWork
  dsimp only
  rw [dutyView_settle, dutyView_loseLinks]
  · rfl
  · exact hseated

theorem soundAfter_takeHello (h : s.dutySound) {b : Slot} (hl : s.linkFollows b) (x y z u v : Byte) (d : BitVec 16) :
    soundAfter (takeHello b x y z u v d s) := by
  unfold takeHello
  dsimp only
  split
  · exact soundAfter_next h
  · exact soundAfter_next h
  · exact soundAfter_finish_view h rfl
  · rename_i hdown _ _
    split
    · exact soundAfter_finish_view h (dutyView_linkFault _ _ _ _ _)
    · exact soundAfter_finish_view h (dutyView_helloAccepted _ _ (seated_of_link hl hdown))

theorem soundAfter_takeFetch (h : s.dutySound) (b : Slot) (t n c) : soundAfter (takeFetch b t n c s) :=
  soundAfter_act_view h (by simp)

theorem soundAfter_takeStatus (h : s.dutySound) (b : Slot) (i k : Byte) : soundAfter (takeStatus b i k s) := by
  refine soundAfter_act h fun _ => dutySound_settle_targetStep (dutiesBounded_deliverStatus ?_ b _ _)
  exact h.bounded.of_view (dutyView_keepAlive _ b)

theorem soundAfter_takePortNote (h : s.dutySound) (b : Slot) (t p c) : soundAfter (takePortNote b t p c s) := by
  refine soundAfter_act_view h ?_
  dsimp only
  split <;> simp

theorem soundAfter_takeOrderAck (h : s.dutySound) (b : Slot) (t r) : soundAfter (takeOrderAck b t r s) := by
  refine soundAfter_act_view h ?_
  dsimp only
  split <;> simp

theorem soundAfter_takeEpochAck (h : s.dutySound) (b : Slot) (e) : soundAfter (takeEpochAck b e s) := by
  refine soundAfter_act_view h ?_
  dsimp only
  split <;> simp

theorem soundAfter_takeReset (h : s.dutySound) {b : Slot} (hl : s.linkFollows b) : soundAfter (takeReset b s) :=
  soundAfter_act h fun hup => dutySound_loseLink h _ (seated_of_linkUp hl hup)

theorem soundAfter_takeMessage (h : s.dutySound) {b : Slot} (hl : s.linkFollows b) (m : EngineMessage) :
    soundAfter (takeMessage b m s) := by
  cases m with
  | hello => exact soundAfter_takeHello h hl _ _ _ _ _ _
  | fetch => exact soundAfter_takeFetch h b _ _ _
  | status => exact soundAfter_takeStatus h b _ _
  | portNote => exact soundAfter_takePortNote h b _ _ _
  | orderAck => exact soundAfter_takeOrderAck h b _ _
  | epochAck => exact soundAfter_takeEpochAck h b _
  | reset => exact soundAfter_takeReset h hl

theorem soundAfter_invalidMessage (h : s.dutySound) {b : Slot} (hl : s.linkFollows b) (raw : List Byte) :
    soundAfter (execInvalidMessage b raw s) := by
  unfold execInvalidMessage
  split
  · exact soundAfter_act_view h (dutyView_discardMessage _ _ _ _)
  · exact soundAfter_takeMessage h hl _
  · exact soundAfter_next h

theorem soundAfter_fetchCompletion (h : s.dutySound) : soundAfter (execFetchCompletion s) := by
  unfold execFetchCompletion
  split
  · exact soundAfter_next h
  · split
    · split
      · exact soundAfter_finish_view h (dutyView_fetchDone _ _ _)
      · exact soundAfter_next h
    · exact soundAfter_finish_view h (dutyView_dropInFlight _ _)
    · exact soundAfter_next h

theorem soundAfter_transmissionComplete (h : s.dutySound) (b : Slot) : soundAfter (execTransmissionComplete b s) :=
  soundAfter_act_view h rfl

theorem soundAfter_helloWaitExpiry (h : s.dutySound) {b : Slot} (hl : s.linkFollows b) : soundAfter (execHelloWaitExpiry b s) := by
  refine soundAfter_act h fun hwait => ?_
  rw [Bool.and_eq_true] at hwait
  have hs : s.seated b = true := seated_of_link hl fun hdown => by simp [hdown, LinkState.waits] at hwait
  split
  · have hstop := dutyView_stopLink (Work.start s) b
    refine h.of_view ?_
    rw [dutyView_settle, dutyView_faultBlade _ ((seated_of_dutyView hstop b).trans hs), hstop]
    rfl
  · exact dutySound_loseLink h _ hs

theorem soundAfter_keepaliveExpiry (h : s.dutySound) {b : Slot} (hl : s.linkFollows b) : soundAfter (execKeepaliveExpiry b s) := by
  refine soundAfter_act h fun hup => dutySound_loseLink h _ (seated_of_linkUp hl ?_)
  exact (Bool.and_eq_true_iff.1 hup).1

theorem soundAfter_orderDeadline (h : s.dutySound) {b : Slot} (hl : s.linkFollows b) (t : OrderTag) :
    soundAfter (execOrderDeadline b t s) := by
  refine soundAfter_act h fun hup => dutySound_loseLink h _ (seated_of_linkUp hl ?_)
  exact (Bool.and_eq_true_iff.1 hup).1

theorem soundAfter_lostHoldoffExpiry (h : s.dutySound) (b : Slot) : soundAfter (execLostHoldoffExpiry b s) :=
  soundAfter_act_view h rfl

/-! ### The blades and the port request words -/

theorem soundAfter_bladeInserted (h : s.dutySound) (b : Slot) : soundAfter (execBladeInserted b s) := by
  refine soundAfter_act h fun _ => ?_
  dsimp only
  split
  · refine dutySound_settle_targetStep (dutiesBounded_moveBlade ?_ b _)
    exact h.bounded.of_view rfl
  · exact h.of_view rfl

theorem soundAfter_bladeRemoved (h : s.dutySound) (b : Slot) : soundAfter (execBladeRemoved b s) := by
  refine soundAfter_act h fun _ => dutySound_settle_targetStep ?_
  refine dutiesBounded_setTemp (dutiesBounded_removeBlade ?_ b) b (Nat.zero_le _)
  exact h.bounded.of_view rfl

theorem soundAfter_debounceExpiry (h : s.dutySound) (b : Slot) : soundAfter (execDebounceExpiry b s) := by
  refine soundAfter_act h fun hsettling => h.of_view ?_
  have hstate : (s.blade b).state = .settling := of_decide_eq_true (Bool.and_eq_true_iff.1 hsettling).1
  have hrecord : ∀ x : Blade, x.state = (s.blade b).state → ((Work.start s).setBlade b x).st.dutyView = s.dutyView :=
    fun _ hx => dutyView_setBlade_of_state hx
  have hs : s.seated b = true := seated_iff.2 (by simp [hstate])
  unfold debounced
  dsimp only
  split
  · have hstart := hrecord { s.blade b with debounceAt := none } rfl
    rw [dutyView_settle]
    exact (dutyView_bladePowerCheck ((seated_of_dutyView hstart b).trans hs)).trans hstart
  · exact hrecord _ rfl

theorem soundAfter_linkErrorCountWrite (h : s.dutySound) (b : Slot) : soundAfter (execLinkErrorCountWrite b s) :=
  soundAfter_act_view h (dutyView_setBlade_of_state rfl)

theorem soundAfter_onRequest (h : s.dutySound) {fits : RequestForm → Bool} {op : PortRef → RequestWord → Work → Work}
    (hop : ∀ p r w, (op p r w).st.dutyView = w.st.dutyView) : soundAfter (onRequest s fits op) :=
  soundAfter_onWord h fun _ _ => (dutyView_settle _).trans (hop _ _ _)

theorem soundAfter_portRequestOn (h : s.dutySound) : soundAfter (execPortRequestOn s) := by
  refine soundAfter_onRequest h fun p r w => ?_
  split <;> simp

theorem soundAfter_portRequestOff (h : s.dutySound) : soundAfter (execPortRequestOff s) :=
  soundAfter_onRequest h fun _ _ _ => dutyView_requestOff _ _ _

theorem soundAfter_portRequestInvalid (h : s.dutySound) : soundAfter (execPortRequestInvalid s) :=
  soundAfter_onRequest h fun _ _ _ => dutyView_requestInvalid _ _ _

/-! ### Tokens and power supplies -/

theorem soundAfter_onSubmit (h : s.dutySound) {fits : Nat → Bool} {op : TokenIx → Nat → Work → Work}
    (hop : ∀ k n w, (op k n w).st.dutyView = w.st.dutyView) : soundAfter (onSubmit s fits op) :=
  soundAfter_onWord h fun _ _ => (hop _ _ _).trans rfl

theorem soundAfter_submit (h : s.dutySound) : soundAfter (execSubmit s) :=
  soundAfter_onSubmit h fun _ _ _ => dutyView_submitToken _ _ _

theorem soundAfter_submitNone (h : s.dutySound) : soundAfter (execSubmitNone s) :=
  soundAfter_onSubmit h fun _ _ _ => rfl

theorem soundAfter_tokenCheckStart (h : s.dutySound) : soundAfter (execTokenCheckStart s) := by
  unfold execTokenCheckStart
  split
  · exact soundAfter_act_view h (dutyView_startCheck _ _ _)
  · exact soundAfter_next h

theorem soundAfter_tokenReadComplete (h : s.dutySound) : soundAfter (execTokenReadComplete s) := by
  unfold execTokenReadComplete
  split
  · split
    · exact soundAfter_finish_view h (dutyView_tokenRead _ _ _)
    · exact soundAfter_next h
  · exact soundAfter_next h

theorem soundAfter_nvProgramComplete (h : s.dutySound) (v : Bool) : soundAfter (execNvProgramComplete v s) := by
  unfold execNvProgramComplete
  split
  · exact soundAfter_act_view h (by simp)
  · exact soundAfter_next h

theorem soundAfter_psuInserted (h : s.dutySound) (i : Bay) : soundAfter (execPsuInserted i s) := by
  refine soundAfter_act_view h ?_
  dsimp only
  split <;> simp

theorem soundAfter_psuRemoved (h : s.dutySound) (i : Bay) : soundAfter (execPsuRemoved i s) := by
  refine soundAfter_act_view h ?_
  dsimp only
  split <;> simp

theorem soundAfter_settleExpiry (h : s.dutySound) (i : Bay) (c) : soundAfter (execSettleExpiry i c s) := by
  unfold execSettleExpiry
  exact soundAfter_act_view h (by simp)

theorem soundAfter_powerGoodRise (h : s.dutySound) (i : Bay) : soundAfter (execPowerGoodRise i s) :=
  soundAfter_act_view h (dutyView_psuEdge _ _ _)

theorem soundAfter_powerGoodFall (h : s.dutySound) (i : Bay) : soundAfter (execPowerGoodFall i s) :=
  soundAfter_act_view h (dutyView_psuEdge _ _ _)

theorem soundAfter_acOkRise (h : s.dutySound) (i : Bay) : soundAfter (execAcOkRise i s) :=
  soundAfter_act_view h (dutyView_psuEdge _ _ _)

theorem soundAfter_acOkFall (h : s.dutySound) (i : Bay) : soundAfter (execAcOkFall i s) :=
  soundAfter_act_view h (dutyView_psuEdge _ _ _)

theorem soundAfter_lowLineChange (h : s.dutySound) (i : Bay) (v) : soundAfter (execLowLineChange i v s) := by
  refine soundAfter_act_view h ?_
  dsimp only
  rw [dutyView_settle]
  split <;> rfl

theorem soundAfter_graceExpiry (h : s.dutySound) (i : Bay) : soundAfter (execGraceExpiry i s) := by
  unfold execGraceExpiry
  exact soundAfter_act_view h (by simp)

theorem soundAfter_restoreHoldoffExpiry (h : s.dutySound) : soundAfter (execRestoreHoldoffExpiry s) := by
  refine soundAfter_act_view h ?_
  split <;> simp

/-! ### Fans, events and the policy block -/

theorem soundAfter_tachPulse (h : s.dutySound) (r : Rotor) : soundAfter (execTachPulse r s) :=
  soundAfter_finish_view h (dutyView_setRotors _ _)

theorem soundAfter_measurementWindowEnd (h : s.dutySound) : soundAfter (execMeasurementWindowEnd s) :=
  soundAfter_act h fun _ => (dutySound_windowEnd h.bounded).of_view (dutyView_settle _)

theorem soundAfter_trayInserted (h : s.dutySound) (t : Tray) : soundAfter (execTrayInserted t s) := by
  refine soundAfter_act h fun _ => dutySound_trayChange ?_ _ _
  exact h.bounded.of_view rfl

theorem soundAfter_trayRemoved (h : s.dutySound) (t : Tray) : soundAfter (execTrayRemoved t s) := by
  refine soundAfter_act h fun _ => dutySound_trayChange ?_ _ _
  exact h.bounded.of_view rfl

theorem soundAfter_spinupExpiry (h : s.dutySound) (r : Rotor) : soundAfter (execSpinupExpiry r s) := by
  unfold execSpinupExpiry
  refine soundAfter_act h fun _ => dutySound_settle_targetStep (dutiesBounded_fanConsequences ?_ _)
  exact dutiesBounded_setRotor h.bounded _ _

theorem soundAfter_freshnessExpiry (h : s.dutySound) (b : Slot) : soundAfter (execFreshnessExpiry b s) := by
  unfold execFreshnessExpiry
  refine soundAfter_act h fun _ => dutySound_settle_targetStep (dutiesBounded_freshStep ?_ b false)
  exact dutiesBounded_setTemp h.bounded b (h.bounded.demand b)

theorem soundAfter_recordWrite (h : s.dutySound) : soundAfter (execRecordWrite s) := by
  have hplaced : ∀ w : Work, w.st.dutyView = s.dutyView → soundAfter (.next (askRecordDrain (publish s w))) := fun w hw =>
    soundAfter_next (h.of_view ((dutyView_askRecordDrain _).trans hw))
  unfold execRecordWrite
  dsimp only
  split
  · exact soundAfter_next h
  · split
    · split
      · exact soundAfter_next h
      · exact hplaced _ rfl
    · split
      · exact soundAfter_next h
      · split
        · exact soundAfter_finish_view h rfl
        · exact hplaced _ rfl

theorem soundAfter_eventPublish (h : s.dutySound) : soundAfter (execEventPublish s) := by
  unfold execEventPublish
  split
  · exact soundAfter_finish_view h rfl
  · exact soundAfter_next h

theorem soundAfter_consumerIndexWrite (h : s.dutySound) : soundAfter (execConsumerIndexWrite s) :=
  soundAfter_onWord h fun _ _ => rfl

theorem soundAfter_coalescingTimerExpiry (h : s.dutySound) : soundAfter (execCoalescingTimerExpiry s) :=
  soundAfter_act_view h rfl

theorem soundAfter_uptimeTick (h : s.dutySound) : soundAfter (execUptimeTick s) :=
  soundAfter_act_view h rfl

theorem soundAfter_onPolicyWord (h : s.dutySound) {fits : Nat → Bool} {op : BitVec 64 → Work → Work}
    (hop : ∀ v w, (op v w).st.dutyView = w.st.dutyView) : soundAfter (onPolicyWord s fits op) :=
  soundAfter_onWord h fun _ _ => (hop _ _).trans (dutyView_setPlu rfl rfl)

theorem soundAfter_arm (h : s.dutySound) : soundAfter (execArm s) :=
  soundAfter_onPolicyWord h fun _ _ => dutyView_armCommand _ _

theorem soundAfter_policyCommandNone (h : s.dutySound) : soundAfter (execPolicyCommandNone s) :=
  soundAfter_onPolicyWord h fun _ _ => rfl

theorem soundAfter_policyBadCommand (h : s.dutySound) : soundAfter (execPolicyBadCommand s) :=
  soundAfter_onPolicyWord h fun _ _ => rfl

theorem soundAfter_enterArmed (h : s.dutySound) : soundAfter (execEnterArmed s) :=
  soundAfter_act h fun _ => dutySound_enterArmedWork h.bounded

/-! ### Every command -/

/-- Every command keeps the duty law and its bounds, given that links and blades go together. -/
theorem soundAfter_exec (h : s.dutySound) (hl : ∀ b, s.linkFollows b) (ho : s.oweUp) (c : Instr) : soundAfter (exec c s) := by
  cases c with
  | powerOnReset p => exact soundAfter_next (dutySound_powerOn s p)
  | initialisationComplete => exact soundAfter_initialisationComplete h
  | warmReset => exact soundAfter_warmReset h
  | warmResetRelease => exact soundAfter_warmResetRelease h
  | read => exact soundAfter_read h _ _ _
  | write => exact soundAfter_write h _ _ _ _ _
  | readComplete => exact soundAfter_readComplete h
  | writeComplete => exact soundAfter_writeComplete h
  | commit => exact soundAfter_commit h
  | abort => exact soundAfter_abort h
  | zoneCommandNone => exact soundAfter_zoneCommandNone h
  | zoneBadCommand => exact soundAfter_zoneBadCommand h
  | validationStart => exact soundAfter_validationStart h
  | validatorReadComplete => exact soundAfter_validatorReadComplete h
  | ackTimeout => exact soundAfter_ackTimeout h hl ho
  | resyncCopyComplete => exact soundAfter_resyncCopyComplete h
  | grant f => exact soundAfter_grant h f
  | refreshDue => exact soundAfter_refreshDue h
  | idleTimeout => exact soundAfter_idleTimeout h
  | selfRefreshEntry => exact soundAfter_selfRefreshEntry h
  | selfRefreshExit => exact soundAfter_selfRefreshExit h
  | patrolTick => exact soundAfter_patrolTick h
  | patrolReadComplete => exact soundAfter_patrolReadComplete h
  | deferredScrubComplete => exact soundAfter_deferredScrubComplete h
  | reportPeriodEnd => exact soundAfter_reportPeriodEnd h
  | swqEntryComplete => exact soundAfter_swqEntryComplete h
  | swqPlaceGrant => exact soundAfter_swqPlaceGrant h
  | hello b => exact soundAfter_takeHello h (hl b) _ _ _ _ _ _
  | fetch b => exact soundAfter_takeFetch h b _ _ _
  | fetchCompletion => exact soundAfter_fetchCompletion h
  | status b => exact soundAfter_takeStatus h b _ _
  | portNote b => exact soundAfter_takePortNote h b _ _ _
  | orderAck b => exact soundAfter_takeOrderAck h b _ _
  | epochAck b => exact soundAfter_takeEpochAck h b _
  | reset b => exact soundAfter_takeReset h (hl b)
  | transmissionComplete b => exact soundAfter_transmissionComplete h b
  | helloWaitExpiry b => exact soundAfter_helloWaitExpiry h (hl b)
  | keepaliveExpiry b => exact soundAfter_keepaliveExpiry h (hl b)
  | orderDeadline b t => exact soundAfter_orderDeadline h (hl b) t
  | lostHoldoffExpiry b => exact soundAfter_lostHoldoffExpiry h b
  | bladeInserted b => exact soundAfter_bladeInserted h b
  | bladeRemoved b => exact soundAfter_bladeRemoved h b
  | debounceExpiry b => exact soundAfter_debounceExpiry h b
  | linkErrorCountWrite b => exact soundAfter_linkErrorCountWrite h b
  | portRequestOn => exact soundAfter_portRequestOn h
  | portRequestOff => exact soundAfter_portRequestOff h
  | portRequestInvalid => exact soundAfter_portRequestInvalid h
  | submit => exact soundAfter_submit h
  | submitNone => exact soundAfter_submitNone h
  | tokenCheckStart => exact soundAfter_tokenCheckStart h
  | tokenReadComplete => exact soundAfter_tokenReadComplete h
  | nvProgramComplete v => exact soundAfter_nvProgramComplete h v
  | psuInserted i => exact soundAfter_psuInserted h i
  | psuRemoved i => exact soundAfter_psuRemoved h i
  | settleExpiry i c => exact soundAfter_settleExpiry h i c
  | powerGoodRise i => exact soundAfter_powerGoodRise h i
  | powerGoodFall i => exact soundAfter_powerGoodFall h i
  | acOkRise i => exact soundAfter_acOkRise h i
  | acOkFall i => exact soundAfter_acOkFall h i
  | lowLineChange i v => exact soundAfter_lowLineChange h i v
  | graceExpiry i => exact soundAfter_graceExpiry h i
  | restoreHoldoffExpiry => exact soundAfter_restoreHoldoffExpiry h
  | tachPulse r => exact soundAfter_tachPulse h r
  | measurementWindowEnd => exact soundAfter_measurementWindowEnd h
  | trayInserted t => exact soundAfter_trayInserted h t
  | trayRemoved t => exact soundAfter_trayRemoved h t
  | spinupExpiry r => exact soundAfter_spinupExpiry h r
  | freshnessExpiry b => exact soundAfter_freshnessExpiry h b
  | recordWrite => exact soundAfter_recordWrite h
  | eventPublish => exact soundAfter_eventPublish h
  | consumerIndexWrite => exact soundAfter_consumerIndexWrite h
  | coalescingTimerExpiry => exact soundAfter_coalescingTimerExpiry h
  | uptimeTick => exact soundAfter_uptimeTick h
  | arm => exact soundAfter_arm h
  | policyCommandNone => exact soundAfter_policyCommandNone h
  | policyBadCommand => exact soundAfter_policyBadCommand h
  | enterArmed => exact soundAfter_enterArmed h
  | invalidMessage b raw => exact soundAfter_invalidMessage h (hl b) raw

/-- Every step keeps the duty law: the command at the front of the queue does, and a clock period changes no duty. -/
theorem soundAfter_step (h : s.dutySound) (hl : ∀ b, s.linkFollows b) (ho : s.oweUp) : soundAfter (step s) := by
  unfold step
  split
  · rename_i c rest _
    exact soundAfter_exec (s := { s with pending := rest }) (h.of_view rfl) hl ho c
  · exact soundAfter_next (h.of_view rfl)

end Commands

/-! ### What the law says of a zone -/

/-- The driven duty is at least the minimum duty. -/
theorem minDuty_le_driven {s : State} {z : FanZone} (law : s.dutyLaw z) (h : s.plu.inUse.minDuty ≤ 100) :
    s.plu.inUse.minDuty ≤ (s.ftu.zones.get z).driven := by
  obtain ⟨htarget, hle, -⟩ := law
  have hmin := minDuty_le_targetDuty h z
  omega

/-- A zone that is to be driven in full has target and driven duty 100. -/
theorem duty_of_fullDuty {s : State} {z : FanZone} (law : s.dutyLaw z) (h : s.fullDuty z) :
    (s.ftu.zones.get z).target = 100 ∧ (s.ftu.zones.get z).driven = 100 := by
  obtain ⟨htarget, hle, hdriven⟩ := law
  rw [targetDuty_of_fullDuty h] at htarget
  omega

/-- Otherwise the target is the largest of the minimum duty and the present blades' demands. -/
theorem target_of_not_fullDuty {s : State} {z : FanZone} (law : s.dutyLaw z) (h : ¬s.fullDuty z) :
    s.plu.inUse.minDuty ≤ (s.ftu.zones.get z).target ∧
      (∀ b, zoneOfSlot b = z → (s.blade b).state ≠ .absent → (s.ftu.temps.get b).demand ≤ (s.ftu.zones.get z).target) ∧
      ((s.ftu.zones.get z).target = s.plu.inUse.minDuty ∨
        ∃ b, zoneOfSlot b = z ∧ (s.blade b).state ≠ .absent ∧ (s.ftu.zones.get z).target = (s.ftu.temps.get b).demand) := by
  obtain ⟨htarget, -, -⟩ := law
  obtain ⟨hleast, hdemand, hfrom⟩ := largestDemand_spec s (s.zoneBlades z) s.plu.inUse.minDuty
  rw [htarget, targetDuty_of_not_fullDuty h]
  refine ⟨hleast, fun b hz hb => hdemand b (mem_zoneBlades.2 ⟨hz, hb⟩), hfrom.imp_right ?_⟩
  rintro ⟨b, hb, hfrom⟩
  obtain ⟨hz, hs⟩ := mem_zoneBlades.1 hb
  exact ⟨b, hz, hs, hfrom⟩

theorem not_fullDuty {s : State} {z : FanZone} (armed : s.plu.part = .armed)
    (trays : ∀ t, zoneOfTray t = z → s.ftu.trays.get t = .ok)
    (fresh : ∀ b, zoneOfSlot b = z → (s.blade b).state ≠ .absent → (s.ftu.temps.get b).fresh = true) : ¬s.fullDuty z := by
  rintro (hpart | ⟨t, hz, ht⟩ | ⟨b, hz, hb, hf⟩)
  · exact hpart armed
  · exact ht (trays t hz)
  · exact Bool.false_ne_true (hf.symm.trans (fresh b hz hb))

/-- Settles O8: every operation outside the fan and thermal unit leaves the view of the duty law, and what changes the view
ends in the computation of the targets; the rest is what a target is. -/
theorem zoneDutyLawKept : Obligations.ZoneDutyLawKept := by
  refine ⟨fun s t hl ho hb law hstep => ?_, fun s z law hb => ?_⟩
  · exact (soundAfter_step (dutySound_of_bounded hb law) hl ho t hstep).law
  · obtain ⟨hrange, -⟩ := hb
    have hmin := minDuty_of_inRange hrange
    exact ⟨hmin, minDuty_le_driven law hmin.2, duty_of_fullDuty law,
      fun armed trays fresh => target_of_not_fullDuty law (not_fullDuty armed trays fresh)⟩

end Sys2Proof.Machine
end

section
/-! PROOFS. What every command keeps, said once: a relation between a state and the state that the work of a command has
reached, closed under the operations of the units. The invariants of the part follow from it. -/

set_option Elab.async false

namespace Sys2Proof.Machine

/-! ### The relation -/

/-- Links and blades go together, and every blade that owes an acknowledgement has its link UP (R65, R18). -/
def State.paired (s : State) : Prop := (∀ b, s.linkFollows b) ∧ s.oweUp

/-- Which of the clauses of `Kept` are asked for: a GRANT writes table memory, a flip changes the image, and inside some
operations blades and links, the fan figures, or the waiting lists wait for their last step. -/
structure Scope where
  memory : Prop
  image : Prop
  blades : Prop
  fans : Prop
  waits : Prop

/-- A link that is not UP holds no order (R69, R77). -/
def Link.idle (l : Link) : Prop := l.state ≠ .up → l.queue = [] ∧ ∀ tag, l.orders.get tag = none

/-- What the work of a command keeps of the part. -/
structure Kept (k : Scope) (s t : State) : Prop where
  density : t.tmc.density = s.tmc.density
  memory : k.memory → t.tmc.mem = s.tmc.mem ∧ t.tmc.marks = s.tmc.marks
  image : k.image → t.ziu.epoch = s.ziu.epoch ∧ t.ziu.swap = s.ziu.swap
  canonical : s.tablesCanonical = true → t.tablesCanonical = true
  lines : s.linesWhole → t.linesWhole
  bounded : s.bounded → t.bounded
  powered : k.blades → (∀ b, s.powerFollows b) → ∀ b, t.powerFollows b
  paired : k.blades → s.paired → t.paired
  idle : ∀ b, (s.link b).idle → (t.link b).idle
  fans : k.fans → s.fansFollow → t.fansFollow
  waits : k.waits → s.waitsMatch → t.waitsMatch
  armed : s.plu.part = .armed → t.plu.part = .armed ∧ t.plu.layout = s.plu.layout ∧ t.lu.reserves = s.lu.reserves
  floors : s.programAbove → (∀ f, (s.lu.feature f).floor ≤ (t.lu.feature f).floor) ∧ t.programAbove

variable {k : Scope} {r s t : State} {w : Work}

theorem Kept.refl (s : State) : Kept k s s where
  density := rfl
  memory _ := ⟨rfl, rfl⟩
  image _ := ⟨rfl, rfl⟩
  canonical := id
  lines := id
  bounded := id
  powered _ := id
  paired _ := id
  idle _ := id
  fans _ := id
  waits _ := id
  armed h := ⟨h, rfl, rfl⟩
  floors h := ⟨fun _ => Nat.le_refl _, h⟩

theorem Kept.trans (h : Kept k r s) (g : Kept k s t) : Kept k r t where
  density := g.density.trans h.density
  memory m := ⟨(g.memory m).1.trans (h.memory m).1, (g.memory m).2.trans (h.memory m).2⟩
  image m := ⟨(g.image m).1.trans (h.image m).1, (g.image m).2.trans (h.image m).2⟩
  canonical c := g.canonical (h.canonical c)
  lines c := g.lines (h.lines c)
  bounded c := g.bounded (h.bounded c)
  powered m c := g.powered m (h.powered m c)
  paired m c := g.paired m (h.paired m c)
  idle b c := g.idle b (h.idle b c)
  fans m c := g.fans m (h.fans m c)
  waits m c := g.waits m (h.waits m c)
  armed c := by
    obtain ⟨part, layout, reserves⟩ := h.armed c
    obtain ⟨part', layout', reserves'⟩ := g.armed part
    exact ⟨part', layout'.trans layout, reserves'.trans reserves⟩
  floors c := by
    obtain ⟨le, above⟩ := h.floors c
    obtain ⟨le', above'⟩ := g.floors above
    exact ⟨fun f => (le f).trans (le' f), above'⟩

/-- The clauses about blades and links are not asked for. -/
def Scope.noBlades (k : Scope) : Scope := { k with blades := False }

/-- The clause about the fan figures is not asked for. -/
def Scope.noFans (k : Scope) : Scope := { k with fans := False }

/-- The clause about the waiting lists is not asked for. -/
def Scope.noWaits (k : Scope) : Scope := { k with waits := False }

theorem Kept.noBlades (h : Kept k s t) : Kept k.noBlades s t :=
  { h with powered := fun m => m.elim, paired := fun m => m.elim }

theorem Kept.noFans (h : Kept k s t) : Kept k.noFans s t := { h with fans := fun m => m.elim }

theorem Kept.noWaits (h : Kept k s t) : Kept k.noWaits s t := { h with waits := fun m => m.elim }

/-- The clauses about blades and links hold at the end. -/
theorem Kept.withBlades (h : Kept k.noBlades s t) (powered : k.blades → (∀ b, s.powerFollows b) → ∀ b, t.powerFollows b)
    (paired : k.blades → s.paired → t.paired) : Kept k s t :=
  { h with powered := powered, paired := paired }

/-- The clause about the fan figures holds at the end. -/
theorem Kept.withFans (h : Kept k.noFans s t) (fans : k.fans → s.fansFollow → t.fansFollow) : Kept k s t :=
  { h with fans := fans }

/-- The clause about the waiting lists holds at the end. -/
theorem Kept.withWaits (h : Kept k.noWaits s t) (waits : k.waits → s.waitsMatch → t.waitsMatch) : Kept k s t :=
  { h with waits := waits }

/-! ### The waiting lists -/

/-- Lists that are as they were, with ports whose states are, match as before. -/
theorem waitsMatch_congr (hqueue : ∀ b, t.queue b = s.queue b) (hwait : t.pbu.waitList = s.pbu.waitList)
    (hstate : ∀ p, (t.port p).state = (s.port p).state) (h : s.waitsMatch) : t.waitsMatch := by
  obtain ⟨hlicence, hpower, honce⟩ := h
  refine ⟨fun b => ?_, ?_, ?_⟩
  · rw [hqueue]
    exact ⟨fun e he => (hstate _).trans ((hlicence b).1 e he), (hlicence b).2⟩
  · rw [hwait]
    exact fun e he => (hstate _).trans (hpower e he)
  · rw [hwait]
    exact honce

/-- A record that keeps its state leaves the match. -/
theorem State.waitsMatch.setPort {p : PortRef} (h : s.waitsMatch) (x : Port) (hx : x.state = (s.port p).state := by rfl) :
    (s.setPort p x).waitsMatch := by
  refine waitsMatch_congr (s := s) (fun _ => rfl) rfl (fun q => ?_) h
  rw [State.port_setPort]
  split
  · next e => rw [e, hx]
  · rfl

/-! ### Changes of one unit -/

/-- A change of the TMC that leaves table memory and its size and takes the refresh debt no higher than 8. -/
def TmcCalm (t u : Tmc) : Prop := u.density = t.density ∧ u.mem = t.mem ∧ u.marks = t.marks ∧ (t.debt ≤ 8 → u.debt ≤ 8)

theorem kept_setPins (s : State) (x : Pins) : Kept k s (s.setPins x) := { Kept.refl s with }

theorem kept_setTbp (s : State) (x : Tbp) : Kept k s (s.setTbp x) := { Kept.refl s with }

theorem kept_setEvu (s : State) (x : Evu) : Kept k s (s.setEvu x) := { Kept.refl s with }

theorem kept_setTmc (s : State) (x : Tmc) (h : TmcCalm s.tmc x := by exact ⟨rfl, rfl, rfl, id⟩) : Kept k s (s.setTmc x) := by
  obtain ⟨hdensity, hmem, hmarks, hdebt⟩ := h
  refine { Kept.refl s with density := hdensity, memory := fun _ => ⟨hmem, hmarks⟩, canonical := ?_, bounded := ?_ }
  · intro h
    simpa [State.tablesCanonical, hmem, hmarks] using h
  · rintro ⟨hr, hd, hq, hf, ht⟩
    exact ⟨hr, hdebt hd, hq, hf, ht⟩

theorem kept_setSwq (s : State) (q : Swq) (hlength : s.swq.entries.length ≤ 64 → q.entries.length ≤ 64)
    (hlines : s.linesWhole → (s.setSwq q).linesWhole) : Kept k s (s.setSwq q) := by
  refine { Kept.refl s with lines := hlines, bounded := ?_ }
  rintro ⟨hr, hd, hq, hf, ht⟩
  exact ⟨hr, hd, hlength hq, hf, ht⟩

/-- A change of the ZIU that leaves the image, keeps the dirty map canonical and puts no blade into the acknowledgement set. -/
theorem kept_setZiu (s : State) (z : Ziu) (hepoch : z.epoch = s.ziu.epoch := by rfl) (hswap : z.swap = s.ziu.swap := by rfl)
    (hdirty : sparseWf .clean s.ziu.dirty = true → sparseWf .clean z.dirty = true := by exact id)
    (howe : ∀ b ∈ z.ackSet, b ∈ s.ziu.ackSet := by exact fun _ h => h) : Kept k s (s.setZiu z) := by
  refine { Kept.refl s with image := fun _ => ⟨hepoch, hswap⟩, canonical := ?_, paired := ?_ }
  · simp only [State.tablesCanonical, Bool.and_eq_true]
    rintro ⟨⟨⟨hm, hk⟩, hd⟩, hc⟩
    exact ⟨⟨⟨hm, hk⟩, hdirty hd⟩, hc⟩
  · rintro - ⟨hl, ho⟩
    exact ⟨hl, fun b hb => ho b (howe b hb)⟩

/-- A change of the LU that leaves the reserves, the program and the queues and takes no floor. -/
theorem kept_setLu (s : State) (x : Lu) (hreserves : x.reserves = s.lu.reserves := by rfl)
    (hprogram : x.program = s.lu.program := by rfl) (hfloor : ∀ f, (x.feature f).floor = (s.lu.feature f).floor := by
      intro f; cases f <;> rfl) (hqueues : x.queues = s.lu.queues := by rfl) : Kept k s (s.setLu x) := by
  have hwaits : s.waitsMatch → (s.setLu x).waitsMatch :=
    waitsMatch_congr (fun b => congrArg (fun q => Vector.get q b) hqueues) rfl (fun _ => rfl)
  refine { Kept.refl s with waits := fun _ => hwaits, armed := fun h => ⟨h, rfl, hreserves⟩, floors := fun h => ⟨fun f => (hfloor f).ge, ?_⟩ }
  intro p hp
  have := h p (hprogram ▸ hp)
  simpa [hfloor] using this

/-- A change of the PBU that leaves the derate factor and the wait list. -/
theorem kept_setPbu (s : State) (x : Pbu) (hderate : x.derate = s.pbu.derate := by rfl)
    (hwait : x.waitList = s.pbu.waitList := by rfl) : Kept k s (s.setPbu x) := by
  refine { Kept.refl s with bounded := ?_, fans := ?_, waits := fun _ => waitsMatch_congr (fun _ => rfl) hwait (fun _ => rfl) }
  · rintro ⟨hr, hd, hq, hf, ht⟩
    exact ⟨hr, hd, hq, hderate ▸ hf, ht⟩
  · rintro - ⟨h1, h2, h3, h4⟩
    exact ⟨h1, h2, h3, hderate.trans h4⟩

/-- A change of the PLU that leaves the part state, the layout, the copy and the tunables in use. -/
theorem kept_setPlu (s : State) (x : Plu) (hpart : x.part = s.plu.part := by rfl) (hlayout : x.layout = s.plu.layout := by rfl)
    (hcopy : x.copy = s.plu.copy := by rfl) (huse : x.inUse = s.plu.inUse := by rfl) : Kept k s (s.setPlu x) := by
  refine { Kept.refl s with canonical := ?_, bounded := ?_, fans := ?_, armed := fun h => ⟨hpart.trans h, hlayout, rfl⟩ }
  · intro h
    simpa [State.tablesCanonical, hcopy] using h
  · rintro ⟨hr, hrest⟩
    exact ⟨by simpa [huse] using hr, hrest⟩
  · rintro - ⟨h1, h2, h3, h4⟩
    exact ⟨h1, h2, by simpa [huse] using h3, h4⟩

/-- The ports' states are part of the clause about the waiting lists alone. -/
theorem kept_setPort_loose (s : State) (p : PortRef) (x : Port) : Kept k.noWaits s (s.setPort p x) :=
  { Kept.refl s with waits := fun m => m.elim }

theorem kept_setPort (s : State) (p : PortRef) (x : Port) (hx : x.state = (s.port p).state := by rfl) : Kept k s (s.setPort p x) :=
  (kept_setPort_loose s p x).withWaits fun _ h => h.setPort x hx

theorem idle_setLink {b : Slot} {l : Link} (h : (s.link b).idle → l.idle) (c : Slot) (hc : (s.link c).idle) : ((s.setLink b l).link c).idle := by
  rw [State.link_setLink]
  split
  · next e => exact h (e ▸ hc)
  · exact hc

/-- A link may change in all but its state. -/
theorem kept_setLink (s : State) (b : Slot) (l : Link) (h : l.state = (s.link b).state := by rfl)
    (hidle : (s.link b).idle → l.idle := by exact id) : Kept k s (s.setLink b l) := by
  have hstate : ∀ c, ((s.setLink b l).link c).state = (s.link c).state := by
    intro c
    by_cases e : c = b
    · subst e; simpa using h
    · simp [e]
  refine { Kept.refl s with paired := ?_, idle := idle_setLink hidle }
  rintro - ⟨hl, ho⟩
  refine ⟨fun c => ?_, fun c hc => (hstate c).trans (ho c hc)⟩
  have := hl c
  unfold State.linkFollows at this ⊢
  rw [hstate c]
  exact this

/-- A blade record may change in all but its state and its power enable. -/
theorem kept_setBlade (s : State) (b : Slot) (x : Blade) (hstate : x.state = (s.blade b).state := by rfl)
    (hpower : x.powerEn = (s.blade b).powerEn := by rfl) : Kept k s (s.setBlade b x) := by
  have hs : ∀ c, ((s.setBlade b x).blade c).state = (s.blade c).state := by
    intro c
    by_cases e : c = b
    · subst e; simpa using hstate
    · simp [e]
  refine { Kept.refl s with powered := ?_, paired := ?_ }
  · rintro - h c
    unfold State.powerFollows at h ⊢
    rw [hs c, ← h c]
    by_cases e : c = b
    · subst e; simpa using hpower
    · simp [e]
  · rintro - ⟨hl, ho⟩
    refine ⟨fun c => ?_, ho⟩
    have := hl c
    unfold State.linkFollows at this ⊢
    rw [hs c]
    exact this

/-! ### Changes of a blade with its link -/

/-- The states of a link and of its blade that go together (R65, R66, R69, R71, R87 to R91). -/
def follows (l : LinkState) (x : BladeState) : Bool :=
  match l with
  | .down => !x.powered
  | .firstWait => decide (x = .powering)
  | .returnWait => decide (x = .lost)
  | .up => decide (x = .up)
  | .lost => decide (x = .lost)

theorem linkFollows_iff (s : State) (b : Slot) : s.linkFollows b ↔ follows (s.link b).state (s.blade b).state = true := by
  unfold State.linkFollows follows
  cases (s.link b).state <;> rfl

/-- A link that goes with an unpowered blade is DOWN. -/
theorem follows_unpowered {l : LinkState} {x : BladeState} (hx : x.powered = false) : follows l x = true ↔ l = .down := by
  cases l <;> cases x <;> simp [follows, BladeState.powered] at hx ⊢

/-- Nothing has changed in slots other than one: links, blades, and the blades that owe. -/
structure OnlySlot (b : Slot) (s t : State) : Prop where
  link : ∀ c, c ≠ b → t.link c = s.link c
  blade : ∀ c, c ≠ b → t.blade c = s.blade c
  owe : ∀ c ∈ t.ziu.ackSet, c ∈ s.ziu.ackSet

theorem OnlySlot.refl (b : Slot) (s : State) : OnlySlot b s s := ⟨fun _ _ => rfl, fun _ _ => rfl, fun _ h => h⟩

theorem OnlySlot.trans {b : Slot} (h : OnlySlot b r s) (g : OnlySlot b s t) : OnlySlot b r t :=
  ⟨fun c e => (g.link c e).trans (h.link c e), fun c e => (g.blade c e).trans (h.blade c e), fun c m => h.owe c (g.owe c m)⟩

theorem OnlySlot.setLink {b : Slot} (h : OnlySlot b s t) (l : Link) : OnlySlot b s (t.setLink b l) :=
  h.trans ⟨fun c e => by simp [e], fun _ _ => rfl, fun _ m => m⟩

theorem OnlySlot.setBlade {b : Slot} (h : OnlySlot b s t) (x : Blade) : OnlySlot b s (t.setBlade b x) :=
  h.trans ⟨fun _ _ => rfl, fun c e => by simp [e], fun _ m => m⟩

/-- A slot whose power enable follows at the end leaves every power enable following. -/
theorem OnlySlot.powered {b : Slot} (h : OnlySlot b s t) (hb : t.powerFollows b) (hs : ∀ c, s.powerFollows c) (c : Slot) :
    t.powerFollows c := by
  by_cases e : c = b
  · exact e ▸ hb
  · unfold State.powerFollows
    rw [h.blade c e]
    exact hs c

/-- A slot whose link and blade go together at the end leaves all of them together, where the blade owes only with its link UP. -/
theorem OnlySlot.paired {b : Slot} (h : OnlySlot b s t) (hb : t.linkFollows b) (howe : b ∈ t.ziu.ackSet → (t.link b).state = .up)
    (hs : s.paired) : t.paired := by
  obtain ⟨hl, ho⟩ := hs
  refine ⟨fun c => ?_, fun c hc => ?_⟩
  · by_cases e : c = b
    · exact e ▸ hb
    · have := hl c
      rw [linkFollows_iff] at this ⊢
      rwa [h.link c e, h.blade c e]
  · by_cases e : c = b
    · subst e; exact howe hc
    · rw [h.link c e]
      exact ho c (h.owe c hc)

/-! ### The work of a command -/

/-- Every event record that a command asks to be written is a whole record (R162). -/
def Work.recordsWhole (w : Work) : Prop := ∀ n x, .eventRecord n x ∈ w.rewrites → x.length = 32

/-- What a command's work has reached from a state. -/
structure Reached (k : Scope) (s : State) (w : Work) : Prop where
  st : Kept k s w.st
  records : w.recordsWhole

theorem Reached.start (s : State) : Reached k s (Work.start s) := ⟨.refl s, fun _ _ h => by simp at h⟩

theorem Reached.map (h : Reached k s w) (f : State → State) (hf : Kept k w.st (f w.st)) : Reached k s (w.map f) :=
  ⟨h.st.trans hf, h.records⟩

theorem Reached.raise (h : Reached k s w) (u : UnitId) (e : Event) : Reached k s (w.raise u e) := ⟨h.st, h.records⟩

theorem Reached.raiseDirect (h : Reached k s w) (e : Event) : Reached k s (w.raiseDirect e) := ⟨h.st, h.records⟩

theorem Reached.dueGrant (h : Reached k s w) : Reached k s w.dueGrant := ⟨h.st, h.records⟩

theorem Reached.dueRestore (h : Reached k s w) : Reached k s w.dueRestore := ⟨h.st, h.records⟩

theorem Reached.rewrite (h : Reached k s w) (l : List StatusItem) (hl : ∀ n x, .eventRecord n x ∈ l → x.length = 32) :
    Reached k s (w.rewrite l) := by
  refine ⟨h.st, fun n x hm => ?_⟩
  rcases List.mem_append.1 hm with hm | hm
  · exact h.records n x hm
  · exact hl n x hm

theorem Reached.ite {c : Prop} [Decidable c] {v w : Work} (hv : Reached k s v) (hw : Reached k s w) :
    Reached k s (if c then v else w) := by
  split
  · exact hv
  · exact hw

theorem Reached.ite_fst {β : Type} {c : Prop} [Decidable c] {v w : Work × β} (hv : Reached k s v.1) (hw : Reached k s w.1) :
    Reached k s (if c then v else w).1 := by
  split
  · exact hv
  · exact hw

theorem reached_foldl {α : Type} (f : Work → α → Work) (hf : ∀ w a, Reached k s w → Reached k s (f w a)) : ∀ (l : List α) (w : Work),
    Reached k s w → Reached k s (l.foldl f w)
  | [], _, h => h
  | a :: l, w, h => reached_foldl f hf l _ (hf w a h)

theorem kept_foldl {α : Type} (f : State → α → State) (hf : ∀ s a, Kept k s (f s a)) : ∀ (l : List α) (s : State), Kept k s (l.foldl f s)
  | [], s => .refl s
  | a :: l, s => (hf s a).trans (kept_foldl f hf l _)

theorem Reached.noBlades (h : Reached k s w) : Reached k.noBlades s w := ⟨h.st.noBlades, h.records⟩

theorem Reached.noFans (h : Reached k s w) : Reached k.noFans s w := ⟨h.st.noFans, h.records⟩

theorem Reached.noWaits (h : Reached k s w) : Reached k.noWaits s w := ⟨h.st.noWaits, h.records⟩

/-- The waiting lists match again behind an operation. -/
theorem Reached.withWaits {v : Work} (h : Reached k s w) (hv : Reached k.noWaits s v) (hwaits : w.st.waitsMatch → v.st.waitsMatch) :
    Reached k s v :=
  ⟨hv.st.withWaits fun m c => hwaits (h.st.waits m c), hv.records⟩

theorem Reached.setPort_loose (h : Reached k.noWaits s w) (p : PortRef) (x : Port) : Reached k.noWaits s (w.setPort p x) :=
  h.map _ (kept_setPort_loose (k := k) _ _ _)

theorem Reached.setPort (h : Reached k s w) (p : PortRef) (x : Port) (hx : x.state = (w.st.port p).state := by rfl) :
    Reached k s (w.setPort p x) :=
  h.map _ (kept_setPort _ _ _ hx)

theorem Reached.setZiu (h : Reached k s w) (z : Ziu) (hepoch : z.epoch = w.st.ziu.epoch := by rfl)
    (hswap : z.swap = w.st.ziu.swap := by rfl)
    (hdirty : sparseWf .clean w.st.ziu.dirty = true → sparseWf .clean z.dirty = true := by exact id)
    (howe : ∀ b ∈ z.ackSet, b ∈ w.st.ziu.ackSet := by exact fun _ h => h) : Reached k s (w.setZiu z) :=
  h.map _ (kept_setZiu _ _ hepoch hswap hdirty howe)

theorem Reached.setPbu (h : Reached k s w) (x : Pbu) (hderate : x.derate = w.st.pbu.derate := by rfl)
    (hwait : x.waitList = w.st.pbu.waitList := by rfl) : Reached k s (w.setPbu x) :=
  h.map _ (kept_setPbu _ _ hderate hwait)

end Sys2Proof.Machine
end

section
/-! PROOFS. What every command keeps, continued: the table memory path and the zone images. -/

set_option Elab.async false

namespace Sys2Proof.Machine

variable {k : Scope} {s t : State} {w : Work}

/-! ### Presenting accesses -/

theorem kept_tmcRest (s : State) : Kept k s (tmcRest s) := kept_setTmc _ _

theorem kept_scrubRest (s : State) : Kept k s (scrubRest s) := kept_setTmc _ _

theorem kept_present (s : State) (a : Access) : Kept k s (present s a) := by
  unfold present
  dsimp only
  split
  · exact (kept_setTmc s _).trans (kept_tmcRest _)
  · exact kept_setTmc _ _

theorem kept_presentAll (s : State) (l : List Access) : Kept k s (presentAll s l) := kept_foldl _ kept_present l s

/-- The SWQ's entries change in all but their bytes, and none is added. -/
theorem kept_setEntries (s : State) (l : List SwqEntry) (hlength : l.length ≤ s.swq.entries.length)
    (hbytes : ∀ e ∈ l, ∃ x ∈ s.swq.entries, e.bytes = x.bytes) : Kept k s (s.setSwq { s.swq with entries := l }) := by
  refine kept_setSwq _ _ (fun h => hlength.trans h) ?_
  rintro ⟨hentries, hwaits⟩
  refine ⟨fun e he => ?_, hwaits⟩
  obtain ⟨x, hx, hb⟩ := hbytes e he
  rw [hb]
  exact hentries x hx

theorem kept_swqIssue (s : State) : Kept k s (swqIssue s) := by
  unfold swqIssue
  split
  · exact .refl s
  · next e rest heq =>
    split
    · exact .refl s
    · refine (kept_setEntries s _ (by simp [heq]) ?_).trans (kept_present _ _)
      intro x hx
      rcases List.mem_cons.1 hx with rfl | hx
      · exact ⟨e, by simp [heq], rfl⟩
      · exact ⟨x, by simp [heq, hx], rfl⟩

theorem kept_resumePresentations (s : State) : Kept k s (resumePresentations s) := by
  unfold resumePresentations
  dsimp only
  split
  · exact .refl s
  · refine Kept.trans ?_ (kept_swqIssue _)
    have h1 : Kept k s (presentAll (s.setTmc { s.tmc with parked := [] }) s.tmc.parked) :=
      (kept_setTmc s _).trans (kept_presentAll _ _)
    split
    · exact h1.trans ((kept_setTmc _ _).trans (kept_present _ _))
    · exact h1

theorem kept_clearChannel (s : State) : Kept k s (clearChannel s) := (kept_setTmc s _).trans (kept_tmcRest _)

/-! ### Zone results and the resync pass -/

theorem reached_zoneResult (h : Reached k s w) (r d n) : Reached k s (zoneResult w r d n) := by
  unfold zoneResult
  dsimp only
  split
  · exact h.setZiu _
  · exact (h.setZiu _).raise _ _

theorem reached_resyncPassEnd (h : Reached k s w) : Reached k s (resyncPassEnd w) := by
  have h1 := h.setZiu { w.st.ziu with zone := .idle, copying := none, resyncPos := 4096 }
  exact (reached_zoneResult h1 _ _ _).ite ((reached_zoneResult h1 _ _ _).ite (reached_zoneResult h1 _ _ _))

theorem reached_resyncAdvance (h : Reached k s w) : Reached k s (resyncAdvance w) := by
  unfold resyncAdvance
  dsimp only
  split
  · split
    · exact (h.setZiu _).map _ (kept_present _ _)
    · exact reached_resyncPassEnd h
  · exact h

theorem reached_startResync (h : Reached k s w) : Reached k s (startResync w) :=
  reached_resyncAdvance (h.setZiu { w.st.ziu with zone := .resyncing, resyncPos := 1, copying := none })

theorem reached_testAwait (h : Reached k s w) : Reached k s (testAwait w) := by
  unfold testAwait
  dsimp only
  split
  · exact reached_startResync (h.setZiu _)
  · exact h

theorem reached_leaveAckSet (h : Reached k s w) (b) : Reached k s (leaveAckSet w b) := by
  unfold leaveAckSet
  split
  · exact reached_testAwait (h.setZiu _ rfl rfl id (fun c hc => (List.mem_filter.1 hc).1))
  · exact h

theorem reached_dropInFlight (h : Reached k s w) (b) : Reached k s (dropInFlight w b) :=
  reached_testAwait (h.setZiu { w.st.ziu with inFlight := Vector.put w.st.ziu.inFlight b (w.st.ziu.inFlight.get b - 1) })

theorem kept_withdrawValidator (s : State) : Kept k s (withdrawValidator s) := kept_setTmc _ _

theorem reached_endValidation (h : Reached k s w) : Reached k s (endValidation w) :=
  (h.setZiu { w.st.ziu with zone := .idle, validator := none }).map _ (kept_withdrawValidator _)

theorem reached_validationFails (h : Reached k s w) (r d) : Reached k s (validationFails w r d) :=
  reached_zoneResult (reached_endValidation h) _ _ _

theorem reached_presentValidator (h : Reached k s w) (n l) : Reached k s (presentValidator w n l) := by
  unfold presentValidator
  split
  · exact h.map _ (kept_present _ _)
  · exact h

/-- Turning lines into a state other than CLEAN keeps the dirty map canonical. -/
theorem sparseWf_turnLines (a b : LineState) (hb : b ≠ .clean) : ∀ (l : List (Nat × LineState)) (lo : Nat),
    sparseWfFrom .clean lo l = true → sparseWfFrom .clean lo (turnLines a b l) = true
  | [], _, _ => rfl
  | (i, v) :: rest, lo, h => by
    simp only [sparseWfFrom, Bool.and_eq_true, decide_eq_true_eq] at h
    obtain ⟨⟨hlo, hv⟩, hrest⟩ := h
    have ih := sparseWf_turnLines a b hb rest (i + 1) hrest
    unfold turnLines at ih ⊢
    rw [List.map_cons]
    by_cases e : v = a
    · simp only [e, if_true, sparseWfFrom, Bool.and_eq_true, decide_eq_true_eq]
      exact ⟨⟨hlo, hb⟩, ih⟩
    · simp only [e, if_false, sparseWfFrom, Bool.and_eq_true, decide_eq_true_eq]
      exact ⟨⟨hlo, hv⟩, ih⟩

/-! ### Messages of the links -/

theorem Link.takeOrder_idle {l : Link} (h : l.state = .up) : l.takeOrder.idle := fun hne => absurd (l.takeOrder_kept.state.trans h) hne

theorem Link.orderReady_up {l : Link} (h : l.orderReady = true) : l.state = .up := by
  simp only [Link.orderReady, Bool.and_eq_true, decide_eq_true_eq] at h
  exact h.1.1.1

theorem Link.pump_idle {l : Link} (h : l.idle) : l.pump.idle := by
  unfold Link.pump
  split
  · exact h
  · split
    · exact h
    · split
      · exact h
      · split
        · next hready => exact Link.takeOrder_idle (Link.orderReady_up (Bool.and_eq_true_iff.1 hready).1)
        · split
          · split
            · next hready => exact Link.takeOrder_idle (Link.orderReady_up hready)
            · exact h
          · unfold Link.takeData
            split <;> exact h

theorem kept_pumpLink (s : State) (b : Slot) : Kept k s (pumpLink s b) :=
  kept_setLink _ _ _ (s.link b).pump_kept.state Link.pump_idle

theorem kept_queueNotice (s : State) (e : Nat) (b : Slot) : Kept k s (queueNotice s e b) :=
  (kept_setLink s b _).trans (kept_pumpLink _ b)

theorem kept_queueData (s : State) (b : Slot) (d : FetchData) : Kept k s (queueData s b d) :=
  (kept_setLink s b _).trans (kept_pumpLink _ b)

theorem kept_handOrder (s : State) (b : Slot) (o : Order) : Kept k s (handOrder s b o) := by
  unfold handOrder
  split
  · next hup => exact (kept_setLink s b { s.link b with queue := (s.link b).queue ++ [o] } rfl (fun _ hne => absurd hup hne)).trans (kept_pumpLink _ b)
  · exact .refl s

theorem kept_sendWelcome (s : State) (b : Slot) : Kept k s (sendWelcome s b) :=
  (kept_setLink s b _).trans (kept_pumpLink _ b)

/-! ### The flip and the validator -/

/-- A flip keeps all but the image; the blades that owe then are those with their link UP (R17). -/
theorem reached_flip (hk : ¬k.image) (h : Reached k s w) (z m) : Reached k s (flip w z m) := by
  have hflip : Kept k w.st (w.st.setZiu { w.st.ziu with
      swap := !w.st.ziu.swap, epoch := w.st.ziu.epoch + 1, dirty := turnLines .staged .resync w.st.ziu.dirty, zone := .awaitAck
      ackSet := upSlots w.st, ackAt := some (w.st.now + msec 500), liveZones := z, liveMembers := m
      validator := none, aborting := false }) := by
    refine { Kept.refl w.st with image := fun e => (hk e).elim, canonical := ?_, paired := ?_ }
    · simp only [State.tablesCanonical, Bool.and_eq_true]
      rintro ⟨⟨⟨hm, hk⟩, hd⟩, hc⟩
      exact ⟨⟨⟨hm, hk⟩, sparseWf_turnLines _ _ (by decide) _ 0 hd⟩, hc⟩
    · rintro - ⟨hl, -⟩
      refine ⟨hl, fun b hb => ?_⟩
      have up : (w.st.link b).state = .up := by simpa [upSlots] using hb
      exact up
  exact reached_testAwait (((h.map _ hflip).raise _ _).map _ (kept_foldl _ (fun s b => kept_queueNotice s _ b) _ _))

theorem reached_validateRange (hk : ¬k.image) (h : Reached k s w) (v i) : Reached k s (validateRange w v i) := by
  unfold validateRange
  dsimp only
  split
  · exact reached_flip hk h _ _
  · exact reached_presentValidator (h.setZiu _) _ _

theorem reached_validatorAdvance (hk : ¬k.image) (h : Reached k s w) (v d) : Reached k s (validatorAdvance w v d) := by
  unfold validatorAdvance
  split
  · dsimp only
    split
    · exact reached_presentValidator (h.setZiu _) _ _
    · split
      · exact reached_validationFails h _ _
      · exact reached_validateRange hk h _ _
  · split
    · exact reached_validateRange hk h _ _
    · split
      · exact reached_validationFails h _ _
      · split
        · exact reached_presentValidator (h.setZiu _) _ _
        · exact reached_validateRange hk h _ _

/-! ### Line operations -/

/-- An access to table memory: it stays canonical, and neither its size nor the refresh debt changes. -/
structure TmcAccessed (t u : Tmc) : Prop where
  density : u.density = t.density
  debt : u.debt = t.debt
  mem : t.mem.wf = true → u.mem.wf = true
  marks : sparseWf .clean t.marks = true → sparseWf .clean u.marks = true

theorem TmcAccessed.refl (t : Tmc) : TmcAccessed t t := ⟨rfl, rfl, id, id⟩

theorem TmcAccessed.trans {t u v : Tmc} (h : TmcAccessed t u) (g : TmcAccessed u v) : TmcAccessed t v :=
  ⟨g.density.trans h.density, g.debt.trans h.debt, fun c => g.mem (h.mem c), fun c => g.marks (h.marks c)⟩

/-- A state whose TMC has been accessed. -/
theorem kept_setTmc_accessed (hk : ¬k.memory) (s : State) (x : Tmc) (h : TmcAccessed s.tmc x) : Kept k s (s.setTmc x) := by
  refine { Kept.refl s with density := h.density, memory := fun m => (hk m).elim, canonical := ?_, bounded := ?_ }
  · simp only [State.tablesCanonical, Bool.and_eq_true]
    rintro ⟨⟨⟨hm, hk⟩, hd⟩, hc⟩
    exact ⟨⟨⟨h.mem hm, h.marks hk⟩, hd⟩, hc⟩
  · rintro ⟨hr, hd, hq, hf, ht⟩
    exact ⟨hr, h.debt.trans_le hd, hq, hf, ht⟩

theorem tmcAccessed_setMark (t : Tmc) (line i : Nat) (m : WordMark) : TmcAccessed t (t.setMark line i m) :=
  ⟨rfl, rfl, id, fun h => sparseWf_put WordMark.clean _ _ _ h⟩

theorem tmcAccessed_foldl {α : Type} (f : Tmc → α → Tmc) (hf : ∀ t a, TmcAccessed t (f t a)) : ∀ (l : List α) (t : Tmc),
    TmcAccessed t (l.foldl f t)
  | [], t => .refl t
  | a :: l, t => (hf t a).trans (tmcAccessed_foldl f hf l _)

theorem tmcAccessed_applyFlips (t : Tmc) (line : Nat) (flips : List BitFlip) : TmcAccessed t (t.applyFlips line flips) :=
  tmcAccessed_foldl _ (fun t _ => tmcAccessed_setMark t _ _ _) flips t

theorem tmcAccessed_writeBack (t : Tmc) (line : Nat) : TmcAccessed t (t.writeBack line) := by
  refine tmcAccessed_foldl _ (fun t i => ?_) _ t
  split
  · exact tmcAccessed_setMark _ _ _ _
  · exact tmcAccessed_setMark _ _ _ _
  · exact .refl t

/-- A write-back behind the counts of its access. -/
theorem tmcAccessed_writeBack_counted (t : Tmc) (c u : ErrorCounter) (line : Nat) :
    TmcAccessed t (Tmc.writeBack { t with corrected := c, uncorrectable := u } line) :=
  have h := tmcAccessed_writeBack { t with corrected := c, uncorrectable := u } line
  ⟨h.density, h.debt, h.mem, h.marks⟩

theorem tmcAccessed_defer (t : Tmc) (e : Bank × Nat) : TmcAccessed t (t.defer e) := by
  unfold Tmc.defer
  split
  · exact .refl t
  · exact ⟨rfl, rfl, id, id⟩

section Access

variable (hk : ¬k.memory)
include hk

theorem kept_scrubRead (s : State) (line : Nat) : Kept k s (scrubRead s line) := by
  unfold scrubRead
  split
  · split
    · exact kept_setTmc_accessed hk _ _ (tmcAccessed_defer _ _)
    · exact kept_setTmc_accessed hk _ _ (tmcAccessed_writeBack _ _)
  · exact kept_setTmc_accessed hk _ _ (tmcAccessed_writeBack _ _)

/-- The wrong bits that have come about, and the counts of the access. -/
theorem kept_setTmc_flipped (s : State) (line : Nat) (flips : List BitFlip) (f : Tmc → Tmc) (hf : ∀ t, TmcAccessed t (f t)) :
    Kept k s (s.setTmc (f (s.tmc.applyFlips line flips))) :=
  kept_setTmc_accessed hk _ _ ((tmcAccessed_applyFlips _ _ _).trans (hf _))

theorem kept_lineRead (s : State) (line : Nat) (flips : List BitFlip) : Kept k s (lineRead s line flips).st := by
  have h1 := kept_setTmc_flipped hk s line flips (fun t => { t with corrected := t.corrected.add (t.correctable line) line })
    (fun t => ⟨rfl, rfl, id, id⟩)
  unfold lineRead
  dsimp only
  split
  · exact h1
  · exact h1.trans (kept_scrubRead hk _ _)

theorem kept_patrolRead (s : State) (line : Nat) (flips : List BitFlip) : Kept k s (patrolRead s line flips).st := by
  have h1 := kept_setTmc_flipped hk s line flips (fun t => { t with
      corrected := t.corrected.add (t.correctable line) line
      uncorrectable := t.uncorrectable.add (if t.lineBad line then 1 else 0) line }) (fun t => ⟨rfl, rfl, id, id⟩)
  unfold patrolRead
  dsimp only
  split
  · exact h1
  · exact h1.trans (kept_scrubRead hk _ _)

theorem kept_deferredRead (s : State) (line : Nat) (flips : List BitFlip) : Kept k s (deferredRead s line flips).st := by
  have hflips := tmcAccessed_applyFlips s.tmc line flips
  unfold deferredRead
  dsimp only
  generalize s.tmc.applyFlips line flips = found at hflips ⊢
  split
  · exact kept_setTmc_accessed hk _ _ (hflips.trans ⟨rfl, rfl, id, id⟩)
  · exact kept_setTmc_accessed hk _ _ (hflips.trans (tmcAccessed_writeBack_counted _ _ _ _))

theorem kept_lineWrite (s : State) (line : Nat) (bytes : List (Option Byte)) (flips : List BitFlip) :
    Kept k s (lineWrite s line bytes flips) := by
  have hflips := tmcAccessed_applyFlips s.tmc line flips
  unfold lineWrite
  dsimp only
  generalize s.tmc.applyFlips line flips = found at hflips ⊢
  have hmarks : TmcAccessed found ((List.range 8).foldl (fun t i =>
      t.setMark line i (if wordFull bytes i then .clean else if (t.mark line i).bad then .poison else .clean)) found) :=
    tmcAccessed_foldl _ (fun t i => tmcAccessed_setMark t line i _) _ _
  generalize (List.range 8).foldl (fun t i =>
    t.setMark line i (if wordFull bytes i then .clean else if (t.mark line i).bad then .poison else .clean)) found = marked at hmarks ⊢
  have hbytes : TmcAccessed marked { marked with mem := marked.mem.writeMasked (64 * line) bytes } :=
    ⟨rfl, rfl, Memory.writeMasked_wf _ _ _, id⟩
  exact kept_setTmc_accessed hk _ _ ((hflips.trans hmarks).trans ⟨hbytes.density, hbytes.debt, hbytes.mem, hbytes.marks⟩)

theorem kept_mergeWrite (s : State) (line live : Nat) (bytes : List (Option Byte)) (flips : List BitFlip) :
    Kept k s (mergeWrite s line live bytes flips).1 := by
  have h1 := kept_lineRead hk s live flips
  unfold mergeWrite
  dsimp only
  split
  · exact h1.trans (kept_lineWrite hk _ _ _ _)
  · exact (h1.trans (kept_lineWrite hk _ _ _ _)).trans (kept_lineWrite hk _ _ _ _)

theorem kept_copyLine (s : State) (line live : Nat) (flips : List BitFlip) : Kept k s (copyLine s line live flips).1 := by
  have h1 := kept_lineRead hk s live flips
  unfold copyLine
  dsimp only
  split
  · exact h1
  · exact h1.trans (kept_lineWrite hk _ _ _ _)

theorem kept_carryOut (s : State) (a : Access) (flips : List BitFlip) : Kept k s (carryOut s a flips).st := by
  have hread := kept_lineRead hk s a.line flips
  unfold carryOut
  split
  · dsimp only
    split
    · exact hread.trans (kept_setLink _ _ _)
    · exact hread
  · exact hread
  · exact hread.trans (kept_setTmc _ _)
  · split
    · exact kept_lineWrite hk _ _ _ _
    · dsimp only
      split
      · exact (kept_mergeWrite hk _ _ _ _ _).trans (kept_setTmc _ _)
      · exact kept_mergeWrite hk _ _ _ _ _
  · split
    · exact kept_lineWrite hk _ _ _ _
    · exact .refl s
  · exact hread
  · exact hread
  · exact kept_copyLine hk _ _ _ _
  · exact kept_deferredRead hk _ _ _
  · exact kept_patrolRead hk _ _ _

/-- A grant keeps all but table memory and the condition of its words (R56). -/
theorem kept_grantOnce {flips : List BitFlip} (h : grantOnce s flips = some t) : Kept k s t := by
  have hpaid : ∀ s : State, Kept k s (s.setTmc { s.tmc with debt := s.tmc.debt - 1 }) :=
    fun s => kept_setTmc s _ ⟨rfl, rfl, rfl, fun h => (Nat.sub_le _ _).trans h⟩
  unfold grantOnce at h
  dsimp only at h
  split at h
  · cases h
    split
    · exact hpaid s
    · exact .refl s
  · split at h
    · cases h; exact .refl s
    · have hfree : Kept k s (s.setTmc { s.tmc with inProgress := none }) := kept_setTmc s _
      split at h
      · cases h
        exact (hfree.trans (hpaid _)).trans (kept_tmcRest _)
      · split at h
        · cases h
          exact ((hfree.trans (kept_setTmc _ (Tmc.countGrant _ _))).trans (kept_carryOut hk _ _ _)).trans
            ((kept_setTmc _ _).trans (kept_tmcRest _))
        · cases h
      · cases h
        exact hfree.trans (kept_tmcRest _)

end Access

end Sys2Proof.Machine
end

section
/-! PROOFS. What every operation of the ports keeps of the waiting lists: each entry is a port that waits, and stands once. -/

set_option Elab.async false

namespace Sys2Proof.Machine

variable {s t : State} {w : Work} {p q : PortRef}

/-! ### The lists and the states of their ports -/

/-- Empty lists match. -/
theorem waitsMatch_of_empty (hqueue : ∀ b, s.queue b = []) (hwait : s.pbu.waitList = []) : s.waitsMatch := by
  refine ⟨fun b => ?_, ?_, ?_⟩
  · rw [hqueue]
    exact ⟨nofun, List.nodup_nil⟩
  · rw [hwait]
    exact nofun
  · rw [hwait]
    exact List.nodup_nil

/-- A port that does not wait stands in no list. -/
theorem idlePort_of_waitsMatch (h : s.waitsMatch) (hlicence : (s.port p).state ≠ .waitLicense) (hpower : (s.port p).state ≠ .waitPower) :
    s.idlePort p := by
  obtain ⟨hqueue, hwait, -⟩ := h
  refine ⟨fun e he hp => hlicence ?_, fun e he hp => hpower ?_⟩
  · have := (hqueue p.slot).1 e he
    rw [hp] at this
    exact this
  · rw [← hp]
    exact hwait e he

/-- The waiting lists match, and a port stands in none. -/
structure State.cleared (s : State) (p : PortRef) : Prop where
  waits : s.waitsMatch
  idle : s.idlePort p

theorem State.waitsMatch.cleared (h : s.waitsMatch) (hlicence : (s.port p).state ≠ .waitLicense) (hpower : (s.port p).state ≠ .waitPower) :
    s.cleared p :=
  ⟨h, idlePort_of_waitsMatch h hlicence hpower⟩

/-- The record of a port that stands in no list may take any state. -/
theorem State.cleared.setPort (h : s.cleared p) (x : Port) : (s.setPort p x).cleared p := by
  obtain ⟨⟨hlicence, hpower, honce⟩, hidle⟩ := h
  have hother : ∀ q, q ≠ p → ((s.setPort p x).port q).state = (s.port q).state := fun q hq => by simp [hq]
  refine ⟨⟨fun b => ⟨fun e he => ?_, (hlicence b).2⟩, fun e he => ?_, honce⟩, hidle⟩
  · rw [hother]
    · exact (hlicence b).1 e he
    · rintro rfl
      exact hidle.1 e he rfl
  · rw [hother _ (hidle.2 e he)]
    exact hpower e he

/-- Changes of the BLC are no matter of the lists. -/
theorem State.cleared.handOrder (h : s.cleared p) (b o) : (handOrder s b o).cleared p := by
  unfold Machine.handOrder pumpLink
  split
  · exact ⟨h.waits, h.idle⟩
  · exact h

/-! ### A port that stands in no list -/

theorem cleared_ite {c : Prop} [Decidable c] {v : Work} (hv : v.st.cleared p) (hw : w.st.cleared p) : (if c then v else w).st.cleared p := by
  split
  · exact hv
  · exact hw

theorem waitsMatch_ite {c : Prop} [Decidable c] {v : Work} (hv : v.st.waitsMatch) (hw : w.st.waitsMatch) : (if c then v else w).st.waitsMatch := by
  split
  · exact hv
  · exact hw

theorem waitsMatch_ite_fst {β : Type} {c : Prop} [Decidable c] {v w : Work × β} (hv : v.1.st.waitsMatch) (hw : w.1.st.waitsMatch) :
    (if c then v else w).1.st.waitsMatch := by
  split
  · exact hv
  · exact hw

theorem cleared_toOffline (h : w.st.cleared p) (c) : (toOffline w p c).st.cleared p := by
  unfold toOffline
  dsimp only
  rw [released_st]
  exact h.setPort _

theorem cleared_toShed (h : w.st.cleared p) (c) : (toShed w p c).st.cleared p := by
  have h1 := h.setPort { w.st.port p with state := .shed, cause := c, leaving := .clear }
  unfold toShed
  dsimp only
  rw [raisePort_st]
  exact cleared_ite (v := (w.setPort p { w.st.port p with state := .shed, cause := c, leaving := .clear }).dueRestore)
    (w := w.setPort p { w.st.port p with state := .shed, cause := c, leaving := .clear }) h1 h1

theorem cleared_toGoingDown (h : w.st.cleared p) (c) : (toGoingDown w p c).st.cleared p := by
  have h1 := h.setPort { w.st.port p with state := .goingDown, cause := c, leaving := .clear }
  unfold toGoingDown
  dsimp only
  split
  · exact h1.handOrder _ _
  · exact h1

theorem cleared_toGoingUp (h : w.st.cleared p) (c a) : (toGoingUp w p c a).st.cleared p :=
  (h.setPort { w.st.port p with state := .goingUp, cause := .none, granted := some c }).handOrder _ _

theorem cleared_refusePort (h : w.st.cleared p) (c) : (refusePort w p c).st.cleared p :=
  cleared_ite (v := w) (w := w.setPort p { w.st.port p with cause := c }) h (h.setPort _)

theorem cleared_chargePort (h : w.st.cleared p) (c) : (chargePort w p c).st.cleared p :=
  cleared_ite (cleared_toShed (w := w.setPort p { w.st.port p with granted := some c }) (h.setPort _) _) (cleared_toGoingUp h _ _)

theorem cleared_refuseXd (h : w.st.cleared p) : (refuseXd w p).st.cleared p := h.setPort { w.st.port p with state := .offline, cause := .noXdLicense }

theorem cleared_applyReconfig (h : w.st.cleared p) (o n) : (applyReconfig w p o n).st.cleared p := by
  have h1 := cleared_toGoingUp h n .reconfig
  have h2 : (if n.units < o.units then (toGoingUp w p n .reconfig).dueGrant else toGoingUp w p n .reconfig).st.cleared p :=
    cleared_ite (v := (toGoingUp w p n .reconfig).dueGrant) h1 h1
  exact cleared_ite (v := (if n.units < o.units then (toGoingUp w p n .reconfig).dueGrant else toGoingUp w p n .reconfig).dueRestore) h2 h2

theorem cleared_evaluateOnline (h : w.st.cleared p) : (evaluateOnline w p).st.cleared p := by
  unfold evaluateOnline
  split
  · exact cleared_ite h (cleared_ite (cleared_applyReconfig h _ _)
      (cleared_ite (cleared_applyReconfig h _ _) (cleared_refusePort h _)))
  · exact h

/-! ### Joining and leaving -/

theorem waitsMatch_joinLicence (h : w.st.cleared p) (u) : (joinLicence w p u).st.waitsMatch := by
  obtain ⟨⟨hlicence, hpower, honce⟩, -⟩ := h.setPort { w.st.port p with state := .waitLicense }
  obtain ⟨hqueue, -⟩ := h.idle
  unfold joinLicence
  refine ⟨fun b => ?_, hpower, honce⟩
  rw [Work.map_st, queue_setQueue]
  split
  · next e =>
    subst e
    refine ⟨fun e he => ?_, ?_⟩
    · rcases List.mem_append.1 he with he | he
      · exact (hlicence _).1 e he
      · rw [List.mem_singleton.1 he]
        exact congrArg Port.state ((State.port_setPort _ _ _ _).trans (if_pos rfl))
    · rw [List.map_append, List.nodup_append]
      refine ⟨(hlicence _).2, List.nodup_singleton _, fun a ha c hc e => ?_⟩
      obtain ⟨x, hx, rfl⟩ := List.mem_map.1 ha
      exact hqueue x hx (e.trans (List.mem_singleton.1 hc))
  · exact hlicence b

theorem insertWait_perm (e : PowerWait) : ∀ l : List PowerWait, (insertWait e l).Perm (e :: l)
  | [] => .refl _
  | x :: l => by
    unfold insertWait
    split
    · exact .refl _
    · exact ((insertWait_perm e l).cons x).trans (.swap e x l)

/-- An entry of a port that stands in no list joins the wait list. -/
theorem waitsMatch_insertWait (h : s.waitsMatch) {e : PowerWait} (hfree : ∀ x ∈ s.pbu.waitList, x.port ≠ e.port)
    (hstate : (s.port e.port).state = .waitPower) {y : Pbu} (hy : y.waitList = insertWait e s.pbu.waitList) : (s.setPbu y).waitsMatch := by
  obtain ⟨hlicence, hpower, honce⟩ := h
  refine ⟨hlicence, fun x hx => ?_, ?_⟩
  · rcases mem_insertWait (hy ▸ hx) with rfl | hx
    · exact hstate
    · exact hpower x hx
  · show (y.waitList.map (·.port)).Nodup
    rw [hy, ((insertWait_perm _ _).map _).nodup_iff, List.map_cons, List.nodup_cons]
    refine ⟨fun hm => ?_, honce⟩
    obtain ⟨x, hx, he⟩ := List.mem_map.1 hm
    exact hfree x hx he

theorem waitsMatch_joinPower (h : w.st.cleared p) : (joinPower w p).st.waitsMatch :=
  waitsMatch_insertWait (e := ⟨p, (w.st.port p).priority, w.st.pbu.nextEntry⟩) (h.setPort { w.st.port p with state := .waitPower }).waits h.idle.2
    (congrArg Port.state ((State.port_setPort _ _ _ _).trans (if_pos rfl))) rfl

/-- What leaves a licence queue leaves the match. -/
theorem State.waitsMatch.setQueue (h : s.waitsMatch) (b : Slot) {l : List LicenceEntry} (hl : l.Sublist (s.queue b)) :
    (s.setQueue b l).waitsMatch := by
  obtain ⟨hlicence, hpower, honce⟩ := h
  refine ⟨fun c => ?_, hpower, honce⟩
  rw [queue_setQueue]
  split
  · next e =>
    subst e
    exact ⟨fun e he => (hlicence c).1 e (hl.subset he), (hlicence c).2.sublist (hl.map _)⟩
  · exact hlicence c

theorem State.waitsMatch.leavePower (h : w.st.waitsMatch) (p : PortRef) : (leavePower w p).st.waitsMatch := by
  obtain ⟨hlicence, hpower, honce⟩ := h
  exact ⟨hlicence, fun e he => hpower e (List.mem_filter.1 he).1, honce.sublist (List.filter_sublist.map _)⟩

/-- A port that does not wait for a licence stands in no list behind its leave of the wait list. -/
theorem cleared_leavePower (h : w.st.waitsMatch) (hp : (w.st.port p).state ≠ .waitLicense) : (leavePower w p).st.cleared p := by
  refine ⟨h.leavePower p, fun e he hport => hp ?_, fun e he => of_decide_eq_true (List.mem_filter.1 he).2⟩
  have := (h.1 p.slot).1 e he
  rw [hport] at this
  exact this

/-- A port stands in no list behind its leave of its queue or list. -/
theorem cleared_leaveWait (h : w.st.waitsMatch) : (leaveWait w p).st.cleared p := by
  unfold leaveWait
  split
  · next hs =>
    have hleft : (w.st.setQueue p.slot ((w.st.queue p.slot).filter (fun e => decide (e.port ≠ p.port)))).cleared p := by
      refine ⟨h.setQueue p.slot List.filter_sublist, fun e he => ?_, fun e he hport => ?_⟩
      · rw [queue_setQueue, if_pos rfl] at he
        exact of_decide_eq_true (List.mem_filter.1 he).2
      · have hstate := h.2.1 e he
        rw [hport, hs] at hstate
        cases hstate
    unfold leaveLicence
    dsimp only
    exact cleared_ite (v := Work.dueGrant _) hleft hleft
  · next hs => exact cleared_leavePower h (by rw [hs]; nofun)
  · next hl hp => exact h.cleared hl hp

theorem waitsMatch_reposition (h : w.st.waitsMatch) (hp : (w.st.port p).state = .waitPower) : (reposition w p).st.waitsMatch := by
  unfold reposition
  split
  · exact h
  · next e he =>
    have hport : e.port = p := of_decide_eq_true (List.find?_some (p := fun e : PowerWait => decide (e.port = p)) he)
    exact waitsMatch_insertWait (e := { e with priority := ((leavePower w p).st.port p).priority }) (h.leavePower p)
      (fun x hx hxe => of_decide_eq_true (List.mem_filter.1 hx).2 (hxe.trans hport)) (hport ▸ hp) rfl

/-! ### Admission -/

theorem waitsMatch_decideAdmission (h : w.st.cleared p) (c l r) : (decideAdmission w p c l r).st.waitsMatch :=
  waitsMatch_ite (waitsMatch_ite (cleared_chargePort h _).waits (waitsMatch_joinPower h)) (waitsMatch_joinLicence h _)

theorem waitsMatch_admitPort (h : w.st.cleared p) : (admitPort w p).st.waitsMatch := by
  unfold admitPort
  dsimp only
  split
  · exact h.waits
  · exact waitsMatch_ite (cleared_refuseXd h).waits (waitsMatch_decideAdmission h _ _ _)

theorem waitsMatch_completeMove (h : w.st.cleared p) (l r) : (completeMove w p l r).st.waitsMatch := by
  unfold completeMove
  split
  · exact h.waits
  · exact waitsMatch_ite (cleared_refuseXd h).waits (waitsMatch_decideAdmission h _ _ _)

/-! ### Leaving, restoring and acknowledgements -/

theorem waitsMatch_leavePort (h : w.st.waitsMatch) (c) : (leavePort w p c).st.waitsMatch := by
  unfold leavePort
  split
  · next hs => exact (cleared_toGoingDown (h.cleared (by rw [hs]; nofun) (by rw [hs]; nofun)) _).waits
  · exact h.setPort _
  · exact h

theorem waitsMatch_heatPort (h : w.st.waitsMatch) : (heatPort w p).st.waitsMatch := by
  have hcause : (w.setPort p { w.st.port p with cause := .thermal }).st.waitsMatch := h.setPort _
  unfold heatPort
  dsimp only
  split
  · exact waitsMatch_leavePort h _
  · exact waitsMatch_leavePort h _
  · exact waitsMatch_ite hcause h
  · exact waitsMatch_ite hcause h
  · exact h

theorem waitsMatch_foldl {α : Type} {f : Work → α → Work} (hf : ∀ w a, w.st.waitsMatch → (f w a).st.waitsMatch) :
    ∀ (l : List α) (w : Work), w.st.waitsMatch → (l.foldl f w).st.waitsMatch
  | [], _, h => h
  | a :: l, w, h => waitsMatch_foldl hf l _ (hf w a h)

theorem waitsMatch_heatBlade (h : w.st.waitsMatch) (b) : (heatBlade w b).st.waitsMatch :=
  waitsMatch_foldl (fun _ _ h => waitsMatch_heatPort h) _ _ h

theorem cleared_restorePort (h : w.st.cleared p) : (restorePort w p).st.cleared p := by
  unfold restorePort
  split
  · exact cleared_toGoingUp h _ _
  · exact h

/-- A completed DISABLE of a port that stands in no list. -/
theorem waitsMatch_disableDone (h : w.st.cleared p) (a) : (disableDone w p a).st.waitsMatch := by
  unfold disableDone
  dsimp only
  split
  · exact (cleared_toOffline h _).waits
  · split
    · exact (cleared_toShed h _).waits
    · exact (cleared_toShed h _).waits
    · exact waitsMatch_ite (waitsMatch_admitPort (cleared_toOffline h _)) (cleared_toOffline h _).waits
    · exact (cleared_toOffline h _).waits

theorem cleared_enableDone (h : w.st.cleared p) : (enableDone w p).st.cleared p :=
  cleared_ite (cleared_toGoingDown h _) (cleared_ite (cleared_toGoingDown h _)
    (cleared_evaluateOnline (w := w.setPort p { w.st.port p with state := .online }) (h.setPort _)))

theorem waitsMatch_acknowledge (h : w.st.waitsMatch) (a r) : (acknowledge w p a r).st.waitsMatch := by
  have hcleared : ∀ x, (w.st.port p).state = x → x ≠ .waitLicense → x ≠ .waitPower → w.st.cleared p :=
    fun x hs hl hp => h.cleared (hs ▸ hl) (hs ▸ hp)
  unfold acknowledge
  split
  · next hs => exact (cleared_enableDone (hcleared _ hs nofun nofun)).waits
  · next hs => exact (cleared_enableDone (hcleared _ hs nofun nofun)).waits
  · next hs => exact (cleared_toOffline (hcleared _ hs nofun nofun) _).waits
  · next hs => exact (cleared_toGoingDown (hcleared _ hs nofun nofun) _).waits
  · next hs => exact waitsMatch_disableDone (hcleared _ hs nofun nofun) _
  · next hs => exact waitsMatch_disableDone (hcleared _ hs nofun nofun) _
  · exact h

/-! ### Request words -/

theorem waitsMatch_evaluateOff (h : w.st.waitsMatch) : (evaluateOff w p).st.waitsMatch := by
  unfold evaluateOff
  split
  · exact h
  · exact (cleared_toOffline (cleared_leaveWait h) _).waits
  · exact (cleared_toOffline (cleared_leaveWait h) _).waits
  · exact h
  · next hs => exact (cleared_toGoingDown (h.cleared (by rw [hs]; nofun) (by rw [hs]; nofun)) _).waits
  · exact h
  · next hs => exact (cleared_toOffline (h.cleared (by rw [hs]; nofun) (by rw [hs]; nofun)) _).waits

theorem waitsMatch_evaluateOn (h : w.st.waitsMatch) (c) : (evaluateOn w p c).st.waitsMatch := by
  have hagain : (admitPort ((leaveWait w p).setPort p { w.st.port p with state := .offline }) p).st.waitsMatch :=
    waitsMatch_admitPort (w := (leaveWait w p).setPort p { w.st.port p with state := .offline }) ((cleared_leaveWait h).setPort _)
  unfold evaluateOn
  dsimp only
  split
  · next hs => exact waitsMatch_admitPort (h.cleared (by rw [hs]; nofun) (by rw [hs]; nofun))
  · exact waitsMatch_ite h hagain
  · next hs => exact waitsMatch_ite (waitsMatch_reposition h hs) hagain
  · exact h
  · next hs => exact (cleared_evaluateOnline (h.cleared (by rw [hs]; nofun) (by rw [hs]; nofun))).waits
  · exact h
  · next hs => exact waitsMatch_ite h (cleared_refusePort (h.cleared (by rw [hs]; nofun) (by rw [hs]; nofun)) _).waits

theorem waitsMatch_carryRequest (h : w.st.waitsMatch) (o c) : (carryRequest w p o c).st.waitsMatch := by
  have hcause : ∀ c, (w.setPort p { w.st.port p with cause := c }).st.waitsMatch := fun c => h.setPort _
  unfold carryRequest
  dsimp only
  split
  · exact hcause _
  · split
    · refine waitsMatch_ite (hcause _) ?_
      split
      · next hs => exact (cleared_toOffline (h.cleared (by rw [hs.1]; nofun) (by rw [hs.1]; nofun)) _).waits
      · exact h
    · exact waitsMatch_ite (waitsMatch_evaluateOn h _) (waitsMatch_evaluateOff h)

theorem waitsMatch_requestOn (h : w.st.waitsMatch) (c q n) : (requestOn w p c q n).st.waitsMatch :=
  waitsMatch_carryRequest (w := w.setPort p { w.st.port p with lastSeq := n, desired := true, request := some c, priority := q }) (h.setPort _) _ _

theorem waitsMatch_requestOff (h : w.st.waitsMatch) (n) : (requestOff w p n).st.waitsMatch :=
  waitsMatch_carryRequest (w := w.setPort p { w.st.port p with lastSeq := n, desired := false }) (h.setPort _) _ _

theorem waitsMatch_refusePort (h : w.st.waitsMatch) (c) : (refusePort w p c).st.waitsMatch :=
  waitsMatch_ite (v := w) (w := w.setPort p { w.st.port p with cause := c }) h (h.setPort _)

theorem waitsMatch_requestInvalid (h : w.st.waitsMatch) (n) : (requestInvalid w p n).st.waitsMatch :=
  waitsMatch_refusePort (w := w.setPort p { w.st.port p with lastSeq := n }) (h.setPort _) _

/-! ### A blade's ports as a whole -/

theorem waitsMatch_outOfService (h : w.st.waitsMatch) : (outOfService w p).st.waitsMatch :=
  waitsMatch_ite h (cleared_toOffline (cleared_leaveWait h) _).waits

theorem waitsMatch_bladeOutOfService (h : w.st.waitsMatch) (b) : (bladeOutOfService w b).st.waitsMatch :=
  waitsMatch_foldl (fun _ _ h => waitsMatch_outOfService h) _ _ h

theorem waitsMatch_stopWaiting (h : w.st.waitsMatch) : (stopWaiting w p).st.waitsMatch := by
  unfold stopWaiting
  split
  · exact (cleared_toOffline (cleared_leaveWait h) _).waits
  · exact (cleared_toOffline (cleared_leaveWait h) _).waits
  · exact h

theorem waitsMatch_bladeStopsWaiting (h : w.st.waitsMatch) (b) : (bladeStopsWaiting w b).st.waitsMatch :=
  waitsMatch_foldl (fun _ _ h => waitsMatch_stopWaiting h) _ _ h

theorem waitsMatch_reconcileBeyond (h : w.st.waitsMatch) : (reconcileBeyond w p).st.waitsMatch := by
  have h1 : (if (w.st.port p).state = .offline then w
      else toOffline (leaveWait w p) p (if (w.st.port p).desired then .noSuchPort else .request)).st.waitsMatch :=
    waitsMatch_ite h (cleared_toOffline (cleared_leaveWait h) _).waits
  exact waitsMatch_ite (v := raisePort (Work.setPort _ p _) p .noSuchPort .warn 0) (h1.setPort _) h1

theorem waitsMatch_reconcileStep (h : w.st.waitsMatch) : (reconcileStep w p).st.waitsMatch := by
  have hleft : ∀ c, w.st.cleared p → (if (w.st.port p).desired = true then toShed w p c else toOffline w p .request).st.waitsMatch :=
    fun c hc => waitsMatch_ite (cleared_toShed hc _).waits (cleared_toOffline hc _).waits
  unfold reconcileStep
  dsimp only
  split
  · next hs => exact waitsMatch_disableDone (h.cleared (by rw [hs]; nofun) (by rw [hs]; nofun)) _
  · exact h
  · next hs =>
    have hc : w.st.cleared p := h.cleared (by rw [hs]; nofun) (by rw [hs]; nofun)
    refine waitsMatch_ite (hleft _ hc) (waitsMatch_ite (cleared_toOffline hc _).waits ?_)
    split
    · exact (hc.handOrder _ _).waits
    · exact h
  · next hs =>
    have hc : w.st.cleared p := h.cleared (by rw [hs]; nofun) (by rw [hs]; nofun)
    refine waitsMatch_ite (hleft _ hc) (waitsMatch_ite (cleared_toOffline hc _).waits ?_)
    split
    · exact (cleared_toGoingUp hc _ _).waits
    · exact h
  · exact h

theorem waitsMatch_reconcilePort (h : w.st.waitsMatch) : (reconcilePort w p).st.waitsMatch := by
  have h1 := waitsMatch_reconcileStep (p := p) h
  unfold reconcilePort
  dsimp only
  refine waitsMatch_ite (waitsMatch_reconcileBeyond h) ?_
  split
  · next hs => exact waitsMatch_admitPort (h1.cleared (by rw [hs.1]; nofun) (by rw [hs.1]; nofun))
  · exact h1

theorem waitsMatch_reconcile (h : w.st.waitsMatch) (b) : (reconcile w b).st.waitsMatch :=
  waitsMatch_foldl (fun _ _ h => waitsMatch_reconcilePort h) _ _ h

/-! ### The grant round -/

/-- The head of a queue stands in no list once it has left its queue. -/
theorem waitsMatch_grantHead (h : w.st.waitsMatch) {b : Slot} {e : LicenceEntry} (he : (w.st.queue b).head? = some e) :
    (grantHead w b e).st.waitsMatch := by
  obtain ⟨rest, hq⟩ := List.head?_eq_some_iff.1 he
  refine waitsMatch_completeMove (w := w.map fun s => s.setQueue b (s.queue b).tail) ⟨h.setQueue b (List.tail_sublist _), fun x hx hp => ?_, fun x hx hp => ?_⟩ _ _
  · rw [Work.map_st, queue_setQueue, if_pos rfl, hq] at hx
    have honce := (h.1 b).2
    rw [hq, List.map_cons, List.nodup_cons] at honce
    exact honce.1 (List.mem_map.2 ⟨x, hx, hp⟩)
  · have hlicence := (h.1 b).1 e (by rw [hq]; exact List.mem_cons_self)
    have hpower := h.2.1 x hx
    rw [hp] at hpower
    exact nomatch hlicence.symm.trans hpower

theorem waitsMatch_reservePass (h : w.st.waitsMatch) : (reservePass w).1.st.waitsMatch := by
  unfold reservePass
  suffices H : ∀ (l : List Slot) (acc : Work × Bool), acc.1.st.waitsMatch → (l.foldl reserveStep acc).1.st.waitsMatch from H _ (w, false) h
  intro l
  induction l with
  | nil => exact fun _ h => h
  | cons b l ih =>
    intro acc ha
    refine ih _ ?_
    unfold reserveStep
    split
    · next e he =>
      split
      · exact waitsMatch_grantHead ha he
      · exact ha
    · exact ha

theorem waitsMatch_roundFrom : ∀ (n : Nat) (w : Work), w.st.waitsMatch → (roundFrom n w).st.waitsMatch
  | 0, _, h => h
  | n + 1, w, h => by
    unfold roundFrom
    dsimp only
    split
    · exact waitsMatch_roundFrom n _ (waitsMatch_reservePass h)
    · split
      · exact h
      · next c b _ =>
        have h1 : (w.map fun s => s.setLu { s.lu with counters := c }).st.waitsMatch := h
        split
        · next e he => exact waitsMatch_roundFrom n _ (waitsMatch_grantHead h1 he)
        · exact h1

theorem waitsMatch_grantIfDue (h : w.st.waitsMatch) : (grantIfDue w).st.waitsMatch := by
  have h1 := waitsMatch_roundFrom (w.st.queued + 1) w h
  unfold grantIfDue grantRound
  generalize roundFrom (w.st.queued + 1) w = r at h1 ⊢
  exact waitsMatch_ite (v := { r with grantDue := false }) h1 h

/-! ### The restore process -/

/-- The ports to be restored stand in no list, and a restore puts none there. -/
theorem waitsMatch_restoreShed : ∀ (l : List PortRef) (w : Work), w.st.waitsMatch → (∀ p ∈ l, w.st.idlePort p) →
    (restoreShed l w).1.st.waitsMatch
  | [], _, h, _ => h
  | p :: l, w, h, hl => by
    have hrestored := cleared_restorePort ⟨h, hl p List.mem_cons_self⟩
    have hrest := waitsMatch_restoreShed l _ hrestored.waits fun q hq => by
      by_cases e : q = p
      · exact e ▸ hrestored.idle
      · exact (apart_restorePort (Ne.symm e) w).apart (hl q (List.mem_cons_of_mem _ hq))
    unfold restoreShed
    exact waitsMatch_ite_fst hrest h

/-- Each entry tried leaves the list, and the ports behind it are others. -/
theorem waitsMatch_restoreWaiting : ∀ (l : List PowerWait) (w : Work), w.st.waitsMatch → (∀ e ∈ l, (w.st.port e.port).state = .waitPower) →
    (l.map (·.port)).Nodup → (restoreWaiting l w).st.waitsMatch
  | [], _, h, _, _ => h
  | e :: l, w, h, hl, honce => by
    rw [List.map_cons, List.nodup_cons] at honce
    have hrest : ∀ x ∈ l, (w.st.port x.port).state = .waitPower := fun x hx => hl x (List.mem_cons_of_mem _ hx)
    have hfree : (leavePower w e.port).st.cleared e.port := cleared_leavePower h (by rw [hl e List.mem_cons_self]; nofun)
    unfold restoreWaiting
    refine waitsMatch_ite (waitsMatch_restoreWaiting l w h hrest honce.2)
      (waitsMatch_ite (waitsMatch_restoreWaiting l _ (waitsMatch_completeMove hfree _ _) (fun x hx => ?_) honce.2) h)
    have hne : e.port ≠ x.port := fun heq => honce.1 (List.mem_map.2 ⟨x, hx, heq.symm⟩)
    rw [((apart_leavePower w e.port).trans (apart_completeMove hne _ _ _)).port]
    exact hrest x hx

/-- The ports of the restore order are in SHED. -/
theorem waitsMatch_restorePorts (h : w.st.waitsMatch) : (restoreShed (restoreOrder w.st) w).1.st.waitsMatch :=
  waitsMatch_restoreShed _ w h fun _ hp =>
    idlePort_of_waitsMatch h (by rw [mem_restoreOrder hp]; nofun) (by rw [mem_restoreOrder hp]; nofun)

theorem waitsMatch_restoreWaits (h : w.st.waitsMatch) : (restoreWaiting w.st.pbu.waitList w).st.waitsMatch :=
  waitsMatch_restoreWaiting _ w h h.2.1 h.2.2

end Sys2Proof.Machine
end

section
/-! PROOFS. What every command keeps, continued: the fabric ports, the grant round and the tokens. -/

set_option Elab.async false

namespace Sys2Proof.Machine

variable {k : Scope} {s t : State} {w : Work}

/-! ### Queues and lists -/

theorem kept_setQueue (s : State) (b : Slot) (q : List LicenceEntry) : Kept k.noWaits s (s.setQueue b q) :=
  { Kept.refl s with waits := fun m => m.elim }

theorem kept_setWaitList (s : State) (x : Pbu) (hderate : x.derate = s.pbu.derate := by rfl) : Kept k.noWaits s (s.setPbu x) :=
  { kept_setPbu s { x with waitList := s.pbu.waitList } hderate with waits := fun m => m.elim }

theorem reached_orderPort (h : Reached k.noWaits s w) (p a c) : Reached k.noWaits s (orderPort w p a c) := h.map _ (kept_handOrder _ _ _)

theorem reached_raisePort (h : Reached k.noWaits s w) (p c v a) : Reached k.noWaits s (raisePort w p c v a) := h.raise _ _

theorem reached_released (h : Reached k.noWaits s w) (x) : Reached k.noWaits s (released w x) := by
  have h1 : Reached k.noWaits s (if 0 < x.units then w.dueGrant else w) := h.dueGrant.ite h
  exact h1.dueRestore.ite h1

theorem reached_joinLicence (h : Reached k.noWaits s w) (p u) : Reached k.noWaits s (joinLicence w p u) :=
  (h.setPort_loose p { w.st.port p with state := .waitLicense }).map _ (kept_setQueue _ _ _)

theorem reached_leaveLicence (h : Reached k.noWaits s w) (p) : Reached k.noWaits s (leaveLicence w p) := by
  have h1 := h.map (fun s => s.setQueue p.slot ((w.st.queue p.slot).filter (fun e => decide (e.port ≠ p.port)))) (kept_setQueue _ _ _)
  exact h1.dueGrant.ite h1

theorem reached_joinPower (h : Reached k.noWaits s w) (p) : Reached k.noWaits s (joinPower w p) :=
  (h.setPort_loose p { w.st.port p with state := .waitPower }).map (fun s => s.setPbu { s.pbu with
    waitList := insertWait ⟨p, (w.st.port p).priority, s.pbu.nextEntry⟩ s.pbu.waitList, nextEntry := s.pbu.nextEntry + 1 })
    (kept_setWaitList _ _)

theorem reached_leavePower (h : Reached k.noWaits s w) (p) : Reached k.noWaits s (leavePower w p) := h.map _ (kept_setWaitList _ _)

theorem reached_reposition (h : Reached k.noWaits s w) (p) : Reached k.noWaits s (reposition w p) := by
  unfold reposition
  split
  · exact h
  · exact (reached_leavePower h p).map _ (kept_setWaitList _ _)

theorem reached_leaveWait (h : Reached k.noWaits s w) (p) : Reached k.noWaits s (leaveWait w p) := by
  unfold leaveWait
  split
  · exact reached_leaveLicence h p
  · exact reached_leavePower h p
  · exact h

/-! ### Entering and leaving states -/

theorem reached_toOffline (h : Reached k.noWaits s w) (p c) : Reached k.noWaits s (toOffline w p c) := reached_released (h.setPort_loose p _) _

theorem reached_toShed (h : Reached k.noWaits s w) (p c) : Reached k.noWaits s (toShed w p c) := by
  have h1 := h.setPort_loose p { w.st.port p with state := .shed, cause := c, leaving := .clear }
  exact reached_raisePort (h1.dueRestore.ite h1) _ _ _ _

theorem reached_toGoingDown (h : Reached k.noWaits s w) (p c) : Reached k.noWaits s (toGoingDown w p c) := by
  have h1 := h.setPort_loose p { w.st.port p with state := .goingDown, cause := c, leaving := .clear }
  unfold toGoingDown
  dsimp only
  split
  · exact reached_orderPort h1 _ _ _
  · exact h1

theorem reached_toGoingUp (h : Reached k.noWaits s w) (p c a) : Reached k.noWaits s (toGoingUp w p c a) :=
  reached_orderPort (h.setPort_loose p { w.st.port p with state := .goingUp, cause := .none, granted := some c }) _ _ _

theorem reached_refusePort (h : Reached k.noWaits s w) (p c) : Reached k.noWaits s (refusePort w p c) :=
  reached_raisePort (h.ite (h.setPort_loose p _)) _ _ _ _

theorem reached_chargePort (h : Reached k.noWaits s w) (p c) : Reached k.noWaits s (chargePort w p c) :=
  (reached_toShed (h.setPort_loose p _) _ _).ite (reached_toGoingUp h _ _ _)

theorem reached_refuseXd (h : Reached k.noWaits s w) (p) : Reached k.noWaits s (refuseXd w p) := reached_raisePort (h.setPort_loose p _) _ _ _ _

/-! ### Admission and reconfiguration -/

theorem reached_decideAdmission (h : Reached k.noWaits s w) (p c l q) : Reached k.noWaits s (decideAdmission w p c l q) :=
  ((reached_chargePort h _ _).ite (reached_joinPower h _)).ite (reached_joinLicence h _ _)

theorem reached_admitPort (h : Reached k.noWaits s w) (p) : Reached k.noWaits s (admitPort w p) := by
  unfold admitPort
  dsimp only
  split
  · exact h
  · exact (reached_refuseXd h _).ite (reached_decideAdmission h _ _ _ _)

theorem reached_completeMove (h : Reached k.noWaits s w) (p l q) : Reached k.noWaits s (completeMove w p l q) := by
  unfold completeMove
  split
  · exact h
  · exact (reached_refuseXd h _).ite (reached_decideAdmission h _ _ _ _)

theorem reached_applyReconfig (h : Reached k.noWaits s w) (p o n) : Reached k.noWaits s (applyReconfig w p o n) := by
  have h1 := reached_toGoingUp h p n .reconfig
  have h2 : Reached k.noWaits s (if n.units < o.units then (toGoingUp w p n .reconfig).dueGrant else toGoingUp w p n .reconfig) :=
    h1.dueGrant.ite h1
  exact h2.dueRestore.ite h2

theorem reached_reconfigure (h : Reached k.noWaits s w) (p o n) : Reached k.noWaits s (reconfigure w p o n) :=
  (reached_applyReconfig h _ _ _).ite ((reached_applyReconfig h _ _ _).ite (reached_refusePort h _ _))

theorem reached_evaluateOnline (h : Reached k.noWaits s w) (p) : Reached k.noWaits s (evaluateOnline w p) := by
  unfold evaluateOnline
  split
  · exact h.ite (reached_reconfigure h _ _ _)
  · exact h

/-! ### Leaving, restoring and acknowledgements -/

theorem reached_leavePort_loose (h : Reached k.noWaits s w) (p c) : Reached k.noWaits s (leavePort w p c) := by
  unfold leavePort
  split
  · exact reached_toGoingDown h _ _
  · exact h.setPort_loose p _
  · exact h

theorem reached_heatPort (h : Reached k.noWaits s w) (p) : Reached k.noWaits s (heatPort w p) := by
  unfold heatPort
  dsimp only
  split
  · exact reached_leavePort_loose h _ _
  · exact reached_leavePort_loose h _ _
  · exact (h.setPort_loose p _).ite h
  · exact (h.setPort_loose p _).ite h
  · exact h

theorem reached_heatBlade_loose (h : Reached k.noWaits s w) (b) : Reached k.noWaits s (heatBlade w b) :=
  reached_foldl _ (fun _ p h => reached_heatPort h p) _ _ h

theorem reached_restorePort_loose (h : Reached k.noWaits s w) (p) : Reached k.noWaits s (restorePort w p) := by
  unfold restorePort
  split
  · exact reached_raisePort (reached_toGoingUp h _ _ _) _ _ _ _
  · exact h

theorem reached_disableDone (h : Reached k.noWaits s w) (p a) : Reached k.noWaits s (disableDone w p a) := by
  unfold disableDone
  dsimp only
  split
  · exact reached_toOffline h _ _
  · split
    · exact reached_toShed h _ _
    · exact reached_toShed h _ _
    · exact (reached_admitPort (reached_toOffline h _ _) _).ite (reached_toOffline h _ _)
    · exact reached_toOffline h _ _

theorem reached_enableDone (h : Reached k.noWaits s w) (p) : Reached k.noWaits s (enableDone w p) :=
  (reached_toGoingDown h _ _).ite ((reached_toGoingDown h _ _).ite (reached_evaluateOnline (h.setPort_loose p _) _))

theorem reached_acknowledge_loose (h : Reached k.noWaits s w) (p a r) : Reached k.noWaits s (acknowledge w p a r) := by
  unfold acknowledge
  split
  · exact reached_enableDone h _
  · exact reached_enableDone h _
  · exact reached_raisePort (reached_toOffline h _ _) _ _ _ _
  · exact reached_raisePort (reached_toGoingDown h _ _) _ _ _ _
  · exact reached_disableDone h _ _
  · exact reached_raisePort (reached_disableDone h _ _) _ _ _ _
  · exact h

/-! ### Request words -/

theorem reached_evaluateOff (h : Reached k.noWaits s w) (p) : Reached k.noWaits s (evaluateOff w p) := by
  unfold evaluateOff
  split
  · exact h
  · exact reached_toOffline (reached_leaveWait h _) _ _
  · exact reached_toOffline (reached_leaveWait h _) _ _
  · exact h
  · exact reached_toGoingDown h _ _
  · exact h
  · exact reached_toOffline h _ _

theorem reached_evaluateOn (h : Reached k.noWaits s w) (p c) : Reached k.noWaits s (evaluateOn w p c) := by
  unfold evaluateOn
  dsimp only
  split
  · exact reached_admitPort h _
  · exact h.ite (reached_admitPort ((reached_leaveWait h _).setPort_loose p _) _)
  · exact (reached_reposition h _).ite (reached_admitPort ((reached_leaveWait h _).setPort_loose p _) _)
  · exact h
  · exact reached_evaluateOnline h _
  · exact h
  · exact h.ite (reached_refusePort h _ _)

theorem reached_carryRequest (h : Reached k.noWaits s w) (p o c) : Reached k.noWaits s (carryRequest w p o c) := by
  unfold carryRequest
  dsimp only
  split
  · exact reached_raisePort (h.setPort_loose p _) _ _ _ _
  · split
    · exact (h.setPort_loose p _).ite ((reached_toOffline h _ _).ite h)
    · exact (reached_evaluateOn h _ _).ite (reached_evaluateOff h _)

theorem reached_requestOn_loose (h : Reached k.noWaits s w) (p c q n) : Reached k.noWaits s (requestOn w p c q n) :=
  reached_carryRequest (h.setPort_loose p _) _ _ _

theorem reached_requestOff_loose (h : Reached k.noWaits s w) (p n) : Reached k.noWaits s (requestOff w p n) :=
  reached_carryRequest (h.setPort_loose p _) _ _ _

theorem reached_requestInvalid_loose (h : Reached k.noWaits s w) (p n) : Reached k.noWaits s (requestInvalid w p n) :=
  reached_refusePort (h.setPort_loose p _) _ _

/-! ### A blade's ports as a whole -/

theorem reached_outOfService (h : Reached k.noWaits s w) (p) : Reached k.noWaits s (outOfService w p) :=
  h.ite (reached_toOffline (reached_leaveWait h _) _ _)

theorem reached_bladeOutOfService_loose (h : Reached k.noWaits s w) (b) : Reached k.noWaits s (bladeOutOfService w b) :=
  reached_foldl _ (fun _ p h => reached_outOfService h p) _ _ h

theorem reached_stopWaiting (h : Reached k.noWaits s w) (p) : Reached k.noWaits s (stopWaiting w p) := by
  unfold stopWaiting
  split
  · exact reached_toOffline (reached_leaveWait h _) _ _
  · exact reached_toOffline (reached_leaveWait h _) _ _
  · exact h

theorem reached_bladeStopsWaiting_loose (h : Reached k.noWaits s w) (b) : Reached k.noWaits s (bladeStopsWaiting w b) :=
  reached_foldl _ (fun _ p h => reached_stopWaiting h p) _ _ h

theorem reached_reconcileBeyond (h : Reached k.noWaits s w) (p) : Reached k.noWaits s (reconcileBeyond w p) := by
  have h1 : Reached k.noWaits s (if (w.st.port p).state = .offline then w
      else toOffline (leaveWait w p) p (if (w.st.port p).desired then .noSuchPort else .request)) :=
    h.ite (reached_toOffline (reached_leaveWait h _) _ _)
  exact (reached_raisePort (h1.setPort_loose p _) _ _ _ _).ite h1

theorem reached_reconcileStep (h : Reached k.noWaits s w) (p) : Reached k.noWaits s (reconcileStep w p) := by
  have hleft : ∀ c, Reached k.noWaits s (if (w.st.port p).desired = true then toShed w p c else toOffline w p .request) :=
    fun c => (reached_toShed h _ _).ite (reached_toOffline h _ _)
  unfold reconcileStep
  dsimp only
  split
  · exact reached_disableDone h _ _
  · exact h
  · refine (hleft _).ite ((reached_toOffline h _ _).ite ?_)
    split
    · exact reached_orderPort h _ _ _
    · exact h
  · refine (hleft _).ite ((reached_toOffline h _ _).ite ?_)
    split
    · exact reached_toGoingUp h _ _ _
    · exact h
  · exact h

theorem reached_reconcilePort (h : Reached k.noWaits s w) (p) : Reached k.noWaits s (reconcilePort w p) :=
  (reached_reconcileBeyond h _).ite ((reached_admitPort (reached_reconcileStep h _) _).ite (reached_reconcileStep h _))

theorem reached_reconcile_loose (h : Reached k.noWaits s w) (b) : Reached k.noWaits s (reconcile w b) :=
  reached_foldl _ (fun _ p h => reached_reconcilePort h p) _ _ h

/-! ### The grant round -/

theorem reached_grantHead (h : Reached k.noWaits s w) (b e) : Reached k.noWaits s (grantHead w b e) :=
  reached_completeMove (h.map _ (kept_setQueue _ _ _)) _ _ _

theorem reached_reservePass (h : Reached k.noWaits s w) : Reached k.noWaits s (reservePass w).1 := by
  unfold reservePass
  suffices H : ∀ (l : List Slot) (acc : Work × Bool), Reached k.noWaits s acc.1 → Reached k.noWaits s (l.foldl reserveStep acc).1 from H _ (w, false) h
  intro l
  induction l with
  | nil => exact fun _ h => h
  | cons b l ih =>
    intro acc ha
    refine ih _ ?_
    unfold reserveStep
    split
    · exact Reached.ite_fst (v := (_, _)) (reached_grantHead ha _ _) ha
    · exact ha

theorem reached_roundFrom : ∀ (n : Nat) (w : Work), Reached k.noWaits s w → Reached k.noWaits s (roundFrom n w)
  | 0, _, h => h
  | n + 1, w, h => by
    unfold roundFrom
    dsimp only
    split
    · exact reached_roundFrom n _ (reached_reservePass h)
    · split
      · exact h
      · have h1 : ∀ c, Reached k.noWaits s (w.map fun s => s.setLu { s.lu with counters := c }) := fun c => h.map _ (kept_setLu _ _)
        split
        · exact reached_roundFrom n _ (reached_grantHead (h1 _) _ _)
        · exact h1 _

theorem reached_grantRound (h : Reached k.noWaits s w) : Reached k.noWaits s (grantRound w) := by
  have h1 := reached_roundFrom (w.st.queued + 1) w h
  unfold grantRound
  generalize roundFrom (w.st.queued + 1) w = r at h1 ⊢
  exact ⟨h1.st, h1.records⟩

theorem reached_grantIfDue_loose (h : Reached k.noWaits s w) : Reached k.noWaits s (grantIfDue w) := (reached_grantRound h).ite h

/-! ### The waiting lists match again -/

theorem reached_leavePort (h : Reached k s w) (p c) : Reached k s (leavePort w p c) :=
  h.withWaits (reached_leavePort_loose h.noWaits _ _) fun c => waitsMatch_leavePort c _

theorem reached_heatBlade (h : Reached k s w) (b) : Reached k s (heatBlade w b) :=
  h.withWaits (reached_heatBlade_loose h.noWaits _) fun c => waitsMatch_heatBlade c _

theorem reached_acknowledge (h : Reached k s w) (p a r) : Reached k s (acknowledge w p a r) :=
  h.withWaits (reached_acknowledge_loose h.noWaits _ _ _) fun c => waitsMatch_acknowledge c _ _

theorem reached_requestOn (h : Reached k s w) (p c q n) : Reached k s (requestOn w p c q n) :=
  h.withWaits (reached_requestOn_loose h.noWaits _ _ _ _) fun c => waitsMatch_requestOn c _ _ _

theorem reached_requestOff (h : Reached k s w) (p n) : Reached k s (requestOff w p n) :=
  h.withWaits (reached_requestOff_loose h.noWaits _ _) fun c => waitsMatch_requestOff c _

theorem reached_requestInvalid (h : Reached k s w) (p n) : Reached k s (requestInvalid w p n) :=
  h.withWaits (reached_requestInvalid_loose h.noWaits _ _) fun c => waitsMatch_requestInvalid c _

theorem reached_bladeOutOfService (h : Reached k s w) (b) : Reached k s (bladeOutOfService w b) :=
  h.withWaits (reached_bladeOutOfService_loose h.noWaits _) fun c => waitsMatch_bladeOutOfService c _

theorem reached_bladeStopsWaiting (h : Reached k s w) (b) : Reached k s (bladeStopsWaiting w b) :=
  h.withWaits (reached_bladeStopsWaiting_loose h.noWaits _) fun c => waitsMatch_bladeStopsWaiting c _

theorem reached_reconcile (h : Reached k s w) (b) : Reached k s (reconcile w b) :=
  h.withWaits (reached_reconcile_loose h.noWaits _) fun c => waitsMatch_reconcile c _

theorem reached_grantIfDue (h : Reached k s w) : Reached k s (grantIfDue w) :=
  h.withWaits (reached_grantIfDue_loose h.noWaits) fun c => waitsMatch_grantIfDue c

/-! ### Tokens and floors -/

/-- A change of the LU that leaves the reserves and takes no floor down, with the program in progress above its floor. -/
theorem kept_setLu_floors (s : State) (x : Lu) (hreserves : x.reserves = s.lu.reserves)
    (hfloors : s.programAbove → (∀ f, (s.lu.feature f).floor ≤ (x.feature f).floor) ∧ (s.setLu x).programAbove)
    (hqueues : x.queues = s.lu.queues) : Kept k s (s.setLu x) :=
  { Kept.refl s with
    waits := fun _ => waitsMatch_congr (fun b => congrArg (fun q => Vector.get q b) hqueues) rfl (fun _ => rfl)
    armed := fun h => ⟨h, rfl, hreserves⟩, floors := hfloors }

theorem reached_setSlot (h : Reached k s w) (i x) : Reached k s (setSlot w i x) := h.map _ (kept_setLu _ _)

theorem reached_tokenDone (h : Reached k s w) (i r d) : Reached k s (tokenDone w i r d) := (reached_setSlot h _ _).raise _ _

theorem reached_grantOnRise (h : Reached k s w) (n) : Reached k s (grantOnRise n w) := h.dueGrant.ite h

@[simp] theorem Lu.feature_setFeature (l : Lu) (f g : Feature) (x : FeatureState) :
    (l.setFeature f x).feature g = if g = f then x else l.feature g := by
  cases f <;> cases g <;> rfl

@[simp] theorem Lu.setFeature_program (l : Lu) (f : Feature) (x : FeatureState) : (l.setFeature f x).program = l.program := by
  cases f <;> rfl

@[simp] theorem Lu.setFeature_reserves (l : Lu) (f : Feature) (x : FeatureState) : (l.setFeature f x).reserves = l.reserves := by
  cases f <;> rfl

@[simp] theorem Lu.setFeature_queues (l : Lu) (f : Feature) (x : FeatureState) : (l.setFeature f x).queues = l.queues := by
  cases f <;> rfl

theorem reached_entitle (h : Reached k s w) (f u) : Reached k s (entitle w f u) := by
  refine h.map _ (kept_setLu _ _ (by simp) (by simp) (fun g => ?_) (Lu.setFeature_queues _ _ _))
  by_cases e : g = f
  · subst e; simp
  · simp [e]

/-- A token that is to be programmed carries a sequence above the floor of its feature (R118). -/
theorem floor_lt_of_programs {tok : Token} {f : Feature} (h : judgeToken s tok = .programs f) :
    (s.lu.feature f).floor < tok.sequence := by
  unfold judgeToken at h
  split at h
  · simp at h
  · split at h
    · simp at h
    · split at h
      · simp at h
      · unfold judgeSequence at h
        dsimp only at h
        split at h
        · simp at h
        · next hlt =>
          split at h
          · simp at h
          · split at h
            · simp at h
            · split at h
              · simp at h
              · next hne =>
                cases h
                omega

theorem reached_actOnToken (h : Reached k s w) (i tok) : Reached k s (actOnToken w i tok) := by
  have h1 := reached_setSlot h i { w.st.lu.slots.get i with feature := tok.feature, units := tok.units, tokenSeq := tok.sequence }
  unfold actOnToken
  dsimp only
  split
  · exact reached_tokenDone h1 _ _ _
  · exact reached_grantOnRise (reached_tokenDone (reached_entitle h1 _ _) _ _ _) _
  · next f heq =>
    refine (reached_setSlot h1 i _).map _ (kept_setLu_floors _ _ rfl (fun _ => ⟨fun _ => Nat.le_refl _, ?_⟩) rfl)
    intro p hp
    cases hp
    exact floor_lt_of_programs heq

/-- Writing a cell leaves the floors. -/
theorem writeCell_floor (l : Lu) (p : Program) (v : Bool) (f : Feature) : ((writeCell l p v).feature f).floor = (l.feature f).floor := by
  unfold writeCell
  by_cases e : f = p.feature
  · subst e; simp
  · simp [e]

theorem writeCell_reserves (l : Lu) (p : Program) (v : Bool) : (writeCell l p v).reserves = l.reserves := by simp [writeCell]

theorem writeCell_queues (l : Lu) (p : Program) (v : Bool) : (writeCell l p v).queues = l.queues := Lu.setFeature_queues _ _ _

/-- The end of a program: the floor takes the program's sequence, which lies above it, or stays (R120). -/
theorem reached_programDone {p : Program} (h : Reached k s w) (hp : w.st.lu.program = some p) (v) :
    Reached k s (programDone w p v) := by
  have hcell : Reached k s (w.map fun s => s.setLu { writeCell s.lu p v with program := none }) :=
    h.map _ (kept_setLu_floors _ _ (writeCell_reserves _ _ _)
      (fun _ => ⟨fun f => (writeCell_floor w.st.lu p v f).ge, fun _ he => by simp at he⟩) (writeCell_queues _ _ _))
  unfold programDone
  dsimp only
  split
  · refine reached_grantOnRise (reached_tokenDone (reached_entitle ?_ _ _) _ _ _) _
    refine ⟨h.st.trans (kept_setLu_floors w.st _ (by simp [writeCell_reserves]) (fun above => ?_)
      ((Lu.setFeature_queues _ _ _).trans (writeCell_queues _ _ _))), h.records⟩
    refine ⟨fun f => ?_, fun _ he => by simp at he⟩
    by_cases e : f = p.feature
    · subst e
      simpa using (above p hp).le
    · have hf := writeCell_floor w.st.lu p v f
      simp only [Lu.feature_setFeature, e, if_false]
      exact hf.ge
  · exact reached_grantOnRise (reached_tokenDone hcell _ _ _) _

end Sys2Proof.Machine
end

section
/-! PROOFS. What every command keeps, continued: blades with their links, the budget, the restore process and HOLD. -/

set_option Elab.async false

namespace Sys2Proof.Machine

variable {k : Scope} {s t : State} {u v w : Work} {b : Slot}

/-! ### Blades with their links -/

/-- Work in which one slot's link and blade have still to come together again. -/
structure Loose (b : Slot) (v w : Work) : Prop where
  reached : ∀ {k : Scope} {s : State}, Reached k s v → Reached k.noBlades s w
  only : OnlySlot b v.st w.st

theorem Loose.refl (b : Slot) (w : Work) : Loose b w w := ⟨Reached.noBlades, .refl _ _⟩

theorem Loose.trans (h : Loose b u v) (g : Loose b v w) : Loose b u w := ⟨fun {k} {_} r => g.reached (k := k.noBlades) (h.reached r), h.only.trans g.only⟩

/-- A link and its blade have come together: what the work has kept apart from them, it has kept. -/
theorem Loose.close (h : Loose b v w) (hv : Reached k s v) (hpower : w.st.powerFollows b)
    (hlink : v.st.paired → w.st.linkFollows b) (howe : v.st.paired → b ∈ w.st.ziu.ackSet → (w.st.link b).state = .up) :
    Reached k s w := by
  have hw := h.reached hv
  refine ⟨hw.st.withBlades (fun m c => h.only.powered hpower (hv.st.powered m c)) (fun m c => ?_), hw.records⟩
  have c' := hv.st.paired m c
  exact h.only.paired (hlink c') (howe c') c'

theorem kept_setLink_loose (s : State) (b : Slot) (l : Link) (hidle : (s.link b).idle → l.idle) : Kept k.noBlades s (s.setLink b l) :=
  { Kept.refl s with powered := fun m => m.elim, paired := fun m => m.elim, idle := idle_setLink hidle }

theorem kept_setBlade_loose (s : State) (b : Slot) (x : Blade) : Kept k.noBlades s (s.setBlade b x) :=
  { Kept.refl s with powered := fun m => m.elim, paired := fun m => m.elim }

theorem Loose.setLink (h : Loose b v w) (l : State → Link) (hidle : (w.st.link b).idle → (l w.st).idle) :
    Loose b v (w.map fun s => s.setLink b (l s)) :=
  ⟨fun r => (h.reached r).map (fun s => s.setLink b (l s)) (kept_setLink_loose _ _ _ hidle), h.only.setLink _⟩

theorem Loose.setBlade (h : Loose b v w) (x : Blade) : Loose b v (w.setBlade b x) :=
  ⟨fun r => (h.reached r).map (fun s => s.setBlade b x) (kept_setBlade_loose _ _ _), h.only.setBlade x⟩

theorem Loose.moveBlade (h : Loose b v w) (x : Blade) : Loose b v (moveBlade w b x) := by
  have h1 := h.setBlade { x with powerEn := x.state.powered }
  unfold Machine.moveBlade
  dsimp only
  split
  · exact h1
  · exact ⟨fun r => (h1.reached r).raise _ _, h1.only⟩

/-- The power enable of a blade that has moved follows its state (R84). -/
theorem moveBlade_powerFollows (w : Work) (b : Slot) (x : Blade) : (moveBlade w b x).st.powerFollows b := by
  simp [State.powerFollows, moveBlade_st]

/-- A blade moves between states that go with the same states of its link. -/
theorem reached_moveBlade (h : Reached k s w) (x : Blade)
    (hstate : ∀ l, follows l (w.st.blade b).state = true → follows l x.state = true) : Reached k s (moveBlade w b x) := by
  refine ((Loose.refl b w).moveBlade x).close h (moveBlade_powerFollows w b x) (fun ⟨hl, _⟩ => ?_) (fun ⟨_, ho⟩ => ?_)
  · have := hl b
    rw [linkFollows_iff] at this ⊢
    simpa [moveBlade_st] using hstate _ this
  · simpa [moveBlade_st] using ho b

/-! ### The work of a link abandoned -/

/-- A link whose work has been abandoned holds no order, whatever state it is given. -/
theorem Link.emptied_free (l : Link) : l.emptied.queue = [] ∧ ∀ tag, l.emptied.orders.get tag = none :=
  ⟨rfl, fun tag => Vector.get_replicate 8 none tag⟩

theorem Link.emptied_idle (l : Link) : l.emptied.idle := fun _ => l.emptied_free

theorem reached_abandonLink (h : Reached k s w) (b : Slot) : Reached k s (abandonLink w b) := by
  have h1 : Reached k s (w.map fun s => s.setTmc { s.tmc with
      presented := w.st.tmc.presented.filter (fun a => !a.ofSlot b), parked := w.st.tmc.parked.filter (fun a => !a.ofSlot b)
      inProgress := abandonInProgress w.st b }) := h.map _ (kept_setTmc _ _)
  exact reached_leaveAckSet (reached_foldl _ (fun _ c h => reached_dropInFlight h c) _ _
    (h1.map (fun s => s.setLink b (s.link b).emptied) (kept_setLink _ b _ rfl (fun _ => Link.emptied_idle _)))) b

theorem Abandoned.pau {s t : State} (h : Abandoned b s t) : t.pau = s.pau := by rw [h.rest]

theorem Loose.abandonLink (h : Loose b v w) : Loose b v (abandonLink w b) := by
  have ha := abandonLink_abandoned w b
  refine h.trans ⟨fun r => (reached_abandonLink r b).noBlades, fun c e => ?_, fun c _ => ?_, fun c m => ?_⟩
  · rw [ha.link c, if_neg e]
  · rw [State.blade, ha.pau]; rfl
  · rw [ha.ackSet] at m
    exact (List.mem_filter.1 m).1

/-- An abandoned link's blade owes nothing. -/
theorem abandonLink_free (w : Work) (b : Slot) : b ∉ (abandonLink w b).st.ziu.ackSet := by
  rw [(abandonLink_abandoned w b).ackSet]
  simp

theorem stopLink_of_down (h : (w.st.link b).state = .down) : stopLink w b = w := by
  unfold stopLink
  rw [if_pos h]

theorem stopLink_of_not_down (h : (w.st.link b).state ≠ .down) :
    stopLink w b = (abandonLink w b).map (fun s => s.setLink b (s.link b).downed) := by
  unfold stopLink
  rw [if_neg h]

theorem Loose.stopLink (h : Loose b v w) : Loose b v (stopLink w b) := by
  by_cases e : (w.st.link b).state = .down
  · rwa [stopLink_of_down e]
  · rw [stopLink_of_not_down e]
    exact h.abandonLink.setLink (fun s => (s.link b).downed) (fun _ _ => by
      rw [(abandonLink_abandoned w b).link, if_pos rfl]
      exact (w.st.link b).emptied_free)

theorem stopLink_down (w : Work) (b : Slot) : ((stopLink w b).st.link b).state = .down := by
  by_cases e : (w.st.link b).state = .down
  · rwa [stopLink_of_down e]
  · rw [stopLink_of_not_down e]
    simp [Link.downed]

/-- A blade that owes an acknowledgement behind the stop of its link had its link DOWN before it. -/
theorem stopLink_free (w : Work) (b : Slot) (h : b ∈ (stopLink w b).st.ziu.ackSet) :
    (w.st.link b).state = .down ∧ b ∈ w.st.ziu.ackSet := by
  by_cases e : (w.st.link b).state = .down
  · exact ⟨e, by rwa [stopLink_of_down e] at h⟩
  · rw [stopLink_of_not_down e] at h
    exact (abandonLink_free w b h).elim

/-! ### Blades -/

theorem startLink_state (s : State) (b : Slot) (h : (s.link b).state = .down ∨ (s.link b).state = .firstWait) :
    ((startLink s b).link b).state = .firstWait := by
  unfold startLink
  dsimp only
  split
  · simp
  · next e => exact h.resolve_left e

theorem startLink_only (s : State) (b : Slot) : OnlySlot b s (startLink s b) := by
  unfold startLink
  dsimp only
  split
  · exact (OnlySlot.refl b s).setLink _
  · exact .refl b s

theorem kept_startLink_loose (s : State) (b : Slot) : Kept k.noBlades s (startLink s b) := by
  unfold startLink
  dsimp only
  split
  · exact kept_setLink_loose _ _ _ (fun _ _ => (s.link b).emptied_free)
  · exact .refl s

theorem Loose.startLink (h : Loose b v w) : Loose b v (w.map fun s => startLink s b) :=
  ⟨fun r => (h.reached r).map _ (kept_startLink_loose _ _), h.only.trans (startLink_only _ _)⟩

@[simp] theorem startLink_blade (s : State) (b c : Slot) : (startLink s b).blade c = s.blade c := by
  unfold startLink
  dsimp only
  split <;> simp

/-- The blade states from which a blade enters POWERING, and POWERING itself. -/
def BladeState.entersPowering (x : BladeState) : Prop := x = .waitPower ∨ x = .settling ∨ x = .powering

theorem follows_entersPowering {l : LinkState} {x : BladeState} (hx : x.entersPowering) (h : follows l x = true) :
    l = .down ∨ l = .firstWait := by
  rcases hx with rfl | rfl | rfl <;> cases l <;> simp [follows, BladeState.powered] at h ⊢

theorem reached_powerBlade (h : Reached k s w) (hb : (w.st.blade b).state.entersPowering) : Reached k s (powerBlade w b) := by
  have hl := (((Loose.refl b w).moveBlade { w.st.blade b with
    state := .powering, base := w.st.plu.inUse.defaultBase, debounced := false }).startLink)
  have hwait : w.st.paired → (w.st.link b).state = .down ∨ (w.st.link b).state = .firstWait :=
    fun ⟨hf, _⟩ => follows_entersPowering hb ((linkFollows_iff _ _).1 (hf b))
  unfold powerBlade
  refine hl.close h ?_ (fun hp => ?_) (fun hp hm => ?_)
  · simp [State.powerFollows, moveBlade_st]
  · have := startLink_state (moveBlade w b { w.st.blade b with
      state := .powering, base := w.st.plu.inUse.defaultBase, debounced := false }).st b (by simpa [moveBlade_st] using hwait hp)
    rw [linkFollows_iff]
    simp only [Work.map_st, this]
    simp [follows, moveBlade_st]
  · have := hp.2 b (hl.only.owe b hm)
    rcases hwait hp with e | e <;> simp [e] at this

theorem reached_bladePowerCheck (h : Reached k s w) (hb : (w.st.blade b).state = .settling) : Reached k s (bladePowerCheck w b) := by
  unfold bladePowerCheck
  split
  · exact reached_powerBlade h (.inr (.inl hb))
  · refine reached_moveBlade h _ (fun l => ?_)
    rw [hb]
    cases l <;> simp [follows, BladeState.powered]

theorem reached_releaseBase (h : Reached k s w) (n) : Reached k s (releaseBase w n) := h.dueRestore.ite h

/-- A blade enters FAULTED with its link stopped, whatever the link's state has been. -/
theorem reached_faultBlade (hv : Reached k s v) (h : Loose b v w) (hfree : v.st.paired → b ∉ w.st.ziu.ackSet) (c) :
    Reached k s (faultBlade w b c) := by
  unfold faultBlade
  dsimp only
  have h1 : Loose b w (stopLink (w.setBlade b { w.st.blade b with powerEn := false }) b) :=
    ((Loose.refl b w).setBlade _).stopLink
  have hdown := stopLink_down (w.setBlade b { w.st.blade b with powerEn := false }) b
  generalize stopLink (w.setBlade b { w.st.blade b with powerEn := false }) b = w1 at h1 hdown ⊢
  refine reached_bladeOutOfService (reached_releaseBase (((h.trans h1).moveBlade _).close hv
    (moveBlade_powerFollows _ _ _) (fun _ => ?_) (fun hp hm => ?_)) _) b
  · rw [linkFollows_iff]
    simp [moveBlade_st, hdown, follows, BladeState.powered]
  · exact (hfree hp (h1.only.owe b (by simpa [moveBlade_st] using hm))).elim

theorem reached_loseLink (h : Reached k s w) (b c) : Reached k s (loseLink w b c) := by
  have h1 : Loose b w (abandonLink w b) := (Loose.refl b w).abandonLink
  have hfree := abandonLink_free w b
  unfold loseLink
  dsimp only
  have hempty : ((abandonLink w b).st.link b) = (w.st.link b).emptied := by rw [(abandonLink_abandoned w b).link, if_pos rfl]
  generalize abandonLink w b = w1 at h1 hfree hempty ⊢
  have hlose : ((w1.st.link b).lose w1.st.now).idle := fun _ => by
    rw [hempty]
    unfold Link.lose
    split
    · exact (w.st.link b).emptied_free
    · exact (w.st.link b).emptied_free
  have h2 : Loose b w (w1.map fun s => s.setLink b ((s.link b).lose s.now)) := h1.setLink (fun s => (s.link b).lose s.now) (fun _ => hlose)
  split
  · exact reached_faultBlade h h2 (fun _ => hfree) _
  · next hr =>
    refine reached_bladeStopsWaiting ((h2.moveBlade _).close h (moveBlade_powerFollows _ _ _) (fun _ => ?_) (fun _ hm => ?_)) b
    · rw [linkFollows_iff]
      simp [moveBlade_st, Link.lose, hr, follows]
    · exact (hfree (by simpa [moveBlade_st] using hm)).elim

/-- Ports whose optics are forgotten keep their states. -/
theorem forgetOptics_port (s : State) (b : Slot) (p : PortRef) :
    (forgetOptics s b).port p = if p.slot = b then { s.port p with optic := none } else s.port p := by
  unfold forgetOptics State.port
  simp only [State.setPau_pau, Vector.get_put]
  split
  · next e => rw [e]; exact Vector.getElem_map _ p.port.2
  · rfl

theorem kept_forgetOptics (s : State) (b : Slot) : Kept k s (forgetOptics s b) := by
  refine { Kept.refl s with waits := fun _ => waitsMatch_congr (fun _ => rfl) rfl fun p => ?_ }
  rw [forgetOptics_port]
  split <;> rfl

theorem follows_powered {l : LinkState} {x : BladeState} (hx : x.powered = true) (h : follows l x = true) : l ≠ .down := by
  rintro rfl
  simp [follows, hx] at h

theorem reached_removeBlade (h : Reached k s w) (b) : Reached k s (removeBlade w b) := by
  unfold removeBlade
  dsimp only
  refine Reached.map (reached_bladeOutOfService (reached_releaseBase ?_ _) b) _ (kept_forgetOptics _ b)
  split
  · next hpow =>
    have h1 : Loose b w (stopLink (w.setBlade b { w.st.blade b with powerEn := false }) b) :=
      ((Loose.refl b w).setBlade _).stopLink
    have hdown := stopLink_down (w.setBlade b { w.st.blade b with powerEn := false }) b
    have hfree := stopLink_free (w.setBlade b { w.st.blade b with powerEn := false }) b
    generalize stopLink (w.setBlade b { w.st.blade b with powerEn := false }) b = w1 at h1 hdown hfree ⊢
    refine (h1.moveBlade _).close h (moveBlade_powerFollows _ _ _) (fun _ => ?_) (fun hp hm => ?_)
    · rw [linkFollows_iff]
      simp [moveBlade_st, hdown, follows, BladeState.powered]
    · have hd := (hfree (by simpa [moveBlade_st] using hm)).1
      exact (follows_powered hpow ((linkFollows_iff _ _).1 (hp.1 b)) (by simpa using hd)).elim
  · next hpow =>
    refine reached_moveBlade h _ (fun l hl => ?_)
    have hd := (follows_unpowered (by simpa using hpow)).1 hl
    subst hd
    rfl

/-- An accepted HELLO brings a link and its blade UP together (R66, R88). -/
theorem reached_bladeUp (hv : Reached k s v) (h : Loose b v w) (hup : (w.st.link b).state = .up) (p n) :
    Reached k s (bladeUp w b p n) := by
  have h1 := (h.moveBlade { w.st.blade b with state := .up, portCount := some p, cause := .none, base := clampNat 0 8000 n }).close hv
    (moveBlade_powerFollows _ _ _) (fun _ => by rw [linkFollows_iff]; simp [moveBlade_st, hup, follows])
    (fun _ _ => by simpa [moveBlade_st] using hup)
  exact h1.dueRestore.ite h1

/-! ### The budget -/

theorem reached_selectShed (a : Nat) : ∀ (l : List (PortRef × Port)) (n m : Nat) (w : Work), Reached k s w →
    Reached k s (selectShed a l n m w).1
  | [], _, _, _, h => h
  | (p, x) :: l, n, m, w, h => by
    unfold selectShed
    exact Reached.ite_fst (v := (w, m, n)) h (reached_selectShed a l _ _ _ (reached_leavePort h _ _))

theorem reached_raiseBudget (h : Reached k s w) (o n) : Reached k s (raiseBudget w o n) := h.raise _ _

theorem reached_setCritical (h : Reached k s w) (c) : Reached k s (setCritical w c) :=
  h.ite (reached_raiseBudget (h.setPbu _) _ _)

theorem reached_shedSelection (h : Reached k s w) (r) : Reached k s (shedSelection r w) := by
  have h1 := reached_selectShed w.st.pbu.available (shedOrder (shedCandidates w.st r)) w.st.projected 0 w h
  exact reached_setCritical ((reached_raiseBudget h1 _ _).ite h1) _

theorem reached_computeBudget (h : Reached k s w) (r e) : Reached k s (computeBudget r e w) := by
  have h1 := h.setPbu (computeFigures w.st)
  have h2 : Reached k s (if e = true then raiseBudget (w.setPbu (computeFigures w.st)) .holdEnded 0 else w.setPbu (computeFigures w.st)) :=
    (reached_raiseBudget h1 _ _).ite h1
  have h3 : ∀ (c : Prop) [Decidable c] o, Reached k s (if c then raiseBudget
      (if e = true then raiseBudget (w.setPbu (computeFigures w.st)) .holdEnded 0 else w.setPbu (computeFigures w.st)) o 0 else
      (if e = true then raiseBudget (w.setPbu (computeFigures w.st)) .holdEnded 0 else w.setPbu (computeFigures w.st))) :=
    fun _ _ _ => (reached_raiseBudget h2 _ _).ite h2
  unfold computeBudget
  exact (reached_shedSelection (h3 _ _) _).ite (reached_setCritical (h3 _ _) _)

theorem reached_budgetStep (h : Reached k s w) (r) : Reached k s (budgetStep r w) := h.ite (reached_computeBudget h _ _)

/-! ### The restore process -/

theorem powerBlade_state (w : Work) (b c : Slot) :
    ((powerBlade w b).st.blade c).state = if c = b then .powering else (w.st.blade c).state := by
  unfold powerBlade
  by_cases e : c = b
  · subst e; simp [moveBlade_st]
  · simp [moveBlade_st, e]

theorem reached_restoreBlades : ∀ (l : List Slot) (w : Work), (∀ b ∈ l, (w.st.blade b).state.entersPowering) → Reached k s w →
    Reached k s (restoreBlades l w).1
  | [], _, _, h => h
  | b :: l, w, hl, h => by
    unfold restoreBlades
    refine Reached.ite_fst (w := (w, false)) (reached_restoreBlades l _ (fun c hc => ?_) (reached_powerBlade h (hl b (by simp)))) h
    rw [powerBlade_state]
    split
    · exact .inr (.inr rfl)
    · exact hl c (by simp [hc])

theorem reached_restoreShed : ∀ (l : List PortRef) (w : Work), Reached k.noWaits s w → Reached k.noWaits s (restoreShed l w).1
  | [], _, h => h
  | p :: l, w, h => by
    unfold restoreShed
    exact Reached.ite_fst (w := (w, false)) (reached_restoreShed l _ (reached_restorePort_loose h _)) h

theorem reached_restoreWaiting : ∀ (l : List PowerWait) (w : Work), Reached k.noWaits s w → Reached k.noWaits s (restoreWaiting l w)
  | [], _, h => h
  | e :: l, w, h => by
    unfold restoreWaiting
    exact (reached_restoreWaiting l _ h).ite
      ((reached_restoreWaiting l _ (reached_completeMove (reached_leavePower h _) _ _ _)).ite h)

theorem reached_restoreProcess (h : Reached k s w) : Reached k s (restoreProcess w) := by
  have h1 := reached_restoreBlades w.st.bladeWait w (fun b hb => .inl (by simpa [State.bladeWait] using hb)) h
  unfold restoreProcess
  dsimp only
  split
  · have h2 := h1.withWaits (reached_restoreShed (restoreOrder (restoreBlades w.st.bladeWait w).1.st) _ h1.noWaits) waitsMatch_restorePorts
    split
    · exact h2.withWaits (reached_restoreWaiting _ _ h2.noWaits) waitsMatch_restoreWaits
    · exact h2
  · exact h1

theorem reached_restoreDueNow (h : Reached k s w) : Reached k s (restoreDueNow w) :=
  (h.setPbu _).ite (h.ite (reached_restoreProcess h))

theorem reached_restoreIfDue (h : Reached k s w) : Reached k s (restoreIfDue w) := by
  have h1 := reached_restoreDueNow h
  unfold restoreIfDue
  generalize restoreDueNow w = r at h1 ⊢
  exact Reached.ite ⟨h1.st, h1.records⟩ h

/-- What follows an event keeps all that its command keeps (R109, R131, R144). -/
theorem reached_settle (h : Reached k s w) : Reached k s (settle w) :=
  reached_restoreIfDue (reached_grantIfDue (reached_budgetStep h none))

/-! ### HOLD and the power supplies -/

theorem kept_tbpHold (s : State) : Kept k s (tbpHold s) := (kept_setTbp s _).trans (kept_foldl _ (fun s _ => kept_setTbp s _) _ _)

theorem kept_tmcHold (s : State) : Kept k s (tmcHold s) := by
  unfold tmcHold
  split
  · exact .refl s
  · exact (kept_setTmc s _).trans (kept_tmcRest _)

theorem kept_tmcHoldEnd (s : State) : Kept k s (tmcHoldEnd s) :=
  ((kept_setTmc s _).trans (kept_tmcRest _)).trans (kept_resumePresentations _)

theorem reached_declareHold (h : Reached k s w) : Reached k s (declareHold w) :=
  reached_raiseBudget (h.map (fun s => tmcHold (tbpHold (s.setPbu { s.pbu with hold := true })))
    (((kept_setPbu w.st _).trans (kept_tbpHold _)).trans (kept_tmcHold _))) _ _

theorem reached_endHold (h : Reached k s w) : Reached k s (endHold w) := by
  have h1 := h.map (fun s => tmcHoldEnd (s.setPbu { s.pbu with hold := false })) ((kept_setPbu w.st _).trans (kept_tmcHoldEnd _))
  have h2 := reached_computeBudget h1 none true
  unfold endHold
  dsimp only
  generalize computeBudget none true (w.map fun s => tmcHoldEnd (s.setPbu { s.pbu with hold := false })) = w2 at h2 ⊢
  exact h2.ite ((h2.setPbu _).dueRestore.ite h2)

theorem reached_afterPsu (h : Reached k s w) : Reached k s (afterPsu w) :=
  (reached_declareHold h).ite ((reached_restoreIfDue (reached_grantIfDue (reached_endHold h))).ite (reached_settle h))

theorem reached_setPsu (h : Reached k s w) (i x) : Reached k s (setPsu w i x) :=
  h.map (fun s => s.setPbu { s.pbu with psus := Vector.put s.pbu.psus i x }) (kept_setPbu _ _)

theorem reached_movePsu (h : Reached k s w) (i x st) : Reached k s (movePsu w i x st) := by
  have h1 := reached_setPsu h i { x with
    state := st
    graceAt := if st = .inputLost ∧ 0 < w.st.plu.inUse.grace then some (w.st.now + msec w.st.plu.inUse.grace) else none
    expired := decide (st = .inputLost) && decide (w.st.plu.inUse.grace = 0) }
  have h2 : ∀ (c : Prop) [Decidable c] (v : Work) (e : Event), Reached k s v → Reached k s (if c then v else v.raise .pbu e) :=
    fun c _ v e h => h.ite (h.raise _ _)
  have h3 : ∀ (c : Prop) [Decidable c] (v : Work) (e : Event), Reached k s v → Reached k s (if c then v.raise .pbu e else v) :=
    fun c _ v e h => (h.raise _ _).ite h
  exact h3 _ _ _ (h2 _ _ _ h1)

theorem reached_psuEdge (h : Reached k s w) (i e) : Reached k s (psuEdge w i e) := by
  unfold psuEdge
  dsimp only
  split
  · exact reached_afterPsu (reached_movePsu h _ _ _)
  · exact h

end Sys2Proof.Machine
end

section
/-! PROOFS. What every command keeps, continued: fans and temperatures, tunables, arming, and the requests of the table bus. -/

set_option Elab.async false

namespace Sys2Proof.Machine

variable {k : Scope} {s t : State} {w : Work}

/-! ### Fans -/

/-- A change of the FTU that leaves every demand within 100 percent; the fan figures wait for their computation. -/
theorem kept_setFtu_loose (s : State) (x : Ftu) (hdemand : s.bounded → ∀ b, (x.temps.get b).demand ≤ 100 := by exact fun h => h.2.2.2.2) :
    Kept k.noFans s (s.setFtu x) := by
  refine { Kept.refl s with bounded := fun h => ?_, fans := fun m => m.elim }
  have hd := hdemand h
  obtain ⟨hrange, hdebt, hplaces, hderate, -⟩ := h
  exact ⟨hrange, hdebt, hplaces, hderate, hd⟩

/-- The states of the rotors are the same as far as trays and the lost-rotor count go (R150, R151). -/
def SameRotors (f g : Ftu) : Prop :=
  ∀ r, (g.rotors.get r).state.lost = (f.rotors.get r).state.lost ∧ (g.rotors.get r).state.failing = (f.rotors.get r).state.failing

theorem SameRotors.trayNow {f g : Ftu} (h : SameRotors f g) (k : Tray) : g.trayNow k = f.trayNow k := by
  unfold Ftu.trayNow trayFrom
  simp only [(h _).1, (h _).2]

theorem SameRotors.lostNow {f g : Ftu} (h : SameRotors f g) : g.lostNow = f.lostNow := by
  unfold Ftu.lostNow
  simp only [(h _).1]

/-- A change of the FTU that leaves the trays, L and f, and the rotors as far as these go. -/
theorem kept_setFtu (s : State) (x : Ftu) (hdemand : s.bounded → ∀ b, (x.temps.get b).demand ≤ 100 := by exact fun h => h.2.2.2.2)
    (hrotors : SameRotors s.ftu x := by exact fun _ => ⟨rfl, rfl⟩) (htrays : x.trays = s.ftu.trays := by rfl)
    (hlost : x.lost = s.ftu.lost := by rfl) (hderate : x.derate = s.ftu.derate := by rfl) : Kept k s (s.setFtu x) := by
  refine (kept_setFtu_loose s x hdemand).withFans fun _ h => ?_
  obtain ⟨ht, hl, hd, hp⟩ := h
  refine ⟨fun k => ?_, ?_, ?_, hp.trans hderate.symm⟩
  · exact (congrArg (fun v => Vector.get v k) htrays).trans ((ht k).trans (hrotors.trayNow k).symm)
  · exact hlost.trans (hl.trans hrotors.lostNow.symm)
  · exact hderate.trans (hd.trans (by rw [State.setFtu_ftu, hlost]; rfl))

/-- A derate table in range gives a factor of at most 100 percent (R133, R151). -/
theorem derateFor_le {t : Tunables} (h : t.inRange = true) (n : Nat) : derateFor t n ≤ 100 := by
  have hall : t.derate.toList.all (fun v => decide (v ≤ 100)) = true := by
    simp only [Tunables.inRange, Bool.and_eq_true] at h
    grind
  unfold derateFor
  rw [List.getD_eq_getElem?_getD]
  cases e : t.derate.toList[min 4 n]? with
  | none => simp
  | some v => simpa using List.all_eq_true.1 hall v (List.mem_of_getElem? e)

/-- The figures that follow from the rotors, handed to the PBU (R150 to R152). -/
theorem fanConsequences_st (w : Work) (before : Ftu) : (fanConsequences w before).st =
    (w.st.setFtu (w.st.ftu.derived w.st.plu.inUse)).setPbu
      { w.st.pbu with derate := derateFor w.st.plu.inUse w.st.ftu.lostNow } := by
  have hfold : ∀ {α : Type} (f : Work → α → Work), (∀ w a, (f w a).st = w.st) → ∀ (l : List α) (w : Work),
      (l.foldl f w).st = w.st := fun f hf l w => foldlWork_st f hf l w
  unfold fanConsequences
  dsimp only
  rw [Work.setPbu_st, hfold, hfold]
  · rfl
  · intro w r
    split <;> rfl
  · intro w t
    split <;> rfl

theorem fanConsequences_rewrites (w : Work) (before : Ftu) : (fanConsequences w before).rewrites = w.rewrites := by
  have hfold : ∀ {α : Type} (f : Work → α → Work), (∀ w a, (f w a).rewrites = w.rewrites) → ∀ (l : List α) (w : Work),
      (l.foldl f w).rewrites = w.rewrites := by
    intro α f hf l
    induction l with
    | nil => exact fun _ => rfl
    | cons a l ih => exact fun w => (ih _).trans (hf w a)
  unfold fanConsequences
  dsimp only
  refine (hfold _ (fun w t => ?_) _ _).trans ((hfold _ (fun w r => ?_) _ _).trans rfl)
  · split <;> rfl
  · split <;> rfl

/-- The PBU takes a derate factor of at most 100 percent; the fan figures wait for their computation. -/
theorem kept_setPbu_derate (s : State) (n : Nat) (hn : s.bounded → n ≤ 100) :
    Kept k.noFans s (s.setPbu { s.pbu with derate := n }) := by
  refine { Kept.refl s with bounded := fun hb => ?_, fans := fun m => m.elim }
  have hle := hn hb
  obtain ⟨hrange, hdebt, hplaces, -, hdemand⟩ := hb
  exact ⟨hrange, hdebt, hplaces, hle, hdemand⟩

/-- The figures that the rotors and the derate table give, handed to the PBU, follow from them (R150 to R152, R133). -/
theorem fansFollow_derived (s : State) (n : Nat) (hn : n = derateFor s.plu.inUse s.ftu.lostNow) :
    ((s.setFtu (s.ftu.derived s.plu.inUse)).setPbu { s.pbu with derate := n }).fansFollow := by
  have hsame : SameRotors s.ftu (s.ftu.derived s.plu.inUse) := fun _ => ⟨rfl, rfl⟩
  have hlost : (s.ftu.derived s.plu.inUse).lost = s.ftu.lostNow := by simp only [Ftu.derived]
  have hderate : (s.ftu.derived s.plu.inUse).derate = derateFor s.plu.inUse s.ftu.lostNow := by simp only [Ftu.derived]
  refine ⟨fun k => ?_, hlost.trans hsame.lostNow.symm, ?_, hn.trans hderate.symm⟩
  · rw [State.setPbu_ftu, State.setFtu_ftu, hsame.trayNow]
    simp only [Ftu.derived, Vector.get_mapIx]
  · rw [State.setPbu_ftu, State.setFtu_ftu, hlost, hderate]
    rfl

/-- The fan figures follow from the rotors and the derate table again. -/
theorem reached_fanConsequences (h : Reached k.noFans s w) (before) : Reached k s (fanConsequences w before) := by
  refine ⟨Kept.withFans ?_ fun _ _ => ?_, by unfold Work.recordsWhole; rw [fanConsequences_rewrites]; exact h.records⟩
  · rw [fanConsequences_st]
    exact h.st.trans ((kept_setFtu_loose w.st _).trans (kept_setPbu_derate _ _ fun hb => derateFor_le hb.1 _))
  · rw [fanConsequences_st]
    exact fansFollow_derived w.st _ rfl

theorem sameRotors_dutyStep (now : Nat) (f : Ftu) (z : FanZone) : SameRotors f (dutyStep now f z) := by
  intro r
  unfold dutyStep
  rw [Vector.get_mapIx]
  split
  · next h =>
    rcases h.2 with e | e <;> rw [e] <;> exact ⟨rfl, rfl⟩
  · exact ⟨rfl, rfl⟩

theorem kept_zoneStep (s : State) (z : FanZone) : Kept k s (zoneStep s z) := by
  unfold zoneStep
  dsimp only
  split
  · exact kept_setFtu s _ (fun h => h.2.2.2.2) (sameRotors_dutyStep _ _ _)
  · exact kept_setFtu s _

theorem reached_targetStep (h : Reached k s w) : Reached k s (targetStep w) := h.map _ (kept_foldl _ kept_zoneStep _ _)

theorem reached_windowEnd (h : Reached k s w) : Reached k s (windowEnd w) := by
  have h1 := h.noFans.map (fun s => s.setFtu { w.st.ftu with
    rotors := Vector.mapIx w.st.ftu.rotors (fun r x => (x.record
      (expectedMinimum w.st.plu.inUse.ratedSpeed (w.st.ftu.zones.get (zoneOfRotor r)).lowest)).judge w.st.now)
    windowAt := w.st.ftu.windowAt + sec 1 }) (kept_setFtu_loose _ _)
  refine Reached.rewrite ((reached_targetStep (reached_fanConsequences h1 w.st.ftu)).map
    (fun s => s.setFtu { s.ftu with zones := s.ftu.zones.map FanZoneRec.fall }) (kept_setFtu _ _)) _ (by simp)

/-! ### Temperatures -/

/-- A blade's thermal record is replaced by one with a demand of at most 100 percent. -/
theorem reached_setTemp (h : Reached k s w) (b : Slot) (x : BladeTemp) (hx : w.st.bounded → x.demand ≤ 100) :
    Reached k s (setTemp w b x) := by
  refine h.map (fun s => s.setFtu { s.ftu with temps := Vector.put s.ftu.temps b x }) (kept_setFtu _ _ (fun hb c => ?_))
  rw [Vector.get_put]
  split
  · exact hx hb
  · exact hb.2.2.2.2 c

theorem reached_thermalStep (h : Reached k s w) (b) : Reached k s (thermalStep w b) := by
  have h1 := reached_setTemp h b { w.st.ftu.temps.get b with
    thermal := thermalNext (w.st.ftu.temps.get b).thermal (w.st.ftu.temps.get b).input w.st.plu.inUse.warn w.st.plu.inUse.crit }
    (fun hb => hb.2.2.2.2 b)
  exact h.ite ((reached_heatBlade (h1.raise _ _) _).ite ((h1.raise _ _).dueRestore.ite (h1.raise _ _)))

theorem reached_freshStep (h : Reached k s w) (b f) : Reached k s (freshStep w b f) := by
  have h1 := reached_setTemp h b { w.st.ftu.temps.get b with fresh := f, wasFresh := (w.st.ftu.temps.get b).wasFresh || f }
    (fun hb => hb.2.2.2.2 b)
  exact h.ite ((h1.raise _ _).ite h1)

theorem reached_deliverStatus (h : Reached k s w) (b i j) : Reached k s (deliverStatus w b i j) := by
  unfold deliverStatus
  dsimp only
  split
  · exact reached_thermalStep (reached_freshStep (reached_setTemp h b _ (fun hb => demand_compute_le (curve_of_inRange hb.1) _)) _ _) _
  · exact reached_freshStep (reached_setTemp h b { w.st.ftu.temps.get b with
      inlet := some i, hotspot := some j, taken := w.st.now, freshAt := some (w.st.now + sec 3) } (fun hb => hb.2.2.2.2 b)) _ _

theorem reached_forgetTemp (h : Reached k s w) (b) : Reached k s (forgetTemp w b) :=
  reached_setTemp h b .reset (fun _ => Nat.zero_le _)

theorem reached_tempTunables {o n : Tunables} (hn : ∀ i, (n.curve.get i).duty ≤ 100) (h : Reached k s w) (b) :
    Reached k s (tempTunables o n w b) := by
  unfold tempTunables
  dsimp only
  split
  · exact reached_thermalStep (reached_setTemp h b _ (fun _ => demand_compute_le hn _)) _
  · exact reached_setTemp h b _ (fun hb => hb.2.2.2.2 b)

/-- The FTU after a change of tunables; a changed derate table has the fan figures computed (R151). -/
theorem reached_ftuTunables {o n : Tunables} (hn : ∀ i, (n.curve.get i).duty ≤ 100) (h : Reached k.noFans s w)
    (hsame : o.derate = n.derate → Reached k s w) : Reached k s (ftuTunables o n w) := by
  have htemps : ∀ {k : Scope}, Reached k s w → Reached k s (if o.curve ≠ n.curve ∨ o.warn ≠ n.warn ∨ o.crit ≠ n.crit ∨
      o.inletOffset ≠ n.inletOffset then (indices 8).foldl (tempTunables o n) w else w) :=
    fun h => (reached_foldl _ (fun _ b h => reached_tempTunables hn h b) _ _ h).ite h
  unfold ftuTunables
  dsimp only
  split
  · exact reached_fanConsequences (htemps h) _
  · next e => exact htemps (hsame (not_not.1 e))

/-! ### Tunables -/

theorem clampNat_ge (lo hi v : Nat) : lo ≤ clampNat lo hi v := Nat.le_max_left _ _

theorem clampInt_bounds {lo hi : Int} (h : lo ≤ hi) (v : Int) : lo ≤ clampInt lo hi v ∧ clampInt lo hi v ≤ hi := by
  unfold clampInt
  omega

/-- What the policy block gives is brought into its ranges (R171). -/
theorem inRange_ofCopy (m : Memory) : (Tunables.ofCopy m).inRange = true := by
  have htemp : ∀ a, -40 ≤ copyTemp m a ∧ copyTemp m a ≤ 125 := fun a => clampInt_bounds (by decide) _
  simp [Tunables.inRange, Tunables.ofCopy, clampNat_le, clampNat_ge, htemp]

theorem kept_powerBases (s : State) (n : Nat) : Kept k s (powerBases n s) := by
  have hblade : ∀ b, ((powerBases n s).blade b).state = (s.blade b).state ∧ ((powerBases n s).blade b).powerEn = (s.blade b).powerEn := by
    intro b
    have e : (powerBases n s).blade b = if (s.blade b).state = .powering then { s.blade b with base := n } else s.blade b :=
      Vector.getElem_map _ b.2
    rw [e]
    split <;> exact ⟨rfl, rfl⟩
  refine { Kept.refl s with powered := fun _ h b => ?_, paired := fun _ h => ⟨fun b => ?_, h.2⟩ }
  · unfold State.powerFollows
    rw [(hblade b).1, (hblade b).2]
    exact h b
  · have := h.1 b
    rw [linkFollows_iff] at this ⊢
    rw [(hblade b).1]
    exact this

/-- The values in use take values in range; the fan figures wait for the derate table where it changes. -/
theorem kept_setInUse (s : State) (new : Tunables) (hnew : new.inRange = true) :
    Kept k.noFans s (s.setPlu { s.plu with inUse := new }) ∧
    (s.plu.inUse.derate = new.derate → Kept k s (s.setPlu { s.plu with inUse := new })) := by
  have h : Kept k.noFans s (s.setPlu { s.plu with inUse := new }) :=
    { Kept.refl s with bounded := fun hb => ⟨hnew, hb.2⟩, fans := fun m => m.elim }
  refine ⟨h, fun e => h.withFans fun _ hf => ?_⟩
  obtain ⟨ht, hl, hd, hp⟩ := hf
  exact ⟨ht, hl, hd.trans (by unfold derateFor; rw [e]; rfl), hp⟩

theorem reached_coalesceChanged (h : Reached k s w) (o n) : Reached k s (coalesceChanged o n w) :=
  (h.map (fun s => s.setEvu w.st.evu.assert) (kept_setEvu _ _)).ite h

theorem reached_changeTunables (h : Reached k s w) {new : Tunables} (hnew : new.inRange = true) :
    Reached k s (changeTunables new w) := by
  have hin := kept_setInUse (k := k) w.st new hnew
  have hbehind : ∀ {k : Scope}, Reached k s (w.map fun s => s.setPlu { s.plu with inUse := new }) → ∀ (c : Prop) [Decidable c],
      Reached k s (if c then (w.map fun s => s.setPlu { s.plu with inUse := new }).map (powerBases new.defaultBase)
        else w.map fun s => s.setPlu { s.plu with inUse := new }) :=
    fun h c _ => (h.map _ (kept_powerBases _ _)).ite h
  have hfree := hbehind (h.noFans.map _ hin.1) (w.st.plu.inUse.defaultBase ≠ new.defaultBase)
  have hsame := fun e => hbehind (h.map _ (hin.2 e)) (w.st.plu.inUse.defaultBase ≠ new.defaultBase)
  unfold changeTunables
  dsimp only
  split
  · exact h
  · generalize (if w.st.plu.inUse.defaultBase ≠ new.defaultBase then _ else _ : Work) = w2 at hfree hsame ⊢
    have hfree := hfree.dueRestore.ite (c := w2.st.committed < w.st.committed) hfree
    have hsame := fun e => (hsame e).dueRestore.ite (c := w2.st.committed < w.st.committed) (hsame e)
    generalize (if w2.st.committed < w.st.committed then _ else _ : Work) = w3 at hfree hsame ⊢
    exact reached_settle (reached_coalesceChanged (reached_targetStep (reached_ftuTunables (curve_of_inRange hnew)
      (hfree.dueGrant.ite hfree) (fun e => (hsame e).dueGrant.ite (hsame e)))) _ _)

/-- The PLU's copy takes bytes. -/
theorem kept_setCopy (s : State) (a : Nat) (bytes : List (Option Byte)) :
    Kept k s (s.setPlu { s.plu with copy := s.plu.copy.writeMasked a bytes }) := by
  refine { Kept.refl s with canonical := ?_ }
  simp only [State.tablesCanonical, Bool.and_eq_true]
  rintro ⟨h, hc⟩
  exact ⟨h, Memory.writeMasked_wf _ _ _ hc⟩

theorem reached_enterCopy (h : Reached k s w) (a m) : Reached k s (enterCopy w a m) := by
  unfold enterCopy
  dsimp only
  split
  · exact reached_changeTunables (h.map (fun s => s.setPlu { s.plu with copy := w.st.plu.copy.writeMasked a m.flatten })
      (kept_setCopy w.st a m.flatten)) (inRange_ofCopy _)
  · exact h

/-! ### Arming -/

theorem reached_armResult (h : Reached k s w) (r d n) : Reached k s (armResult w r d n) :=
  h.map (fun s => s.setPlu { s.plu with result := r, detail := d, armSeq := n }) (kept_setPlu _ _)

/-- Before a part is ARMED its part state and layout may change. -/
theorem kept_setPlu_unarmed (s : State) (x : Plu) (hpart : s.plu.part ≠ .armed) (hcopy : x.copy = s.plu.copy := by rfl)
    (huse : x.inUse = s.plu.inUse := by rfl) : Kept k s (s.setPlu x) := by
  refine { Kept.refl s with canonical := ?_, bounded := ?_, fans := ?_, armed := fun h => (hpart h).elim }
  · intro h
    simpa [State.tablesCanonical, hcopy] using h
  · rintro ⟨hr, hrest⟩
    exact ⟨by simpa [huse] using hr, hrest⟩
  · rintro - ⟨h1, h2, h3, h4⟩
    exact ⟨h1, h2, by simpa [huse] using h3, h4⟩

theorem reached_beginArming (h : Reached k s w) (hpart : w.st.plu.part ≠ .armed) (n) : Reached k s (beginArming w n) := by
  unfold beginArming
  dsimp only
  split
  · exact reached_armResult (h.map (fun s => s.setPlu { s.plu with part := .armFailed, layout := none })
      (kept_setPlu_unarmed _ _ hpart)) _ _ _
  · exact (reached_armResult (h.map (fun s => s.setPlu { s.plu with
      part := .arming, layout := some (Layout.ofCopy w.st.plu.copy), fill := .filling, started := n })
      (kept_setPlu_unarmed _ _ hpart)) _ _ _).rewrite _ (by simp)

theorem reached_armCommand (h : Reached k s w) (n) : Reached k s (armCommand w n) := by
  unfold armCommand
  split
  · next e => exact reached_beginArming h (by simp [e]) _
  · next e => exact reached_beginArming h (by simp [e]) _
  · exact reached_armResult h _ _ _
  · exact reached_armResult h _ _ _

/-- The units' starting points for the armed part (R170): the image starts anew, and no blade owes an acknowledgement. -/
theorem kept_armUnits (hk : ¬k.image) (s : State) (hpart : s.plu.part ≠ .armed) : Kept k s (armUnits s) := by
  refine { Kept.refl s with
    image := fun m => (hk m).elim, canonical := ?_, bounded := id, paired := ?_, waits := fun _ _ => waitsMatch_of_empty (Vector.get_replicate 8 []) rfl
    armed := fun h => (hpart h).elim, floors := ?_ }
  · simp only [State.tablesCanonical, Bool.and_eq_true]
    rintro ⟨⟨⟨hm, hk⟩, -⟩, hc⟩
    exact ⟨⟨⟨hm, hk⟩, rfl⟩, hc⟩
  · rintro - ⟨hl, -⟩
    exact ⟨hl, fun b hb => by simp [armUnits, Ziu.onArmed, Ziu.reset] at hb⟩
  · intro h
    have hfloor : ∀ f, ((armUnits s).lu.feature f).floor = (s.lu.feature f).floor := fun f => by cases f <;> rfl
    exact ⟨fun f => (hfloor f).ge, fun p hp => by rw [hfloor]; exact h p hp⟩

theorem reached_releaseSettled (h : Reached k s w) (b) : Reached k s (releaseSettled w b) := by
  unfold releaseSettled
  dsimp only
  split
  · next e => exact reached_bladePowerCheck h e.1
  · exact h

theorem reached_enterArmedWork (hk : ¬k.image) (h : Reached k s w) (hpart : w.st.plu.part ≠ .armed) :
    Reached k s (enterArmedWork w) := by
  have h1 := reached_budgetStep (h.map _ (kept_armUnits hk _ hpart)) none
  exact (reached_settle (reached_targetStep (reached_foldl _ (fun _ b h => reached_releaseSettled h b) _ _ h1))).rewrite _ (by simp)

/-! ### Requests of the table bus -/

theorem kept_setTag (s : State) (tag x) : Kept k s (s.setTag tag x) := kept_setTbp _ _

theorem kept_startRead (s : State) (tag l) : Kept k s (startRead s tag l) := (kept_setTmc s _).trans (kept_presentAll _ _)

theorem kept_takeRead (s : State) (tag l) : Kept k s (takeRead s tag l) := by
  unfold takeRead
  dsimp only
  split
  · exact kept_startRead _ _ _
  · exact kept_setTbp _ _

theorem kept_releaseReads (s : State) : Kept k s (releaseReads s) :=
  (kept_setTbp s _).trans (kept_foldl _ (fun s (r : HeldRead) => kept_startRead s r.tag r.lines) _ _)

theorem kept_entryGone (s : State) (id : Nat) : Kept k s (entryGone s id) := (kept_setTbp s _).trans (kept_releaseReads _)

theorem kept_dropParkedCopy (s : State) (n : Nat) : Kept k s (dropParkedCopy s n) := by
  unfold dropParkedCopy
  dsimp only
  split
  · exact (kept_setTmc s _).trans (kept_setZiu _ _)
  · exact .refl s

theorem kept_setLine (s : State) (n : Nat) (x : LineState) : Kept k s (s.setZiu (s.ziu.setLine n x)) :=
  kept_setZiu s _ rfl rfl (fun h => sparseWf_put LineState.clean _ _ _ h)

theorem reached_mapStage (h : Reached k s w) (l) : Reached k s (mapStage w l) := by
  unfold mapStage
  split
  · exact h
  · exact ((reached_validationFails h _ _).ite h).map _
      (kept_foldl _ (fun s n => (kept_dropParkedCopy s n).trans (kept_setLine _ _ _)) _ _)

theorem kept_handWords (s : State) (l) : Kept k s (handWords s l) := kept_setTbp _ _

theorem reached_carryWrite (h : Reached k s w) (tag l) : Reached k s (carryWrite w tag l) := by
  have hcarried : ∀ f : State → State, Kept k w.st (f w.st) →
      Reached k s ((mapStage (w.map f) (bankLines w.st l)).map (fun t => handWords t (l.flatMap (completedWords w.st)))) :=
    fun f hf => (reached_mapStage (h.map f hf) _).map _ (kept_handWords _ _)
  unfold carryWrite
  dsimp only
  split
  · refine reached_enterCopy (hcarried _ ?_) _ _
    exact ((kept_setTmc w.st _).trans (kept_setZiu _ _)).trans (kept_presentAll _ _)
  · refine hcarried _ ?_
    exact ((kept_setTmc w.st _).trans (kept_setZiu _ _)).trans (kept_presentAll _ _)

theorem reached_takeWriteRequest (h : Reached k s w) (tag a n d e) : Reached k s (takeWriteRequest w tag a n d e) :=
  (h.map _ (kept_setTbp w.st _)).ite (reached_resyncAdvance (reached_carryWrite h _ _))

theorem reached_releaseWrites (h : Reached k s w) : Reached k s (releaseWrites w) :=
  reached_foldl _ (fun _ _ h => reached_carryWrite h _ _) _ _ (h.map (fun s => s.setTbp { w.st.tbp with heldWrites := [] }) (kept_setTbp _ _))

theorem reached_readRequest (h : Reached k s w) (tag a n) : Reached k s (readRequest w tag a n) := by
  unfold readRequest
  dsimp only
  split
  · exact h.raiseDirect _
  · split
    · exact h.map _ (kept_setTag _ _ _)
    · split
      · exact h.map _ (kept_setTag _ _ _)
      · exact h.map (fun s => takeRead (acceptTag s tag false a n) tag (lineAddrs a n))
          ((kept_setTag w.st tag _).trans (kept_takeRead _ _ _))

theorem reached_writeRequest (h : Reached k s w) (tag a n d e) : Reached k s (writeRequest w tag a n d e) := by
  unfold writeRequest
  dsimp only
  split
  · exact h.raiseDirect _
  · split
    · exact h.map _ (kept_setTag _ _ _)
    · split
      · exact h.map _ (kept_setTag _ _ _)
      · exact reached_takeWriteRequest (h.map _ (kept_setTag w.st tag _)) _ _ _ _ _

end Sys2Proof.Machine
end

section
/-! PROOFS. What every command keeps, continued: status writes render whole lines, and the publication of a command and the status write
queue keep their entries whole. -/

set_option Elab.async false

namespace Sys2Proof.Machine

variable {k : Scope} {s t : State} {w : Work}

/-! ### Lines of status -/

theorem maskAt_length {n : Nat} {bytes : List Byte} (h : n + bytes.length ≤ 64) : (maskAt n bytes).length = 64 := by
  simp only [maskAt, List.length_append, List.length_replicate, List.length_map]
  omega

theorem overlay_length {a b : List (Option Byte)} (ha : a.length = 64) (hb : b.length = 64) : (overlay a b).length = 64 := by
  simp [overlay, ha, hb]

/-- A record is whole: what is no event record, and an event record of 32 bytes (R162). -/
def StatusItem.whole : StatusItem → Prop
  | .eventRecord _ r => r.length = 32
  | _ => True

theorem StatusItem.whole_iff (item : StatusItem) : item.whole ↔ ∀ n r, item = .eventRecord n r → r.length = 32 := by
  cases item <;> simp [StatusItem.whole]

theorem le1_length (n : Nat) : (le1 n).length = 1 := leBytes_length 1 n

/-- Bytes of one length for each of a list. -/
theorem length_flatMap_of {α β : Type} (n : Nat) (f : α → List β) (hf : ∀ a, (f a).length = n) (l : List α) :
    (l.flatMap f).length = l.length * n := by
  induction l with
  | nil => simp
  | cons a l ih => rw [List.flatMap_cons, List.length_append, hf, ih, List.length_cons, Nat.add_mul, Nat.one_mul, Nat.add_comm]

theorem reserveBytes_length (l : Layout) : l.reserveBytes.length = 16 := by
  rw [Layout.reserveBytes, length_flatMap_of 2 _ (fun n => leBytes_length 2 n)]
  simp

theorem baseBytes_length (l : Layout) : l.baseBytes.length = 21 := by simp [Layout.baseBytes, le1_length]

theorem budgetMask_length (t : Tunables) : t.budgetMask.length = 64 := by
  have hdraw : (t.speedDraw.toList.flatMap (leBytes 2)).length = 8 := by
    rw [length_flatMap_of 2 _ (fun n => leBytes_length 2 n)]
    simp
  exact overlay_length (maskAt_length (by simp [le1_length])) (maskAt_length (by simp [le1_length, hdraw]))

theorem policyMask_length (t : Tunables) : t.policyMask.length = 64 := by
  have hderate : (t.derate.toList.flatMap le1).length = 5 := by
    rw [length_flatMap_of 1 _ le1_length]
    simp
  have hcurve : (t.curve.toList.flatMap (fun b => leBytes 1 (twos 8 b.temp) ++ le1 b.duty)).length = 8 := by
    rw [length_flatMap_of 2 _ (fun b => by simp [le1_length])]
    simp
  have hweights : (t.weights.toList.flatMap le1).length = 8 := by
    rw [length_flatMap_of 1 _ le1_length]
    simp
  exact overlay_length (maskAt_length (by simp [hderate])) (maskAt_length (by simp [le1_length, hcurve, hweights]))

theorem licenceFigureBytes_length (s : State) : s.licenceFigureBytes.length = 24 := by simp [State.licenceFigureBytes]

theorem summaryBytes_length (s : State) : s.summaryBytes.length = 64 := by
  have hslots : ((indices 8).flatMap s.summarySlotBytes).length = 40 := by
    rw [length_flatMap_of 5 _ (fun b => by simp [State.summarySlotBytes])]
    rfl
  simp [State.summaryBytes, licenceFigureBytes_length, hslots]

/-- A status item writes a line of 64 enabled or disabled bytes (R40). -/
theorem render_length {item : StatusItem} {line : Nat} {bytes : List (Option Byte)} (hitem : item.whole)
    (h : render s item = some (line, bytes)) : bytes.length = 64 := by
  cases item with
  | budgetTunables => cases h; exact budgetMask_length _
  | policyTunables => cases h; exact policyMask_length _
  | licenceSummary =>
    obtain ⟨l, -, h⟩ := Option.map_eq_some_iff.1 h
    cases h
    exact maskAt_length (by rw [summaryBytes_length])
  | licenceFigures => cases h; exact maskAt_length (by simp [licenceFigureBytes_length, le1_length])
  | frozenLayout =>
    obtain ⟨l, -, h⟩ := Option.map_eq_some_iff.1 h
    cases h
    exact overlay_length (maskAt_length (by rw [baseBytes_length]; omega)) (maskAt_length (by rw [reserveBytes_length]; omega))
  | layoutBack n =>
    obtain ⟨l, -, h⟩ := Option.map_eq_some_iff.1 h
    split at h <;> cases h
    · exact maskAt_length (by simp [baseBytes_length])
    · exact maskAt_length (by simp [reserveBytes_length])
  | zeroFill n =>
    obtain ⟨l, -, h⟩ := Option.map_eq_some_iff.1 h
    cases h
    simp
  | eventRecord n r =>
    obtain ⟨l, -, h⟩ := Option.map_eq_some_iff.1 h
    cases h
    have hr : r.length = 32 := hitem
    exact maskAt_length (by omega)
  | controlLine =>
    obtain ⟨l, -, h⟩ := Option.map_eq_some_iff.1 h
    cases h
    exact maskAt_length (by simp [Ziu.controlBytes, le1_length])
  | portRecord p =>
    obtain ⟨l, -, h⟩ := Option.map_eq_some_iff.1 h
    cases h
    exact maskAt_length (by simp [Port.recordBytes, le1_length]; omega)
  | tokenSlot n =>
    obtain ⟨l, -, h⟩ := Option.map_eq_some_iff.1 h
    cases h
    exact maskAt_length (by simp [TokenSlot.statusBytes, le1_length])
  | ringHeader =>
    obtain ⟨l, -, h⟩ := Option.map_eq_some_iff.1 h
    cases h
    exact maskAt_length (by simp [Evu.headerBytes])
  | bladeFigures b => cases h; exact maskAt_length (by simp [Blade.bytes, le1_length]; omega)
  | bladeErrors b => cases h; exact maskAt_length (by simp; omega)
  | budgetFigures => cases h; exact maskAt_length (by simp [State.budgetBytes, le1_length])
  | psuRecord i => cases h; exact maskAt_length (by simp [State.psuBytes, le1_length]; omega)
  | rotorRecord r => cases h; exact maskAt_length (by simp [RotorRec.bytes, le1_length]; omega)
  | trayState i => cases h; exact maskAt_length (by simp [le1_length]; omega)
  | lostFigures => cases h; exact maskAt_length (by simp [le1_length])
  | zoneDuties => cases h; exact maskAt_length (by simp [le1_length])
  | bladeThermal b => cases h; exact maskAt_length (by simp [BladeTemp.bytes, le1_length]; omega)
  | partState => cases h; exact maskAt_length (by simp [le1_length])
  | partIdentity => cases h; exact maskAt_length (by simp)
  | uptime => cases h; exact maskAt_length (by simp)

/-- An event record has 32 bytes (Table 11.5-1). -/
theorem recordBytes_length (n time : Nat) (e : Event) : (recordBytes n time e).length = 32 := by simp [recordBytes, le1_length]

/-! ### The entries and the waiting writes -/

/-- Taking a status write leaves what waits, adds at most one entry within the places, and keeps the entries whole. -/
theorem takeWrite_spec {g : Bool} {q r : Swq} {line : Nat} {bytes : List (Option Byte)} (h : takeWrite g q line bytes = some r) :
    r.waiting = q.waiting ∧ (q.entries.length ≤ 64 → r.entries.length ≤ 64) ∧
      (bytes.length = 64 → (∀ e ∈ q.entries, e.bytes.length = 64) → ∀ e ∈ r.entries, e.bytes.length = 64) := by
  have hmerge : ∀ (l m : List SwqEntry), mergeEntry line bytes l = some m → m.length = l.length ∧
      (bytes.length = 64 → (∀ e ∈ l, e.bytes.length = 64) → ∀ e ∈ m, e.bytes.length = 64) := by
    intro l
    induction l with
    | nil => simp [mergeEntry]
    | cons e rest ih =>
      intro m hm
      unfold mergeEntry at hm
      split at hm
      · cases hm
        refine ⟨rfl, fun hb hl x hx => ?_⟩
        rcases List.mem_cons.1 hx with rfl | hx
        · exact overlay_length (hl e (by simp)) hb
        · exact hl x (by simp [hx])
      · obtain ⟨m', hm', rfl⟩ := Option.map_eq_some_iff.1 hm
        obtain ⟨hlen, hwhole⟩ := ih m' hm'
        refine ⟨by simp [hlen], fun hb hl x hx => ?_⟩
        rcases List.mem_cons.1 hx with rfl | hx
        · exact hl x (by simp)
        · exact hwhole hb (fun y hy => hl y (by simp [hy])) x hx
  unfold takeWrite at h
  split at h
  · next es heq =>
    cases h
    obtain ⟨hlen, hwhole⟩ := hmerge _ _ heq
    exact ⟨rfl, fun hq => hlen.trans_le hq, hwhole⟩
  · split at h
    · next hfree =>
      cases h
      have hplace : q.entries.length < 64 := of_decide_eq_true (Bool.and_eq_true_iff.1 hfree).1
      refine ⟨rfl, fun _ => by simpa using hplace, fun hb hl e he => ?_⟩
      rcases List.mem_append.1 he with he | he
      · exact hl e he
      · obtain rfl := List.mem_singleton.1 he
        exact hb
    · cases h

/-- The SWQ takes a status write of a whole line. -/
theorem kept_takeWrite {g : Bool} {q : Swq} {line : Nat} {bytes : List (Option Byte)} (h : takeWrite g s.swq line bytes = some q)
    (u : UnitId) (hb : s.linesWhole → bytes.length = 64) :
    Kept k s (s.setSwq q) ∧ Kept k s (s.setSwq { q with lastServed := u }) := by
  obtain ⟨hwait, hlen, hwhole⟩ := takeWrite_spec h
  have hrecords : ∀ (v : UnitId), q.waits v = s.swq.waits v := fun v => congrArg (fun x => Vector.get x v.index) hwait
  have hlines : ∀ {p : Swq}, p.entries = q.entries → (∀ v, p.waits v = q.waits v) → s.linesWhole → (s.setSwq p).linesWhole := by
    rintro p he hp ⟨hentries, hrec⟩
    refine ⟨fun e hm => hwhole (hb ⟨hentries, hrec⟩) hentries e (he ▸ hm), fun v n x hm => hrec v n x ?_⟩
    rw [← hrecords, ← hp]
    exact hm
  exact ⟨kept_setSwq _ _ hlen (hlines rfl fun _ => rfl), kept_setSwq _ _ hlen (hlines rfl fun _ => rfl)⟩

theorem waits_setWaits (q : Swq) (u v : UnitId) (l : List WaitItem) :
    (q.setWaits u l).waits v = if v = u then l else q.waits v := by
  unfold Swq.setWaits Swq.waits
  rw [Vector.get_put]
  by_cases e : v = u
  · subst e; simp
  · have hne : v.index ≠ u.index := by cases u <;> cases v <;> simp_all [UnitId.index]
    rw [if_neg e, if_neg hne]

/-- A unit's waiting list holds records that waited there before, or whole ones. -/
def WaitsFrom (q : Swq) (u : UnitId) (l : List WaitItem) : Prop :=
  ∀ item, .write item ∈ l → .write item ∈ q.waits u ∨ item.whole

theorem kept_setWaits (s : State) (u : UnitId) (l : List WaitItem) (h : WaitsFrom s.swq u l) :
    Kept k s (s.setSwq (s.swq.setWaits u l)) := by
  refine kept_setSwq _ _ id ?_
  rintro ⟨hentries, hrec⟩
  refine ⟨hentries, fun v n r hm => ?_⟩
  rw [State.setSwq_swq, waits_setWaits] at hm
  split at hm
  · next e =>
    subst e
    rcases h _ hm with hm | hw
    · exact hrec v n r hm
    · exact hw
  · exact hrec v n r hm

theorem waitsFrom_self (q : Swq) (u : UnitId) : WaitsFrom q u (q.waits u) := fun _ h => .inl h

theorem waitsFrom_append {q : Swq} {u : UnitId} {l m : List WaitItem} (hl : WaitsFrom q u l) (hm : WaitsFrom q u m) :
    WaitsFrom q u (l ++ m) := fun item h => (List.mem_append.1 h).elim (hl item) (hm item)

theorem kept_fillFrom : ∀ (n : Nat) (s : State) (i : Nat), Kept k s (fillFrom n s i)
  | 0, s, i => kept_setWaits s _ _ (waitsFrom_append (waitsFrom_self _ _) fun item h => by
      obtain rfl : item = .zeroFill i := by simpa using h
      exact .inr trivial)
  | n + 1, s, i => by
    unfold fillFrom
    split
    · exact .refl s
    · next line bytes hr =>
      split
      · next q hq =>
        exact ((kept_takeWrite hq .plu fun _ => render_length (item := .zeroFill i) trivial hr).1.trans (kept_swqIssue _)).trans
          (kept_fillFrom n _ _)
      · exact kept_setWaits s _ _ (waitsFrom_append (waitsFrom_self _ _) fun item h => by
          obtain rfl : item = .zeroFill i := by simpa using h
          exact .inr trivial)

theorem kept_statusWrite (s : State) (u : UnitId) {item : StatusItem} (hitem : item.whole) : Kept k s (statusWrite s u item) := by
  unfold statusWrite
  split
  · exact kept_fillFrom _ _ _
  · split
    · exact .refl s
    · split
      · exact .refl s
      · next line bytes hr =>
        split
        · next q hq => exact (kept_takeWrite hq u fun _ => render_length hitem hr).1.trans (kept_swqIssue _)
        · exact kept_setWaits s _ _ (waitsFrom_append (waitsFrom_self _ _) fun i h => by
            obtain rfl : i = item := by simpa using h
            exact .inr hitem)

theorem kept_handEvent (s : State) (e : Event) : Kept k s (handEvent s e) := by
  unfold handEvent
  dsimp only
  split
  · exact kept_setEvu _ _
  · split <;> exact kept_setEvu _ _

theorem handEvent_swq (s : State) (e : Event) : (handEvent s e).swq = s.swq := by
  unfold handEvent
  dsimp only
  split
  · rfl
  · split <;> rfl

theorem kept_evuRest (s : State) : Kept k s (evuRest s) := by
  unfold evuRest
  split
  · exact kept_setEvu _ _
  · exact .refl s

theorem kept_releaseEvents (u : UnitId) : ∀ (l : List WaitItem) (s : State), WaitsFrom s.swq u l → Kept k s (releaseEvents u l s)
  | [], s, h => kept_setWaits s u _ h
  | .event e :: rest, s, h => by
    unfold releaseEvents
    refine (kept_handEvent s e).trans (kept_releaseEvents u rest _ fun item hm => ?_)
    rw [handEvent_swq]
    exact h item (by simp [hm])
  | .write _ :: _, s, h => kept_setWaits s u _ h

theorem kept_handRaised (l) (s : State) (r : Raised) : Kept k s (handRaised l s r) := by
  unfold handRaised
  split
  · exact kept_handEvent _ _
  · split
    · exact kept_setWaits s _ _ (waitsFrom_append (waitsFrom_self _ _) fun i h => by simp at h)
    · exact kept_handEvent _ _

/-! ### Publication -/

/-- The figures of a command that have changed are no event records. -/
theorem changedItems_whole (o n : State) {p : UnitId × StatusItem} (h : p ∈ changedItems o n) : p.2.whole := by
  obtain ⟨u, item⟩ := p
  rw [StatusItem.whole_iff]
  rintro i r (rfl : item = _)
  simp [changedItems, changedBlades] at h

/-- The state that the end of a command publishes is the one that its status writes and events leave. -/
theorem publish_eq (o : State) (w : Work) : publish o w = publishState o w := by
  have h := published_publishState o w
  unfold publish
  generalize publishState o w = t at h ⊢
  obtain ⟨hpending, hnow, hpins, -, htbp, hziu, hblc, hpau, hlu, hpbu, hftu, -, hplu⟩ := h
  obtain ⟨⟩ := t
  simp only at hpending hnow hpins htbp hziu hblc hpau hlu hpbu hftu hplu
  subst hpending hnow hpins htbp hziu hblc hpau hlu hpbu hftu hplu
  rfl

theorem writtenItems_whole {o : State} (hw : w.recordsWhole) {p : UnitId × StatusItem} (h : p ∈ writtenItems o w) : p.2.whole := by
  unfold writtenItems at h
  rcases List.mem_append.1 h with h | h
  · exact changedItems_whole _ _ h
  · obtain ⟨i, hi, rfl⟩ := List.mem_map.1 (List.mem_filter.1 h).1
    rw [StatusItem.whole_iff]
    rintro n r rfl
    exact hw n r hi

theorem kept_stateWritten (o : State) (hw : w.recordsWhole) : Kept k w.st (stateWritten o w) := by
  have hfold : ∀ (l : List (UnitId × StatusItem)) (s : State), (∀ p ∈ l, p.2.whole) →
      Kept k s (l.foldl (fun s p => statusWrite s p.1 p.2) s) := by
    intro l
    induction l with
    | nil => exact fun s _ => .refl s
    | cons p l ih => exact fun s hl => (kept_statusWrite s p.1 (hl p (by simp))).trans (ih _ fun q hq => hl q (by simp [hq]))
  exact hfold _ _ fun p hp => writtenItems_whole hw hp

/-- The end of a command keeps what its work has kept. -/
theorem Reached.publish (h : Reached k s w) (o : State) : Kept k s (publish o w) := by
  have hevents : Kept k w.st (evuRest (w.events.foldl (handRaised (writtenItems o w)) (stateWritten o w))) :=
    ((kept_stateWritten o h.records).trans (kept_foldl _ (kept_handRaised _) _ _)).trans (kept_evuRest _)
  refine h.st.trans ?_
  rw [publish_eq]
  unfold publishState
  dsimp only
  refine Kept.trans ?_ ((kept_scrubRest _).trans (kept_tmcRest _))
  split
  · exact hevents.trans (kept_statusWrite _ _ trivial)
  · exact hevents

/-! ### The drops told of -/

/-- Whether the drops are told of follows from the EVU, the part state and the warm reset line (R164). -/
theorem lossTold_iff (s : State) : s.lossTold ↔
    ¬(s.armed = true ∧ s.pins.warm = false ∧ s.evu.phase = .idle ∧ s.evu.ringLost = none ∧ 0 < s.evu.pending) := by
  unfold State.lossTold evuRest
  split
  · next h =>
    simp only [Bool.and_eq_true, Bool.not_eq_true', decide_eq_true_eq, Option.isNone_iff_eq_none] at h
    obtain ⟨⟨⟨⟨harmed, hwarm⟩, hphase⟩, hlost⟩, hpending⟩ := h
    refine ⟨fun e => ?_, fun n => (n ⟨harmed, hwarm, hphase, hlost, hpending⟩).elim⟩
    have := congrArg (fun t : State => t.evu.ringLost) e
    simp [hlost] at this
  · next h =>
    refine ⟨fun _ n => h ?_, fun _ => rfl⟩
    obtain ⟨harmed, hwarm, hphase, hlost, hpending⟩ := n
    simp [harmed, hwarm, hphase, hlost, hpending]

theorem lossTold_congr (h : s.lossTold) (hplu : t.plu.part = s.plu.part) (hpins : t.pins = s.pins) (hevu : t.evu = s.evu) :
    t.lossTold := by
  rw [lossTold_iff] at h ⊢
  have harmed : t.armed = s.armed := by unfold State.armed; rw [hplu]
  rwa [harmed, hpins, hevu]

theorem lossTold_evuRest (s : State) : (evuRest s).lossTold := by
  by_cases h : s.lossTold
  · have e : evuRest s = s := h
    rwa [e]
  · rw [lossTold_iff]
    rintro ⟨-, -, -, hlost, -⟩
    rw [lossTold_iff, not_not] at h
    obtain ⟨harmed, hwarm, hphase, hnone, hpending⟩ := h
    simp [evuRest, harmed, hwarm, hphase, hnone, hpending] at hlost

/-- The end of a command tells of the drops that it may tell of (R164). -/
theorem lossTold_publish (o : State) (w : Work) : (publish o w).lossTold := by
  have h := lossTold_evuRest (w.events.foldl (handRaised (writtenItems o w)) (stateWritten o w))
  have hp : Published w.st (evuRest (w.events.foldl (handRaised (writtenItems o w)) (stateWritten o w))) :=
    ((published_foldl _ (fun s (p : UnitId × StatusItem) => published_statusWrite s p.1 p.2) _ _).trans
      (published_foldl _ (fun s r => published_handRaised _ s r) _ _)).trans (published_evuRest _)
  refine lossTold_congr h ?_ ?_ ?_
  · rw [publish_plu, hp.plu]
  · rw [publish_pins, hp.pins]
  · rw [publish_evu, publishState_evu]

/-! ### The steps of the queue -/

theorem kept_markEntries (s : State) (f : SwqEntry → SwqEntry) (hf : ∀ e, (f e).bytes = e.bytes) :
    Kept k s (s.setSwq { s.swq with entries := s.swq.entries.map f }) := by
  refine kept_setEntries s _ (by simp) (fun e he => ?_)
  obtain ⟨x, hx, rfl⟩ := List.mem_map.1 he
  exact ⟨x, hx, hf x⟩

theorem kept_askDrainEvu (s : State) (sev) : Kept k s (askDrainEvu s sev) := by
  unfold askDrainEvu
  split
  · exact kept_setEvu _ _
  · exact (kept_markEntries s (fun e => { e with evuMark := true }) (fun _ => rfl)).trans (kept_setEvu _ _)

theorem kept_askDrainPlu (s : State) : Kept k s (askDrainPlu s) := by
  unfold askDrainPlu
  split
  · exact kept_setPlu _ _
  · exact (kept_markEntries s (fun e => { e with pluMark := true }) (fun _ => rfl)).trans (kept_setPlu _ _)

theorem kept_giveDrains (s : State) : Kept k s (giveDrains s) := by
  have hplu : ∀ r : State, Kept k s r → Kept k s (if decide (r.plu.fill = .draining) && !r.swq.entries.any (fun e => e.pluMark) then
      r.setPlu { r.plu with fill := .drained } else r) := by
    intro r h
    split
    · exact h.trans (kept_setPlu _ _)
    · exact h
  unfold giveDrains
  refine hplu _ ?_
  split
  · split
    · exact .refl s
    · exact kept_setEvu _ _
  · exact .refl s

theorem kept_entryComplete (s : State) : Kept k s (entryComplete s) := by
  unfold entryComplete
  dsimp only
  have h1 : Kept k s (clearChannel s) := kept_clearChannel s
  split
  · next e rest heq =>
    refine h1.trans ((((kept_setEntries (clearChannel s) rest (by simp [heq]) fun x hx => ⟨x, by simp [heq, hx], rfl⟩).trans
      (kept_giveDrains _)).trans (kept_swqIssue _)).trans (kept_entryGone _ _))
  · exact h1

theorem kept_askRecordDrain (s : State) : Kept k s (askRecordDrain s) := by
  unfold askRecordDrain
  split
  · split
    · exact .refl s
    · exact kept_askDrainEvu _ _
  · exact .refl s

theorem kept_afterTaken (s : State) (item : StatusItem) (u : UnitId) (rest : List WaitItem) (h : WaitsFrom s.swq u rest) :
    Kept k s (afterTaken s item u rest) := by
  have hrest := kept_releaseEvents (k := k) u rest s h
  unfold afterTaken
  split
  · dsimp only
    split
    · next i _ =>
      refine kept_setWaits s u _ fun j hj => ?_
      rcases List.mem_cons.1 hj with e | hj
      · cases e; exact .inr trivial
      · exact h j hj
    · exact hrest.trans (kept_askDrainPlu _)
  · split
    · exact hrest.trans (kept_askDrainEvu _ _)
    · exact hrest
  · exact hrest

theorem kept_placeGrant (s : State) : Kept k s (placeGrant s) := by
  unfold placeGrant
  split
  · exact .refl s
  · next u _ =>
    split
    · next item rest heq =>
      have hrest : WaitsFrom s.swq u rest := fun i hi => .inl (by rw [heq]; simp [hi])
      split
      · exact kept_releaseEvents u rest s hrest
      · next line bytes hr =>
        split
        · exact .refl s
        · next q hq =>
          have hwhole : s.linesWhole → item.whole := fun hl => by
            rw [StatusItem.whole_iff]
            rintro n r rfl
            exact hl.2 u n r (by rw [heq]; simp)
          have hwaits : q.waits u = s.swq.waits u := congrArg (fun x => Vector.get x u.index) (takeWrite_spec hq).1
          exact ((kept_takeWrite hq u fun hl => render_length (hwhole hl) hr).2.trans
            (kept_afterTaken _ item u rest fun i hi => .inl (by
              show _ ∈ q.waits u
              rw [hwaits, heq]
              simp [hi]))).trans (kept_swqIssue _)
    · exact kept_releaseEvents u _ s (waitsFrom_self _ _)

end Sys2Proof.Machine
end

section
/-! PROOFS. What every command keeps, concluded: the meaning of each command, and `exec` as a whole. -/

set_option Elab.async false

namespace Sys2Proof.Machine

variable {k : Scope} {s t : State} {w : Work} {b : Slot}

/-! ### Outcomes -/

/-- What a command carries on to the next state: all that it keeps, and the drops told of. -/
def Carried (k : Scope) (s t : State) : Prop := Kept k s t ∧ (s.lossTold → t.lossTold)

/-- Where a command answers a next state, it carries on to it. -/
def Carries (k : Scope) (s : State) (o : Host.Outcome State Fault Refusal) : Prop := ∀ t, o = .next t → Carried k s t

theorem carries_next {t : State} (h : Carried k s t) : Carries k s (.next t) := by
  rintro u ⟨⟩
  exact h

theorem carries_same (s : State) : Carries k s (.next s) := carries_next ⟨.refl s, id⟩

theorem carries_finish (h : Reached k s w) (o : State) : Carries k s (finish o w) :=
  carries_next ⟨h.publish o, fun _ => lossTold_publish o w⟩

theorem carries_act {c : Bool} {op : Work → Work} (h : c = true → Reached k s (op (Work.start s))) : Carries k s (act c s op) := by
  unfold act
  split
  · next e => exact carries_finish (h e) _
  · exact carries_same s

theorem carries_ite {c : Prop} [Decidable c] {o p : Host.Outcome State Fault Refusal} (ho : Carries k s o) (hp : Carries k s p) :
    Carries k s (if c then o else p) := by
  split
  · exact ho
  · exact hp

theorem carries_onWord {mine : WatchedWord → Bool} {stale fits : Handed → Bool} {op : Handed → Work → Work}
    (h : ∀ x w, Reached k s w → Reached k s (op x w)) : Carries k s (onWord s mine stale fits op) := by
  unfold onWord
  split
  · exact carries_same s
  · next x _ =>
    have htaken : Kept k s (s.setTbp { s.tbp with handed := s.tbp.handed.erase x }) := kept_setTbp _ _
    refine carries_ite (carries_next ⟨htaken, fun hl => lossTold_congr hl rfl rfl rfl⟩) (carries_ite ?_ (carries_same s))
    exact carries_finish (h x _ ⟨htaken, (Reached.start (k := k) _).records⟩) _

/-! ### Resets and the table bus -/

theorem carries_initialisationComplete (s : State) : Carries k s (execInitialisationComplete s) :=
  carries_act fun _ => ((Reached.start s).map (fun s => resumePresentations (s.setTmc (s.tmc.initialised s.now s.pbu.hold)))
    ((kept_setTmc s (s.tmc.initialised s.now s.pbu.hold) ⟨rfl, rfl, rfl, fun _ => Nat.zero_le _⟩).trans
      (kept_resumePresentations _))).rewrite _ (by simp [wholePage])

theorem carries_warmReset (s : State) : Carries k s (execWarmReset s) := by
  refine carries_act fun _ => ?_
  have h1 : Reached k s ((Work.start s).map fun s => ((s.setPins { s.pins with warm := true }).setTbp s.tbp.dropped).setTmc
      { s.tmc with jobs := s.tmc.jobs.map (fun j => { j with tag := none }) }) :=
    (Reached.start s).map (fun s => ((s.setPins { s.pins with warm := true }).setTbp s.tbp.dropped).setTmc
      { s.tmc with jobs := s.tmc.jobs.map (fun j => { j with tag := none }) })
      (((kept_setPins s _).trans (kept_setTbp _ _)).trans (kept_setTmc _ _))
  exact (reached_zoneResult (reached_endValidation h1) _ _ _).ite h1

theorem carries_warmResetRelease (s : State) : Carries k s (execWarmResetRelease s) :=
  carries_act fun _ => (Reached.start s).map (fun s => s.setPins { s.pins with warm := false }) (kept_setPins _ _)

theorem carries_read (g a n) (s : State) : Carries k s (execRead g a n s) :=
  carries_act fun _ => reached_readRequest (.start s) _ _ _

theorem carries_write (g a n d e) (s : State) : Carries k s (execWrite g a n d e s) :=
  carries_act fun _ => reached_writeRequest (.start s) _ _ _ _ _

theorem kept_retireJob (s : State) (j) : Kept k s (retireJob s j) := (kept_setTmc s _).trans (kept_clearChannel _)

theorem kept_answerJob (s : State) (j st d) : Kept k s (answerJob s j st d) := by
  unfold answerJob
  split
  · exact kept_setTag _ _ _
  · exact .refl s

theorem carries_readComplete (s : State) : Carries k s (execReadComplete s) := by
  unfold execReadComplete
  split
  · exact carries_finish ((Reached.start s).map (fun s => answerJob (retireJob s _) _ _ _)
      ((kept_retireJob s _).trans (kept_answerJob _ _ _ _))) _
  · exact carries_same s

theorem carries_writeComplete (s : State) : Carries k s (execWriteComplete s) := by
  unfold execWriteComplete
  split
  · next j _ =>
    refine carries_finish (reached_foldl _ (fun _ _ h => h.raise _ _) _ _ ((Reached.start s).map
      (fun s => answerJob ((retireJob s j).setZiu { s.ziu with stageWrites := s.ziu.stageWrites - j.stageWrites }) j .ok []) ?_)) _
    exact ((kept_retireJob s j).trans (kept_setZiu _ _)).trans (kept_answerJob _ _ _ _)
  · exact carries_same s

/-! ### Zone commands -/

theorem carries_onZoneWord {fits : Nat → Bool} {op : BitVec 64 → Work → Work} (h : ∀ v w, Reached k s w → Reached k s (op v w)) :
    Carries k s (onZoneWord s fits op) := carries_onWord fun x _ hw => h x.value _ (hw.setZiu _)

theorem reached_acceptCommit (h : Reached k s w) (d n) : Reached k s (acceptCommit w d n) := by
  unfold acceptCommit
  exact reached_zoneResult (h.setZiu _) _ _ _

theorem reached_commitCommand (h : Reached k s w) (d n) : Reached k s (commitCommand w d n) :=
  (reached_zoneResult h _ _ _).ite ((reached_zoneResult h _ _ _).ite ((reached_zoneResult h _ _ _).ite
    ((reached_zoneResult h _ _ _).ite (reached_acceptCommit h _ _))))

theorem reached_abortNow (h : Reached k s w) (n) : Reached k s (abortNow w n) := by
  have h1 := h.setZiu { w.st.ziu with dirty := turnLines .staged .resync w.st.ziu.dirty } rfl rfl
    (fun hd => sparseWf_turnLines _ _ (by decide) _ 0 hd)
  exact (reached_startResync (reached_zoneResult (h1.setZiu _) _ _ _)).ite (reached_zoneResult h1 _ _ _)

theorem reached_abortCommand (h : Reached k s w) (n) : Reached k s (abortCommand w n) := by
  unfold abortCommand
  split
  · exact reached_abortNow h _
  · exact reached_abortNow (reached_endValidation h) _
  · exact reached_zoneResult h _ _ _
  · exact reached_zoneResult h _ _ _

theorem carries_commit (s : State) : Carries k s (execCommit s) := carries_onZoneWord fun _ _ h => reached_commitCommand h _ _

theorem carries_abort (s : State) : Carries k s (execAbort s) := carries_onZoneWord fun _ _ h => reached_abortCommand h _

theorem carries_zoneCommandNone (s : State) : Carries k s (execZoneCommandNone s) := carries_onZoneWord fun _ _ h => h

theorem carries_zoneBadCommand (s : State) : Carries k s (execZoneBadCommand s) :=
  carries_onZoneWord fun _ _ h => reached_zoneResult h _ _ _

theorem carries_validationStart (s : State) : Carries k s (execValidationStart s) := by
  unfold execValidationStart
  split
  · exact carries_finish (reached_presentValidator ((Reached.start s).setZiu _) _ _) _
  · exact carries_same s

theorem carries_validatorReadComplete (hk : ¬k.image) (s : State) : Carries k s (execValidatorReadComplete s) := by
  unfold execValidatorReadComplete
  split
  · split
    · refine carries_finish ?_ _
      have h1 : Reached k s ((Work.start s).map clearChannel) := (Reached.start s).map _ (kept_clearChannel _)
      unfold validatorDelivers
      dsimp only
      split
      · exact h1.ite ((reached_validationFails h1 _ _).ite (reached_validatorAdvance hk h1 _ _))
      · exact h1
    · exact carries_same s
  · exact carries_same s

theorem carries_ackTimeout (s : State) : Carries k s (execAckTimeout s) :=
  carries_act fun _ => reached_settle (reached_foldl _ (fun _ b h => reached_loseLink h b _) _ _
    (((Reached.start s).setZiu { s.ziu with ackAt := none }).raise _ _))

theorem carries_resyncCopyComplete (s : State) : Carries k s (execResyncCopyComplete s) := by
  unfold execResyncCopyComplete
  split
  · next p _ =>
    split
    · next line _ _ =>
      refine carries_finish ?_ _
      have h1 : Reached k s ((Work.start s).map clearChannel) := (Reached.start s).map _ (kept_clearChannel _)
      unfold copyDone
      dsimp only
      generalize (Work.start s).map clearChannel = w1 at h1 ⊢
      have h2 := h1.setZiu { w1.st.ziu.setLine line (if p.uncorrectable = true then .errorHeld else .clean) with
        copying := none, resyncPos := line + 1 } rfl rfl (fun h => sparseWf_put LineState.clean _ _ _ h)
      exact h1.ite (reached_resyncAdvance (reached_releaseWrites ((h2.raise _ _).ite h2)))
    · exact carries_same s
  · exact carries_same s

/-! ### Table memory and the queue -/

theorem carries_grant (hk : ¬k.memory) (flips) (s : State) : Carries k s (execGrant flips s) := by
  unfold execGrant
  split
  · next t ht => exact carries_finish ((Reached.start s).map (fun _ => t) (kept_grantOnce hk ht)) _
  · rintro t ⟨⟩

theorem reached_setTmc (h : Reached k s w) (x : Tmc) (hx : TmcCalm w.st.tmc x) : Reached k s (w.setTmc x) :=
  h.map (fun s => s.setTmc x) (kept_setTmc _ _ hx)

theorem carries_refreshDue (s : State) : Carries k s (execRefreshDue s) :=
  carries_act fun _ => reached_setTmc (.start s) _ ⟨rfl, rfl, rfl, fun _ => Nat.min_le_left _ _⟩

theorem carries_idleTimeout (s : State) : Carries k s (execIdleTimeout s) :=
  carries_act fun _ => reached_setTmc (.start s) _ ⟨rfl, rfl, rfl, id⟩

theorem carries_selfRefreshEntry (s : State) : Carries k s (execSelfRefreshEntry s) :=
  carries_act fun _ => reached_setTmc (.start s) _ ⟨rfl, rfl, rfl, fun _ => Nat.zero_le _⟩

theorem carries_selfRefreshExit (s : State) : Carries k s (execSelfRefreshExit s) :=
  carries_act fun _ => (Reached.start s).map (fun s => resumePresentations (s.setTmc { s.tmc with
      power := .active, exiting := false, debt := 0, refreshAt := some (s.now + 780) }))
    ((kept_setTmc s { s.tmc with power := .active, exiting := false, debt := 0, refreshAt := some (s.now + 780) }
      ⟨rfl, rfl, rfl, fun _ => Nat.zero_le _⟩).trans (kept_resumePresentations _))

theorem kept_patrolTick (s : State) : Kept k s (patrolTick s) := by
  unfold patrolTick
  dsimp only
  split
  · exact kept_setTmc _ _
  · exact (kept_setTmc s _).trans (kept_present _ _)

theorem carries_patrolTick (s : State) : Carries k s (execPatrolTick s) :=
  carries_act fun _ => (Reached.start s).map _ (kept_patrolTick _)

theorem carries_patrolReadComplete (s : State) : Carries k s (execPatrolReadComplete s) := by
  unfold execPatrolReadComplete
  split
  · next p _ =>
    split
    · exact carries_finish ((Reached.start s).map
        (fun s => clearChannel (s.setTmc { s.tmc with patrolLine := nextPatrol s.tmc p.access.line }))
        ((kept_setTmc s _).trans (kept_clearChannel _))) _
    · exact carries_same s
  · exact carries_same s

theorem carries_deferredScrubComplete (s : State) : Carries k s (execDeferredScrubComplete s) := by
  unfold execDeferredScrubComplete
  split
  · split
    · next c n _ =>
      exact carries_finish ((Reached.start s).map (fun s => clearChannel (s.setTmc { s.tmc with deferred := s.tmc.deferred.erase (c, n) }))
        ((kept_setTmc s _).trans (kept_clearChannel _))) _
    · exact carries_same s
  · exact carries_same s

theorem reached_reportCounter (h : Reached k s w) (n c) : Reached k s (reportCounter n c w) := (h.raiseDirect _).ite h

theorem carries_reportPeriodEnd (s : State) : Carries k s (execReportPeriodEnd s) := by
  refine carries_act fun _ => reached_setTmc (reached_reportCounter (reached_reportCounter (reached_reportCounter (.start s) _ _) _ _) _ _)
    _ ?_
  rw [reportCounter_st, reportCounter_st, reportCounter_st]
  exact ⟨rfl, rfl, rfl, id⟩

theorem carries_swqEntryComplete (s : State) : Carries k s (execSwqEntryComplete s) := by
  unfold execSwqEntryComplete
  split
  · split
    · exact carries_finish ((Reached.start s).map _ (kept_entryComplete _)) _
    · exact carries_same s
  · exact carries_same s

theorem carries_swqPlaceGrant (s : State) : Carries k s (execSwqPlaceGrant s) :=
  carries_act fun _ => (Reached.start s).map _ (kept_placeGrant _)

/-! ### Links -/

theorem reached_setLink (h : Reached k s w) (b : Slot) (l : Link) (hl : l.state = (w.st.link b).state := by rfl)
    (hidle : (w.st.link b).idle → l.idle := by exact id) : Reached k s (w.setLink b l) :=
  h.map (fun s => s.setLink b l) (kept_setLink _ _ _ hl hidle)

theorem reached_linkError (h : Reached k s w) (b) : Reached k s (linkError w b) := by
  unfold linkError
  dsimp only
  split
  · exact h
  · have hcount : ∀ n, Kept k (countLinkError w.st b) ((countLinkError w.st b).setBlade b { w.st.blade b with errorsAt := n }) :=
      fun n => kept_setBlade _ _ _
    exact (h.map (fun s => countLinkError s b) (kept_setLink _ _ _)).map (fun s => s.setBlade b { w.st.blade b with
      errorsAt := some ((w.st.blade b).errorsAt.getD (endOfSecond w.st.now)) }) (hcount _)

theorem reached_linkFault (h : Reached k s w) (b r y n) : Reached k s (linkFault w b r y n) := (reached_linkError h b).raiseDirect _

theorem reached_keepAlive (h : Reached k s w) (b) : Reached k s (keepAlive w b) := (reached_setLink h b _).ite h

theorem Loose.sendWelcome {v w : Work} (h : Loose b v w) : Loose b v (w.map fun s => sendWelcome s b) :=
  h.trans ⟨fun r => (r.map (fun s => Machine.sendWelcome s b) (kept_sendWelcome _ _)).noBlades,
    ((OnlySlot.refl b _).setLink _).setLink _⟩

theorem reached_helloAccepted (h : Reached k s w) (b p n) : Reached k s (helloAccepted w b p n) := by
  have hl : Loose b w ((w.setLink b { w.st.link b with
      state := .up, helloAt := none, portCount := some p, keepAt := some (w.st.now + sec 2), dataRun := 0 }).map
        fun s => sendWelcome s b) := ((Loose.refl b w).setLink (fun _ => _) (fun _ hne => absurd rfl hne)).sendWelcome
  refine reached_settle (reached_reconcile (reached_budgetStep (reached_bladeUp h hl ?_ p n) _) b)
  simp [sendWelcome, pumpLink, (Link.pump_kept _).state, Work.setLink]

theorem carries_takeHello (b x y r c p n) (s : State) : Carries k s (takeHello b x y r c p n s) := by
  unfold takeHello
  dsimp only
  split
  · exact carries_same s
  · exact carries_same s
  · exact carries_finish ((Reached.start s).map _ (kept_sendWelcome _ _)) _
  · exact carries_ite (carries_finish (reached_linkFault (.start s) _ _ _ _) _) (carries_finish (reached_helloAccepted (.start s) _ _ _) _)

theorem kept_occupyTag (s : State) (b g f c o) : Kept k s (occupyTag s b g f c o) := kept_setLink _ _ _

theorem kept_fetchOnFreeTag (s : State) (b g f c) : Kept k s (fetchOnFreeTag s b g f c) := by
  unfold fetchOnFreeTag
  split
  · exact (kept_occupyTag s _ _ _ _ _).trans (kept_queueData _ _ _)
  · unfold bindFetch
    dsimp only
    split
    · exact ((kept_occupyTag s _ _ _ _ _).trans (kept_setZiu _ _)).trans (kept_presentAll _ _)
    · exact (kept_occupyTag s _ _ _ _ _).trans (kept_setZiu _ _)

theorem reached_fetchTaken (h : Reached k s w) (b g f c) : Reached k s (fetchTaken w b g f c) :=
  ((reached_linkError h b).ite ((reached_linkError h b).map
      (fun s => queueData s b ⟨g, s.ziu.epoch, .overrun, []⟩) (kept_queueData _ _ _))).ite
    ((reached_linkFault h b _ _ _).ite (h.map (fun s => fetchOnFreeTag s b g f c) (kept_fetchOnFreeTag _ _ _ _ _)))

theorem carries_takeFetch (b g f c) (s : State) : Carries k s (takeFetch b g f c s) :=
  carries_act fun _ => reached_fetchTaken (reached_keepAlive (.start s) _) _ _ _ _

theorem reached_fetchDone (h : Reached k s w) (b g) : Reached k s (fetchDone w b g) := by
  unfold fetchDone
  split
  · exact h
  · split
    · exact h
    · exact reached_dropInFlight ((reached_setLink h b _).map _ (kept_queueData _ _ _)) _

theorem carries_fetchCompletion (s : State) : Carries k s (execFetchCompletion s) := by
  have h1 : Reached k s ((Work.start s).map clearChannel) := (Reached.start s).map _ (kept_clearChannel _)
  unfold execFetchCompletion
  split
  · exact carries_same s
  · split
    · exact carries_ite (carries_finish (reached_fetchDone h1 _ _) _) (carries_same s)
    · exact carries_finish (reached_dropInFlight h1 _) _
    · exact carries_same s

theorem carries_takeStatus (b i j) (s : State) : Carries k s (takeStatus b i j s) :=
  carries_act fun _ => reached_settle (reached_targetStep (reached_deliverStatus (reached_keepAlive (.start s) _) _ _ _))

theorem carries_takePortNote (b x y z) (s : State) : Carries k s (takePortNote b x y z s) := by
  refine carries_act fun _ => ?_
  have h1 : Reached k s (keepAlive (Work.start s) b) := reached_keepAlive (.start s) b
  dsimp only
  split
  · exact reached_settle ((h1.setPort _ _).dueRestore.ite (h1.setPort _ _))
  · exact reached_linkFault h1 _ _ _ _

theorem Link.answered_idle {l : Link} {tag : OrderTag} (h : l.idle) : Link.idle { l with orders := Vector.put l.orders tag none } := fun hne => by
  obtain ⟨hqueue, horders⟩ := h hne
  refine ⟨hqueue, fun g => ?_⟩
  rw [Vector.get_put]
  split
  · rfl
  · exact horders g

theorem reached_orderAnswered (h : Reached k s w) (b g o r) : Reached k s (orderAnswered w b g o r) := by
  have h1 : Reached k s (w.setLink b { w.st.link b with orders := Vector.put (w.st.link b).orders g none }) :=
    reached_setLink h b _ (by rfl) Link.answered_idle
  exact reached_settle ((reached_acknowledge h1 ⟨b, o.order.port⟩ o.order.action r).map (fun s => pumpLink s b) (kept_pumpLink _ _))

theorem carries_takeOrderAck (b n r) (s : State) : Carries k s (takeOrderAck b n r s) := by
  refine carries_act fun _ => ?_
  have h1 : Reached k s (keepAlive (Work.start s) b) := reached_keepAlive (.start s) b
  dsimp only
  split
  · exact reached_orderAnswered h1 _ _ _ _
  · exact reached_linkFault h1 _ _ _ _

theorem carries_takeEpochAck (b e) (s : State) : Carries k s (takeEpochAck b e s) :=
  carries_act fun _ => (reached_leaveAckSet (reached_keepAlive (.start s) b) b).ite (reached_keepAlive (.start s) b)

theorem carries_takeReset (b) (s : State) : Carries k s (takeReset b s) :=
  carries_act fun _ => reached_settle (reached_loseLink (.start s) _ _)

theorem carries_invalidMessage (b raw) (s : State) : Carries k s (execInvalidMessage b raw s) := by
  unfold execInvalidMessage
  split
  · next f _ _ =>
    refine carries_act fun _ => ?_
    unfold discardMessage
    split
    · exact reached_linkFault (.start s) _ _ _ _
    · exact reached_linkError (.start s) _
  · next m _ _ =>
    cases m with
    | hello => exact carries_takeHello _ _ _ _ _ _ _ _
    | fetch => exact carries_takeFetch _ _ _ _ _
    | status => exact carries_takeStatus _ _ _ _
    | portNote => exact carries_takePortNote _ _ _ _ _
    | orderAck => exact carries_takeOrderAck _ _ _ _
    | epochAck => exact carries_takeEpochAck _ _ _
    | reset => exact carries_takeReset _ _
  · exact carries_same s

theorem sent_state (l : Link) (now : Nat) : (l.sent now).state = l.state := by
  unfold Link.sent
  split
  · split <;> rfl
  · rfl
  · rfl

theorem sent_idle {l : Link} {now : Nat} (h : l.idle) : (l.sent now).idle := fun hne => by
  obtain ⟨hqueue, horders⟩ := h (sent_state l now ▸ hne)
  unfold Link.sent
  split
  · split <;> exact ⟨hqueue, horders⟩
  · next tag _ _ =>
    refine ⟨hqueue, fun g => ?_⟩
    rw [Vector.get_put, horders tag]
    split
    · rfl
    · exact horders g
  · exact ⟨hqueue, horders⟩

theorem carries_transmissionComplete (b) (s : State) : Carries k s (execTransmissionComplete b s) :=
  carries_act fun _ => (Reached.start s).map (fun s => s.setLink b ((s.link b).sent s.now).pump)
    (kept_setLink _ _ _ ((Link.pump_kept _).state.trans (sent_state _ _)) (fun h => Link.pump_idle (sent_idle h)))

theorem carries_helloWaitExpiry (b) (s : State) : Carries k s (execHelloWaitExpiry b s) := by
  refine carries_act fun hc => ?_
  split
  · next hfirst =>
    refine reached_settle (reached_faultBlade (.start s) (Loose.refl b _).stopLink (fun _ hm => ?_) _)
    have hdown := (stopLink_free _ b hm).1
    rw [Work.start_st] at hdown
    simp [hdown] at hfirst
  · exact reached_settle (reached_loseLink (.start s) _ _)

theorem carries_keepaliveExpiry (b) (s : State) : Carries k s (execKeepaliveExpiry b s) :=
  carries_act fun _ => reached_settle (reached_loseLink (.start s) _ _)

theorem carries_orderDeadline (b g) (s : State) : Carries k s (execOrderDeadline b g s) :=
  carries_act fun _ => reached_settle (reached_loseLink (.start s) _ _)

theorem carries_lostHoldoffExpiry (b) (s : State) : Carries k s (execLostHoldoffExpiry b s) := by
  refine carries_act fun hc => ?_
  have hlost : (s.link b).state = .lost := of_decide_eq_true (Bool.and_eq_true_iff.1 hc).1
  have hl : Loose b (Work.start s) ((Work.start s).setLink b { s.link b with
      state := .returnWait, holdoffAt := none, helloAt := some (s.now + sec 10) }) :=
    (Loose.refl b _).setLink (fun _ => _) (fun hi _ => hi (by rw [Work.start_st, hlost]; decide))
  refine ⟨?_, (Reached.start (k := k) s).records⟩
  have hpair : s.paired → (s.blade b).state = .lost := fun hp => by
    simpa [linkFollows_iff, follows, hlost] using hp.1 b
  have hkept := (hl.reached (Reached.start (k := k) s)).st
  refine hkept.withBlades (fun _ hp => hp) (fun _ hp => hl.only.paired ?_ (fun hm => ?_) hp)
  · rw [linkFollows_iff]
    simp [Work.setLink, follows, hpair hp]
  · have := hp.2 b hm
    simp [hlost] at this

/-! ### Blades and ports -/

theorem carries_bladeInserted (b) (s : State) : Carries k s (execBladeInserted b s) := by
  refine carries_act fun _ => ?_
  have h1 : Reached k s ((Work.start s).map fun s => setPresent s b true) := (Reached.start s).map _ (kept_setPins _ _)
  dsimp only
  split
  · next habsent =>
    refine reached_settle (reached_targetStep (reached_moveBlade h1 _ fun l hl => ?_))
    have hd : l = .down := (follows_unpowered (x := (s.blade b).state) (by simp [habsent, BladeState.powered])).1 hl
    simp [hd, follows, BladeState.powered]
  · exact h1

theorem carries_bladeRemoved (b) (s : State) : Carries k s (execBladeRemoved b s) :=
  carries_act fun _ => reached_settle (reached_targetStep (reached_forgetTemp (reached_removeBlade
    ((Reached.start s).map (fun s => setPresent s b false) (kept_setPins _ _)) _) _))

theorem carries_debounceExpiry (b) (s : State) : Carries k s (execDebounceExpiry b s) := by
  refine carries_act fun hc => ?_
  have hsettling : (s.blade b).state = .settling := of_decide_eq_true (Bool.and_eq_true_iff.1 hc).1
  have h1 : ∀ (n : Option Nat) (d : Bool), Reached k s ((Work.start s).setBlade b { s.blade b with debounceAt := n, debounced := d }) :=
    fun n d => (Reached.start s).map (fun s' => s'.setBlade b { s.blade b with debounceAt := n, debounced := d }) (kept_setBlade s b _)
  exact (reached_settle (reached_bladePowerCheck (h1 none (s.blade b).debounced) (by simpa using hsettling))).ite (h1 none true)

theorem carries_linkErrorCountWrite (b) (s : State) : Carries k s (execLinkErrorCountWrite b s) :=
  carries_act fun _ => ((Reached.start s).map (fun s' => s'.setBlade b { s.blade b with errorsAt := none }) (kept_setBlade s b _)).rewrite
    _ (by simp)

theorem carries_onRequest {fits : RequestForm → Bool} {op : PortRef → RequestWord → Work → Work}
    (h : ∀ p r w, Reached k s w → Reached k s (op p r w)) : Carries k s (onRequest s fits op) :=
  carries_onWord fun _ _ hw => reached_settle (h _ _ _ hw)

theorem carries_portRequestOn (s : State) : Carries k s (execPortRequestOn s) := by
  refine carries_onRequest fun p r w h => ?_
  split
  · exact reached_requestOn h _ _ _ _
  · exact h

theorem carries_portRequestOff (s : State) : Carries k s (execPortRequestOff s) :=
  carries_onRequest fun _ _ _ h => reached_requestOff h _ _

theorem carries_portRequestInvalid (s : State) : Carries k s (execPortRequestInvalid s) :=
  carries_onRequest fun _ _ _ h => reached_requestInvalid h _ _

/-! ### Tokens -/

theorem carries_onSubmit {fits : Nat → Bool} {op : TokenIx → Nat → Work → Work}
    (h : ∀ i n w, Reached k s w → Reached k s (op i n w)) : Carries k s (onSubmit s fits op) :=
  carries_onWord fun _ _ hw => h _ _ _ (reached_setSlot hw _ _)

theorem reached_submitToken (h : Reached k s w) (i n) : Reached k s (submitToken w i n) := by
  unfold submitToken
  dsimp only
  split
  · exact (reached_setSlot h i _).map (fun s => s.setLu { s.lu with fifo := s.lu.fifo ++ [i] }) (kept_setLu _ _)
  · exact (reached_setSlot h i _).raise _ _

theorem carries_submit (s : State) : Carries k s (execSubmit s) := carries_onSubmit fun _ _ _ h => reached_submitToken h _ _

theorem carries_submitNone (s : State) : Carries k s (execSubmitNone s) := carries_onSubmit fun _ _ _ h => h

theorem kept_startCheck (s : State) (i l) : Kept k s (startCheck s i l) := by
  unfold startCheck
  dsimp only
  split
  · exact (kept_setLu s _).trans (kept_present _ _)
  · exact kept_setLu _ _

theorem carries_tokenCheckStart (s : State) : Carries k s (execTokenCheckStart s) := by
  unfold execTokenCheckStart
  split
  · next i l _ => exact carries_act fun _ => (Reached.start s).map (fun s => startCheck s i l) (kept_startCheck _ _ _)
  · exact carries_same s

theorem carries_tokenReadComplete (s : State) : Carries k s (execTokenReadComplete s) := by
  unfold execTokenReadComplete
  split
  · split
    · have h1 : Reached k s ((Work.start s).map clearChannel) := (Reached.start s).map _ (kept_clearChannel _)
      exact carries_finish (h1.ite ((reached_tokenDone h1 _ _ _).ite (reached_settle (reached_actOnToken h1 _ _)))) _
    · exact carries_same s
  · exact carries_same s

theorem carries_nvProgramComplete (v) (s : State) : Carries k s (execNvProgramComplete v s) := by
  unfold execNvProgramComplete
  split
  · next hp => exact carries_act fun _ => reached_settle (reached_programDone (.start s) hp _)
  · exact carries_same s

/-! ### Power supplies -/

theorem reached_setPins (h : Reached k s w) (f : State → Pins) : Reached k s (w.map fun s => s.setPins (f s)) :=
  h.map (fun s => s.setPins (f s)) (kept_setPins _ _)

theorem carries_psuInserted (i) (s : State) : Carries k s (execPsuInserted i s) :=
  carries_act fun _ =>
    have h1 := reached_setPins (.start s) fun s => { s.pins with psuPresent := Vector.put s.pins.psuPresent i true }
    (reached_afterPsu (reached_movePsu h1 _ _ _)).ite h1

theorem carries_psuRemoved (i) (s : State) : Carries k s (execPsuRemoved i s) :=
  carries_act fun _ =>
    have h1 := reached_setPins (.start s) fun s => { s.pins with psuPresent := Vector.put s.pins.psuPresent i false }
    h1.ite (reached_afterPsu (reached_movePsu h1 _ _ _))

theorem carries_settleExpiry (i c) (s : State) : Carries k s (execSettleExpiry i c s) := by
  unfold execSettleExpiry
  dsimp only
  exact carries_act fun _ => reached_afterPsu (reached_movePsu
    (reached_setPins (.start s) fun s => { s.pins with capacity := Vector.put s.pins.capacity i c }) _ _ _)

theorem carries_psuEdge {c : Bool} (i e) (f : State → Pins) (s : State) :
    Carries k s (act c s fun w => psuEdge (w.map fun s => s.setPins (f s)) i e) :=
  carries_act fun _ => reached_psuEdge (reached_setPins (.start s) f) _ _

theorem carries_lowLineChange (i v) (s : State) : Carries k s (execLowLineChange i v s) :=
  carries_act fun _ =>
    have h1 := reached_setPins (.start s) fun s => { s.pins with lowLine := Vector.put s.pins.lowLine i v }
    reached_settle ((h1.raise _ _).ite h1)

theorem carries_graceExpiry (i) (s : State) : Carries k s (execGraceExpiry i s) := by
  unfold execGraceExpiry
  dsimp only
  exact carries_act fun _ => reached_afterPsu ((reached_setPsu (.start s) _ _).raise _ _)

theorem carries_restoreHoldoffExpiry (s : State) : Carries k s (execRestoreHoldoffExpiry s) :=
  carries_act fun _ => ((Reached.start s).setPbu _).ite (reached_restoreProcess ((Reached.start s).setPbu _))

/-! ### Fans -/

theorem reached_setRotor_loose (h : Reached k.noFans s w) (r x) : Reached k.noFans s (setRotor w r x) :=
  h.map (fun s => s.setFtu { w.st.ftu with rotors := Vector.put w.st.ftu.rotors r x }) (kept_setFtu_loose w.st _)

theorem carries_tachPulse (r) (s : State) : Carries k s (execTachPulse r s) := by
  refine carries_finish ((Reached.start s).map (fun s' => s'.setFtu { s.ftu with
    rotors := Vector.put s.ftu.rotors r { s.ftu.rotors.get r with count := min 1023 ((s.ftu.rotors.get r).count + 1) } })
    (kept_setFtu s _ (fun h => h.2.2.2.2) fun c => ?_)) _
  rw [Vector.get_put]
  split
  · next e => subst e; exact ⟨rfl, rfl⟩
  · exact ⟨rfl, rfl⟩

theorem carries_measurementWindowEnd (s : State) : Carries k s (execMeasurementWindowEnd s) :=
  carries_act fun _ => reached_settle (reached_windowEnd (.start s))

theorem reached_trayChange (h : Reached k s w) (i st) : Reached k s (trayChange w i st) :=
  reached_settle (reached_targetStep (reached_fanConsequences
    (reached_setRotor_loose (reached_setRotor_loose h.noFans _ _) _ _) _))

theorem carries_trayInserted (i) (s : State) : Carries k s (execTrayInserted i s) :=
  carries_act fun _ => reached_trayChange (reached_setPins (.start s) fun s =>
    { s.pins with trayPresent := Vector.put s.pins.trayPresent i true }) _ _

theorem carries_trayRemoved (i) (s : State) : Carries k s (execTrayRemoved i s) :=
  carries_act fun _ => reached_trayChange (reached_setPins (.start s) fun s =>
    { s.pins with trayPresent := Vector.put s.pins.trayPresent i false }) _ _

theorem carries_spinupExpiry (r) (s : State) : Carries k s (execSpinupExpiry r s) := by
  unfold execSpinupExpiry
  dsimp only
  exact carries_act fun _ => reached_settle (reached_targetStep (reached_fanConsequences
    (reached_setRotor_loose (Reached.start s).noFans _ _) _))

theorem carries_freshnessExpiry (b) (s : State) : Carries k s (execFreshnessExpiry b s) := by
  unfold execFreshnessExpiry
  dsimp only
  exact carries_act fun _ => reached_settle (reached_targetStep (reached_freshStep
    (reached_setTemp (.start s) b { s.ftu.temps.get b with freshAt := none } fun h => h.2.2.2.2 b) _ _))

/-! ### Events -/

theorem carries_published (h : Reached k s w) : Carried k s (askRecordDrain (publish s w)) := by
  refine ⟨(h.publish s).trans (kept_askRecordDrain _), fun _ => ?_⟩
  have hl := lossTold_publish s w
  unfold askRecordDrain
  split
  · split
    · exact hl
    · rw [lossTold_iff]
      unfold askDrainEvu
      split <;> simp
  · exact hl

theorem reached_placeRecord (h : Reached k s w) (e v) (r : List Byte) (hr : r.length = 32) : Reached k s (placeRecord w e v r) := by
  refine (h.map (fun s => s.setEvu { e with phase := .placing v }) (kept_setEvu _ _)).rewrite _ fun n x hm => ?_
  have hx : x = r := by simp only [List.mem_singleton, StatusItem.eventRecord.injEq] at hm; exact hm.2
  rw [hx, hr]

theorem carries_recordWrite (s : State) : Carries k s (execRecordWrite s) := by
  unfold execRecordWrite
  dsimp only
  split
  · exact carries_same s
  · split
    · exact carries_ite (carries_same s) (carries_next (carries_published
        (reached_placeRecord (.start s) _ _ _ (recordBytes_length _ _ _))))
    · split
      · exact carries_same s
      · exact carries_ite (carries_finish ((Reached.start s).map _ (kept_setEvu _ _)) _) (carries_next (carries_published
          (reached_placeRecord (.start s) _ _ _ (recordBytes_length _ _ _))))

theorem carries_eventPublish (s : State) : Carries k s (execEventPublish s) := by
  unfold execEventPublish
  split
  · next v _ => exact carries_finish ((Reached.start s).map (fun s => publishRecord s v) (kept_setEvu _ _)) _
  · exact carries_same s

theorem carries_consumerIndexWrite (s : State) : Carries k s (execConsumerIndexWrite s) :=
  carries_onWord fun _ _ h => h.map _ (kept_setEvu _ _)

theorem carries_coalescingTimerExpiry (s : State) : Carries k s (execCoalescingTimerExpiry s) :=
  carries_act fun _ => (Reached.start s).map (fun s => s.setEvu s.evu.assert) (kept_setEvu _ _)

theorem carries_uptimeTick (s : State) : Carries k s (execUptimeTick s) :=
  carries_act fun _ => (Reached.start s).map (fun s => s.setPlu { s.plu with
    uptime := s.timestamp / 1000000, uptimeAt := s.plu.uptimeAt + sec 1 }) (kept_setPlu _ _)

theorem carries_onPolicyWord {fits : Nat → Bool} {op : BitVec 64 → Work → Work} (h : ∀ v w, Reached k s w → Reached k s (op v w)) :
    Carries k s (onPolicyWord s fits op) :=
  carries_onWord fun x _ hw => h x.value _ (hw.map (fun s => s.setPlu { s.plu with seen := wordSequence x.value }) (kept_setPlu _ _))

theorem carries_arm (s : State) : Carries k s (execArm s) := carries_onPolicyWord fun _ _ h => reached_armCommand h _

theorem carries_policyCommandNone (s : State) : Carries k s (execPolicyCommandNone s) := carries_onPolicyWord fun _ _ h => h

theorem carries_policyBadCommand (s : State) : Carries k s (execPolicyBadCommand s) :=
  carries_onPolicyWord fun _ _ h => reached_armResult h _ _ _

theorem carries_enterArmed (hk : ¬k.image) (s : State) : Carries k s (execEnterArmed s) := by
  refine carries_act fun hc => reached_enterArmedWork hk (.start s) ?_
  have hpart : s.plu.part = .arming := of_decide_eq_true (Bool.and_eq_true_iff.1 hc).1
  simp [hpart]

/-! ### Every command -/

/-- The command is a GRANT: it alone writes table memory, but for power-on reset (R56). -/
def isGrant : Instr → Bool
  | .grant _ => true
  | _ => false

/-- The command may change the image: a validator read flips, and ENTER_ARMED starts it anew (R17, R170). -/
def changesImage : Instr → Bool
  | .validatorReadComplete => true
  | .enterArmed => true
  | _ => false

/-- The command is power-on reset. -/
def isPowerOn : Instr → Bool
  | .powerOnReset _ => true
  | _ => false

/-- What a command other than power-on reset keeps. -/
theorem exec_carries (c : Instr) (s : State) (hpower : isPowerOn c = false) (hmemory : k.memory → isGrant c = false)
    (himage : k.image → changesImage c = false) : Carries k s (exec c s) := by
  cases c with
  | powerOnReset p => cases hpower
  | initialisationComplete => exact carries_initialisationComplete s
  | warmReset => exact carries_warmReset s
  | warmResetRelease => exact carries_warmResetRelease s
  | read tag addr len => exact carries_read _ _ _ s
  | write tag addr len data enables => exact carries_write _ _ _ _ _ s
  | readComplete => exact carries_readComplete s
  | writeComplete => exact carries_writeComplete s
  | commit => exact carries_commit s
  | abort => exact carries_abort s
  | zoneCommandNone => exact carries_zoneCommandNone s
  | zoneBadCommand => exact carries_zoneBadCommand s
  | validationStart => exact carries_validationStart s
  | validatorReadComplete => exact carries_validatorReadComplete (fun m => by cases himage m) s
  | ackTimeout => exact carries_ackTimeout s
  | resyncCopyComplete => exact carries_resyncCopyComplete s
  | grant flips => exact carries_grant (fun m => by cases hmemory m) flips s
  | refreshDue => exact carries_refreshDue s
  | idleTimeout => exact carries_idleTimeout s
  | selfRefreshEntry => exact carries_selfRefreshEntry s
  | selfRefreshExit => exact carries_selfRefreshExit s
  | patrolTick => exact carries_patrolTick s
  | patrolReadComplete => exact carries_patrolReadComplete s
  | deferredScrubComplete => exact carries_deferredScrubComplete s
  | reportPeriodEnd => exact carries_reportPeriodEnd s
  | swqEntryComplete => exact carries_swqEntryComplete s
  | swqPlaceGrant => exact carries_swqPlaceGrant s
  | hello => exact carries_takeHello _ _ _ _ _ _ _ s
  | fetch => exact carries_takeFetch _ _ _ _ s
  | fetchCompletion => exact carries_fetchCompletion s
  | status => exact carries_takeStatus _ _ _ s
  | portNote => exact carries_takePortNote _ _ _ _ s
  | orderAck => exact carries_takeOrderAck _ _ _ s
  | epochAck => exact carries_takeEpochAck _ _ s
  | reset => exact carries_takeReset _ s
  | transmissionComplete => exact carries_transmissionComplete _ s
  | helloWaitExpiry => exact carries_helloWaitExpiry _ s
  | keepaliveExpiry => exact carries_keepaliveExpiry _ s
  | orderDeadline => exact carries_orderDeadline _ _ s
  | lostHoldoffExpiry => exact carries_lostHoldoffExpiry _ s
  | bladeInserted => exact carries_bladeInserted _ s
  | bladeRemoved => exact carries_bladeRemoved _ s
  | debounceExpiry => exact carries_debounceExpiry _ s
  | linkErrorCountWrite => exact carries_linkErrorCountWrite _ s
  | portRequestOn => exact carries_portRequestOn s
  | portRequestOff => exact carries_portRequestOff s
  | portRequestInvalid => exact carries_portRequestInvalid s
  | submit => exact carries_submit s
  | submitNone => exact carries_submitNone s
  | tokenCheckStart => exact carries_tokenCheckStart s
  | tokenReadComplete => exact carries_tokenReadComplete s
  | nvProgramComplete => exact carries_nvProgramComplete _ s
  | psuInserted => exact carries_psuInserted _ s
  | psuRemoved => exact carries_psuRemoved _ s
  | settleExpiry => exact carries_settleExpiry _ _ s
  | powerGoodRise i => exact carries_psuEdge _ _ (fun s => { s.pins with powerGood := Vector.put s.pins.powerGood i true }) s
  | powerGoodFall i => exact carries_psuEdge _ _ (fun s => { s.pins with powerGood := Vector.put s.pins.powerGood i false }) s
  | acOkRise i => exact carries_psuEdge _ _ (fun s => { s.pins with acOk := Vector.put s.pins.acOk i true }) s
  | acOkFall i => exact carries_psuEdge _ _ (fun s => { s.pins with acOk := Vector.put s.pins.acOk i false }) s
  | lowLineChange => exact carries_lowLineChange _ _ s
  | graceExpiry => exact carries_graceExpiry _ s
  | restoreHoldoffExpiry => exact carries_restoreHoldoffExpiry s
  | tachPulse => exact carries_tachPulse _ s
  | measurementWindowEnd => exact carries_measurementWindowEnd s
  | trayInserted => exact carries_trayInserted _ s
  | trayRemoved => exact carries_trayRemoved _ s
  | spinupExpiry => exact carries_spinupExpiry _ s
  | freshnessExpiry => exact carries_freshnessExpiry _ s
  | recordWrite => exact carries_recordWrite s
  | eventPublish => exact carries_eventPublish s
  | consumerIndexWrite => exact carries_consumerIndexWrite s
  | coalescingTimerExpiry => exact carries_coalescingTimerExpiry s
  | uptimeTick => exact carries_uptimeTick s
  | arm => exact carries_arm s
  | policyCommandNone => exact carries_policyCommandNone s
  | policyBadCommand => exact carries_policyBadCommand s
  | enterArmed => exact carries_enterArmed (fun m => by cases himage m) s
  | invalidMessage => exact carries_invalidMessage _ _ s

end Sys2Proof.Machine
end

section
/-! PROOFS. The invariants that every step keeps, from what every command keeps and from what power-on reset restores. -/

set_option Elab.async false

namespace Sys2Proof.Machine

variable {s t : State} {w : Work}

/-! ### Steps -/

/-- All that the commands keep, but for table memory and the image, which some commands change. -/
def Scope.invariants : Scope := ⟨False, False, True, True, True⟩

/-- A command is power-on reset or carries on to its next state. -/
theorem exec_cases {c : Instr} (h : exec c s = .next t) :
    (∃ p, c = .powerOnReset p ∧ t = powerOn s p) ∨ Carried .invariants s t := by
  by_cases hc : isPowerOn c = true
  · cases c with
    | powerOnReset p => cases h; exact .inl ⟨p, rfl, rfl⟩
    | _ => cases hc
  · exact .inr (exec_carries (k := .invariants) c s (by simpa using hc) (fun m => m.elim) (fun m => m.elim) t h)

/-- What a step reaches: the power-on state, or a state that it carries on to. -/
theorem step_cases (h : step s = .next t) : (∃ q p, t = powerOn { s with pending := q } p) ∨ Carried .invariants s t := by
  have hpending : ∀ q, Carried .invariants s { s with pending := q } :=
    fun q => ⟨{ Kept.refl s with }, fun hl => lossTold_congr hl rfl rfl rfl⟩
  unfold step at h
  split at h
  · next c rest _ =>
    rcases exec_cases h with ⟨p, -, rfl⟩ | hc
    · exact .inl ⟨rest, p, rfl⟩
    · exact .inr ⟨(hpending rest).1.trans hc.1, fun hl => hc.2 ((hpending rest).2 hl)⟩
  · cases h
    exact .inr ⟨{ Kept.refl s with }, fun hl => lossTold_congr hl rfl rfl rfl⟩

/-! ### The state at power-on reset -/

theorem powerOn_tablesCanonical (s : State) (p : PowerOn) : (powerOn s p).tablesCanonical = true := rfl

theorem powerOn_linesWhole (s : State) (p : PowerOn) : (powerOn s p).linesWhole := by
  have hwaits : ∀ u, (powerOn s p).swq.waits u = [] := fun u => by cases u <;> rfl
  refine ⟨fun e he => ?_, fun u n r hm => ?_⟩
  · cases he
  · rw [hwaits] at hm
    cases hm

theorem powerOn_lossTold (s : State) (p : PowerOn) : (powerOn s p).lossTold := by
  rw [lossTold_iff]
  rintro ⟨harmed, -⟩
  cases harmed

theorem powerOn_blade (s : State) (p : PowerOn) (b : Slot) : (powerOn s p).blade b = bladeAtReset (s.pins.bladePresent.get b) :=
  Vector.getElem_map bladeAtReset b.2

/-- A seated blade settles, and none is powered. -/
theorem bladeAtReset_unpowered (present : Bool) : (bladeAtReset present).state.powered = false ∧ (bladeAtReset present).powerEn = false := by
  cases present <;> exact ⟨rfl, rfl⟩

theorem powerOn_powerFollows (s : State) (p : PowerOn) (b : Slot) : (powerOn s p).powerFollows b := by
  obtain ⟨hstate, hpower⟩ := bladeAtReset_unpowered (s.pins.bladePresent.get b)
  unfold State.powerFollows
  rw [powerOn_blade, hstate, hpower]

theorem powerOn_link (s : State) (p : PowerOn) (b : Slot) : (powerOn s p).link b = Link.reset := Vector.get_replicate 8 Link.reset b

theorem powerOn_paired (s : State) (p : PowerOn) : (powerOn s p).paired := by
  refine ⟨fun b => ?_, fun b hb => by cases hb⟩
  rw [linkFollows_iff, powerOn_blade, powerOn_link]
  simp [follows, Link.reset, (bladeAtReset_unpowered _).1]

theorem inRange_default : Tunables.default.inRange = true := by decide

theorem ftuAtReset_derate (v : Vector Bool 6) : (ftuAtReset v).derate ≤ 100 := by
  simp only [ftuAtReset, Ftu.derived]
  exact derateFor_le inRange_default _

theorem powerOn_derate (s : State) (p : PowerOn) : (powerOn s p).pbu.derate = (ftuAtReset s.pins.trayPresent).derate := by
  simp only [powerOn]

theorem powerOn_bounded (s : State) (p : PowerOn) : (powerOn s p).bounded := by
  refine ⟨inRange_default, Nat.zero_le _, Nat.zero_le _, ?_, fun b => ?_⟩
  · rw [powerOn_derate]
    exact ftuAtReset_derate _
  · have htemp : (powerOn s p).ftu.temps.get b = BladeTemp.reset := Vector.get_replicate 8 BladeTemp.reset b
    rw [htemp]
    exact Nat.zero_le _

/-! ### Table memory and the tables -/

theorem isGrant_eq_false {c : Instr} (h : ∀ flips, c ≠ .grant flips) : isGrant c = false := by
  cases c with
  | grant flips => exact (h flips rfl).elim
  | _ => rfl

theorem isPowerOn_eq_false {c : Instr} (h : ∀ p, c ≠ .powerOnReset p) : isPowerOn c = false := by
  cases c with
  | powerOnReset p => exact (h p rfl).elim
  | _ => rfl

/-- Settles O3: every operation of a command but a granted access leaves table memory and its marks. -/
theorem onlyAGrantWritesTableMemory : Obligations.OnlyAGrantWritesTableMemory := by
  intro c s t h hgrant hpower
  have hk := exec_carries (k := ⟨True, False, True, True, False⟩) c s (isPowerOn_eq_false hpower) (fun _ => isGrant_eq_false hgrant)
    (fun m => m.elim) t h
  exact hk.1.memory trivial

/-- Settles O4: the canonical clauses of `Kept`, and publication, which tells of the drops at the end of each command. -/
theorem tablesStayCanonical : Obligations.TablesStayCanonical := by
  refine ⟨fun s t hs h => ?_, fun s t hs h => ?_, fun s t hs h => ?_⟩ <;> rcases step_cases h with ⟨q, p, rfl⟩ | hc
  · exact powerOn_tablesCanonical _ _
  · exact hc.1.canonical hs
  · exact powerOn_linesWhole _ _
  · exact hc.1.lines hs
  · exact powerOn_lossTold _ _
  · exact hc.2 hs

/-! ### Blades, links and bounds -/

/-- Settles O5: each move of a blade sets its power enable, and nothing else changes either. -/
theorem bladePowerFollowsState : Obligations.BladePowerFollowsState := by
  intro s t hs h
  rcases step_cases h with ⟨q, p, rfl⟩ | hc
  · exact powerOn_powerFollows _ _
  · exact hc.1.powered trivial hs

/-- Settles O6: each operation that moves a link or a blade brings both together again before it ends. -/
theorem linkAndBladeGoTogether : Obligations.LinkAndBladeGoTogether := by
  intro s t hl ho h
  rcases step_cases h with ⟨q, p, rfl⟩ | hc
  · exact powerOn_paired _ _
  · exact hc.1.paired trivial ⟨hl, ho⟩

/-- Settles O7, by the bounds clause of `Kept`. -/
theorem boundedFiguresStayBounded : Obligations.BoundedFiguresStayBounded := by
  intro s t hs h
  rcases step_cases h with ⟨q, p, rfl⟩ | hc
  · exact powerOn_bounded _ _
  · exact hc.1.bounded hs

/-- Settles O10: only arming changes part state, layout and reserves, and it acts on no ARMED part. -/
theorem armedLastsUntilPowerOnReset : Obligations.ArmedLastsUntilPowerOnReset := by
  intro c s t h hpower hpart
  rcases exec_cases h with ⟨p, rfl, -⟩ | hc
  · exact (hpower p rfl).elim
  · obtain ⟨part, layout, reserves⟩ := hc.1.armed hpart
    exact ⟨part, layout, reserves, hc.1.density⟩

/-! ### The image -/

/-- The image is as it was, or it has flipped: one epoch on with the banks swapped (R17). -/
def ImageMoved (s t : State) : Prop :=
  (t.ziu.epoch = s.ziu.epoch ∧ t.ziu.swap = s.ziu.swap) ∨ (t.ziu.epoch = s.ziu.epoch + 1 ∧ t.ziu.swap = !s.ziu.swap)

/-- The scope that asks for the image. -/
def Scope.imageKept : Scope := ⟨False, True, False, False, False⟩

theorem Reached.image (h : Reached .imageKept s w) : ImageMoved s w.st := .inl (h.st.image trivial)

theorem ImageMoved.after {r : State} (h : ImageMoved s t) (hr : r.ziu.epoch = s.ziu.epoch ∧ r.ziu.swap = s.ziu.swap) : ImageMoved r t := by
  unfold ImageMoved
  rw [hr.1, hr.2]
  exact h

theorem testAwait_image (hw : w.recordsWhole) :
    (testAwait w).st.ziu.epoch = w.st.ziu.epoch ∧ (testAwait w).st.ziu.swap = w.st.ziu.swap :=
  (reached_testAwait (k := .imageKept) ⟨.refl _, hw⟩).st.image trivial

theorem queueNotices_image (l : List Slot) (e : Nat) (s : State) :
    (l.foldl (fun s b => queueNotice s e b) s).ziu.epoch = s.ziu.epoch ∧ (l.foldl (fun s b => queueNotice s e b) s).ziu.swap = s.ziu.swap :=
  (kept_foldl (k := .imageKept) _ (fun s b => kept_queueNotice s e b) l s).image trivial

theorem flip_image (hw : w.recordsWhole) (z m : Nat) :
    (flip w z m).st.ziu.epoch = w.st.ziu.epoch + 1 ∧ (flip w z m).st.ziu.swap = !w.st.ziu.swap := by
  unfold flip
  dsimp only
  refine ⟨(testAwait_image ?_).1.trans (queueNotices_image _ _ _).1, (testAwait_image ?_).2.trans (queueNotices_image _ _ _).2⟩
  · exact hw
  · exact hw

theorem validateRange_image (hw : w.recordsWhole) (v i) : ImageMoved w.st (validateRange w v i).st := by
  have hr : Reached .imageKept w.st w := ⟨.refl _, hw⟩
  unfold validateRange
  dsimp only
  split
  · exact .inr (flip_image hw _ _)
  · exact (reached_presentValidator (hr.setZiu _) _ _).image

theorem validatorAdvance_image (hw : w.recordsWhole) (v d) : ImageMoved w.st (validatorAdvance w v d).st := by
  have hr : Reached .imageKept w.st w := ⟨.refl _, hw⟩
  unfold validatorAdvance
  split
  · dsimp only
    split
    · exact (reached_presentValidator (hr.setZiu _) _ _).image
    · split
      · exact (reached_validationFails hr _ _).image
      · exact validateRange_image hw _ _
  · split
    · exact validateRange_image hw _ _
    · split
      · exact (reached_validationFails hr _ _).image
      · split
        · exact (reached_presentValidator (hr.setZiu _) _ _).image
        · exact validateRange_image hw _ _

/-- A validator read that completes flips the image or leaves it. -/
theorem exec_validatorReadComplete_image (h : exec .validatorReadComplete s = .next t) : ImageMoved s t := by
  have hdelivers : ∀ run p, ImageMoved s (validatorDelivers (Work.start s) run p).st := by
    intro run p
    have hr : Reached .imageKept s ((Work.start s).map clearChannel) := (Reached.start s).map _ (kept_clearChannel _)
    unfold validatorDelivers
    dsimp only
    split
    · split
      · exact hr.image
      · split
        · exact (reached_validationFails hr _ _).image
        · exact (validatorAdvance_image hr.records _ _).after ⟨rfl, rfl⟩
    · exact hr.image
  have hsame : ImageMoved s s := .inl ⟨rfl, rfl⟩
  change execValidatorReadComplete s = .next t at h
  unfold execValidatorReadComplete at h
  split at h
  · split at h
    · cases h; exact hdelivers _ _
    · cases h; exact hsame
  · cases h; exact hsame

theorem enterArmedWork_image (hw : w.recordsWhole) :
    (enterArmedWork w).st.ziu.epoch = (armUnits w.st).ziu.epoch ∧ (enterArmedWork w).st.ziu.swap = (armUnits w.st).ziu.swap := by
  have hunits : Reached .imageKept (armUnits w.st) (w.map armUnits) := ⟨.refl _, hw⟩
  have hblades := reached_foldl releaseSettled (fun _ b h => reached_releaseSettled h b) (indices 8) _ (reached_budgetStep hunits none)
  have hwork : Reached .imageKept (armUnits w.st) (enterArmedWork w) :=
    (reached_settle (reached_targetStep hblades)).rewrite _ (by simp)
  exact hwork.st.image trivial

/-- ENTER_ARMED starts the image anew, or does not act (R170). -/
theorem exec_enterArmed_image (h : exec .enterArmed s = .next t) :
    (t.ziu.epoch = s.ziu.epoch ∧ t.ziu.swap = s.ziu.swap) ∨ (t.ziu.epoch = 1 ∧ t.ziu.swap = false) := by
  obtain ⟨hepoch, hswap⟩ := enterArmedWork_image (Reached.start (k := .imageKept) s).records
  have hunits : (armUnits s).ziu.epoch = 1 ∧ (armUnits s).ziu.swap = false := ⟨rfl, rfl⟩
  rw [Work.start_st, hunits.1] at hepoch
  rw [Work.start_st, hunits.2] at hswap
  change execEnterArmed s = .next t at h
  unfold execEnterArmed act at h
  split at h
  · rw [← Host.Outcome.next.inj h, publish_ziu]
    exact .inr ⟨hepoch, hswap⟩
  · cases h
    exact .inl ⟨rfl, rfl⟩

/-- Settles O9: a flip is the one change of epoch and swap flag between the starting points. -/
theorem epochAndSwapMoveTogether : Obligations.EpochAndSwapMoveTogether := by
  intro c s t h
  by_cases hc : changesImage c = true
  · cases c with
    | validatorReadComplete => exact (exec_validatorReadComplete_image h).elim .inl fun hf => .inr (.inl ⟨rfl, hf⟩)
    | enterArmed => exact (exec_enterArmed_image h).elim .inl fun hf => .inr (.inr (.inl ⟨rfl, hf⟩))
    | _ => cases hc
  · by_cases hp : isPowerOn c = true
    · cases c with
      | powerOnReset p => cases h; exact .inr (.inr (.inr ⟨⟨p, rfl⟩, rfl, rfl⟩))
      | _ => cases hp
    · exact .inl ((exec_carries (k := .imageKept) c s (by simpa using hp) (fun m => m.elim) (fun _ => by simpa using hc) t h).1.image trivial)

/-! ### Floors -/

/-- The floor read from the cells is at or above every cell that passes its check (R121). -/
theorem le_readFloor {cells : Vector NvCell 2} {i : Fin 2} (h : (cells.get i).valid = true) : (cells.get i).value ≤ (readFloor cells).1 := by
  have hi : i = 0 ∨ i = 1 := by omega
  unfold readFloor
  rcases hi with rfl | rfl
  · rw [h]
    split
    · exact Nat.le_max_left _ _
    · exact Nat.le_refl _
    · next e _ => cases e
    · next e _ => cases e
  · rw [h]
    split
    · exact Nat.le_max_right _ _
    · next e => cases e
    · exact Nat.le_refl _
    · next e => cases e

/-- A program's cell is another than one that holds the floor, unless both hold it. -/
theorem programCell_of_holds {x : FeatureState} {i : Fin 2} (h : x.cells.get i = ⟨x.floor, true⟩) (hi : x.programCell = i) : i = 1 := by
  by_contra hne
  obtain rfl : i = 0 := by omega
  simp [FeatureState.programCell, NvCell.holdsFloor, h] at hi

/-- A program that reached its cell leaves a cell that holds the floor at or above it. -/
theorem writeCell_holds {l : Lu} {g : Program} (habove : (l.feature g.feature).floor < g.seq) {f : Feature} {i : Fin 2}
    (h : (l.feature f).cells.get i = ⟨(l.feature f).floor, true⟩) :
    (((writeCell l g true).feature f).cells.get i).valid = true ∧
      (l.feature f).floor ≤ (((writeCell l g true).feature f).cells.get i).value := by
  unfold writeCell
  dsimp only
  rw [Lu.feature_setFeature]
  split
  · next e =>
    subst e
    dsimp only
    rw [Vector.get_put]
    split
    · exact ⟨rfl, habove.le⟩
    · rw [h]; exact ⟨rfl, Nat.le_refl _⟩
  · rw [h]; exact ⟨rfl, Nat.le_refl _⟩

/-- The LU as a program in progress leaves its cells at a power-on reset (log entry 8). -/
def landed (l : Lu) (p : PowerOn) : Lu :=
  match l.program with
  | some g => if p.programLanded then writeCell l g true else l
  | none => l

/-- A good cell that holds the floor is at or above it behind a program cut short. -/
theorem landed_holds {l : Lu} (p : PowerOn) (habove : ∀ g, l.program = some g → (l.feature g.feature).floor < g.seq) {f : Feature}
    {i : Fin 2} (h : (l.feature f).cells.get i = ⟨(l.feature f).floor, true⟩) :
    (((landed l p).feature f).cells.get i).valid = true ∧ (l.feature f).floor ≤ (((landed l p).feature f).cells.get i).value := by
  have hl : ((l.feature f).cells.get i).valid = true ∧ (l.feature f).floor ≤ ((l.feature f).cells.get i).value := by
    rw [h]; exact ⟨rfl, Nat.le_refl _⟩
  unfold landed
  split
  · next g hg =>
    split
    · exact writeCell_holds (habove g hg) h
    · exact hl
  · exact hl

/-- The cells of a feature that power-on reset finds. -/
def cellsFound (l : Lu) (p : PowerOn) : Feature → Vector NvCell 2
  | .portUnits => (cellsAtReset l p).1
  | .xdPorts => (cellsAtReset l p).2

theorem cellsFound_get (l : Lu) (p : PowerOn) (f : Feature) (i : Fin 2) (hgood : ⟨f, i⟩ ∉ p.badCells) :
    (cellsFound l p f).get i = ((landed l p).feature f).cells.get i := by
  have hvoid : p.badCells.contains ⟨f, i⟩ = false := by simpa using hgood
  cases f <;> exact (Vector.get_mapIx _ _ i).trans (if_neg (by rw [hvoid]; decide))

theorem powerOn_floor (s : State) (p : PowerOn) (f : Feature) :
    ((powerOn s p).lu.feature f).floor = (readFloor (cellsFound s.lu p f)).1 := by
  cases f <;> rfl

/-- Settles O11: a floor takes the sequence of a program above it; at power-on reset a good cell holds it. -/
theorem floorsNeverFall : Obligations.FloorsNeverFall := by
  refine ⟨fun c s t hs h hpower => ?_, fun p s t f i hs hcell hgood h => ?_⟩
  · rcases exec_cases h with ⟨p, rfl, -⟩ | hc
    · exact (hpower p rfl).elim
    · exact hc.1.floors hs
  · cases h
    obtain ⟨hvalid, hle⟩ := landed_holds p hs hcell
    rw [← cellsFound_get _ _ _ _ hgood] at hvalid hle
    rw [powerOn_floor]
    exact hle.trans (le_readFloor hvalid)

end Sys2Proof.Machine
end

section
/-! PROOFS. Resets, and the words that reach their owners: what a command leaves, said once for those that publish their work. -/

set_option Elab.async false

namespace Sys2Proof.Machine

variable {s t u : State} {w : Work}

/-! ### What publication leaves -/

theorem backgroundKept.trans (h : backgroundKept s t) (k : backgroundKept t u) : backgroundKept s u := by
  obtain ⟨hmem, hmarks, hproducer, hconsumer, hasserted, htimer⟩ := h
  obtain ⟨kmem, kmarks, kproducer, kconsumer, kasserted, ktimer⟩ := k
  exact ⟨fun a => (kmem a).trans (hmem a), kmarks.trans hmarks, kproducer.trans hproducer, kconsumer.trans hconsumer,
    kasserted.trans hasserted, ktimer.trans htimer⟩

/-- A command whose work leaves table memory, the word marks and the EVU leaves the background. -/
theorem publish_background (o : State) (hmem : w.st.tmc.mem = s.tmc.mem := by rfl) (hmarks : w.st.tmc.marks = s.tmc.marks := by rfl)
    (hevu : w.st.evu = s.evu := by rfl) : backgroundKept s (publish o w) :=
  backgroundKept.trans ⟨fun a => by rw [hmem], hmarks, by rw [hevu], by rw [hevu], by rw [hevu], by rw [hevu]⟩
    (publish_backgroundKept o w)

/-- A published state differs from what its work has reached in the TMC, the SWQ and the EVU alone. -/
theorem publish_frame (o : State) (w : Work) (h : w.st = u) :
    publish o w = { u with tmc := (publish o w).tmc, swq := (publish o w).swq, evu := (publish o w).evu } := by
  subst h
  rfl

theorem publish_tmcKept (o : State) (w : Work) : TmcKept w.st.tmc (publish o w).tmc := (publish_published o w).tmc

/-- A command whose occasion is given answers with its published work. -/
theorem answered {c : Bool} {op : Work → Work} {Q : State → Prop} (hc : c = true) (hQ : Q (publish s (op (Work.start s)))) :
    ∃ t, act c s op = .next t ∧ Q t :=
  ⟨_, act_of_occasion s op hc, hQ⟩

/-- A command that finishes its work answers with it published. -/
theorem finished {Q : State → Prop} (hQ : Q (publish u w)) : ∃ t, finish u w = .next t ∧ Q t :=
  ⟨_, rfl, hQ⟩

/-- A word with a new sequence that asks for the command is taken: it leaves the queue, and the command's work is published. -/
theorem wordTaken {mine : WatchedWord → Bool} {stale fits : Handed → Bool} {op : Handed → Work → Work} {Q : State → Prop} {h : Handed}
    (hfind : s.tbp.handed.find? (fun x => mine x.word) = some h) (hstale : stale h = false) (hfits : fits h = true)
    (hQ : Q (publish (s.setTbp { s.tbp with handed := s.tbp.handed.erase h })
      (op h (Work.start (s.setTbp { s.tbp with handed := s.tbp.handed.erase h }))))) :
    ∃ t, onWord s mine stale fits op = .next t ∧ Q t := by
  refine ⟨_, ?_, hQ⟩
  simp only [onWord, hfind, hstale, hfits, Bool.false_eq_true, if_false, if_true, finish]

/-- What has been asked of the TMC stays asked of it, but for the scrubs. -/
theorem State.asked.publish {a : Access} (h : w.st.asked a) (ha : a.kind.scrub = none) (o : State) : (publish o w).asked a := by
  rcases h with h | h
  · obtain ⟨l, hl, -⟩ := (publish_tmcKept o w).presented
    have hmem : a ∈ notScrubs (Machine.publish o w).tmc.presented := by
      rw [hl]
      exact List.mem_append_left _ (List.mem_filter.2 ⟨h, by rw [ha]; rfl⟩)
    exact .inl (List.mem_filter.1 hmem).1
  · exact .inr (by rw [(publish_tmcKept o w).parked]; exact h)

/-- The TMC and the SWQ alone have changed, and table memory and the word marks have not. -/
structure TmcMoved (s t : State) : Prop where
  mem : t.tmc.mem = s.tmc.mem
  marks : t.tmc.marks = s.tmc.marks
  rest : t = { s with tmc := t.tmc, swq := t.swq }

theorem TmcMoved.refl (s : State) : TmcMoved s s := ⟨rfl, rfl, rfl⟩

theorem TmcMoved.trans (h : TmcMoved s t) (k : TmcMoved t u) : TmcMoved s u := by
  refine ⟨k.mem.trans h.mem, k.marks.trans h.marks, ?_⟩
  rw [k.rest, h.rest]

theorem Asked.moved (h : Asked s t) : TmcMoved s t := ⟨h.tmc.mem, h.tmc.marks, h.rest⟩

theorem moved_setTmc (s : State) (x : Tmc) (hmem : x.mem = s.tmc.mem := by rfl) (hmarks : x.marks = s.tmc.marks := by rfl) :
    TmcMoved s (s.setTmc x) := ⟨hmem, hmarks, rfl⟩

theorem moved_present (s : State) (a : Access) : TmcMoved s (present s a) := (asked_present s a).moved

theorem moved_clearChannel (s : State) : TmcMoved s (clearChannel s) := (moved_setTmc s _).trans (asked_tmcRest _).moved

theorem TmcMoved.ziu (h : TmcMoved s t) : t.ziu = s.ziu := by rw [h.rest]
theorem TmcMoved.plu (h : TmcMoved s t) : t.plu = s.plu := by rw [h.rest]
theorem TmcMoved.tbp (h : TmcMoved s t) : t.tbp = s.tbp := by rw [h.rest]
theorem TmcMoved.evu (h : TmcMoved s t) : t.evu = s.evu := by rw [h.rest]

theorem TmcMoved.background (h : TmcMoved s w.st) (o : State) : backgroundKept s (publish o w) :=
  publish_background o h.mem h.marks h.evu

theorem TmcMoved.frame (h : TmcMoved s w.st) (o : State) :
    publish o w = { s with tmc := (publish o w).tmc, swq := (publish o w).swq, evu := (publish o w).evu } := by
  have hframe := publish_frame o w h.rest
  exact hframe

/-- With a change of the ZIU as well. -/
theorem TmcMoved.zoneFrame {z : Ziu} (h : TmcMoved (s.setZiu z) w.st) (o : State) : publish o w = { s with
    tmc := (publish o w).tmc, swq := (publish o w).swq, ziu := (publish o w).ziu, evu := (publish o w).evu } := by
  have hframe := h.frame o
  rw [congrArg State.ziu hframe]
  exact hframe

/-- With a change of the TBP as well. -/
theorem TmcMoved.busFrame {b : Tbp} (h : TmcMoved (s.setTbp b) w.st) (o : State) : backgroundKept s (publish o w) ∧ publish o w = { s with
    tmc := (publish o w).tmc, tbp := (publish o w).tbp, swq := (publish o w).swq, evu := (publish o w).evu } := by
  have hbackground := h.background o
  have hframe := h.frame o
  rw [congrArg State.tbp hframe]
  exact ⟨hbackground, hframe⟩

/-- With a change of the TBP and the ZIU as well. -/
theorem TmcMoved.busZoneFrame {b : Tbp} {z : Ziu} (h : TmcMoved ((s.setTbp b).setZiu z) w.st) (o : State) :
    backgroundKept s (publish o w) ∧ publish o w = { s with tmc := (publish o w).tmc, tbp := (publish o w).tbp
                                                            swq := (publish o w).swq, ziu := (publish o w).ziu, evu := (publish o w).evu } := by
  have hbackground := h.background o
  have hframe := h.frame o
  rw [congrArg State.tbp hframe, congrArg State.ziu hframe]
  exact ⟨hbackground, hframe⟩

theorem TmcMoved.zoneBackground {z : Ziu} (h : TmcMoved (s.setZiu z) w.st) (o : State) : backgroundKept s (publish o w) := by
  have hbackground := h.background o
  exact hbackground

/-! ### The part as a whole -/

/-- Settles O1, by the definition of a step. -/
theorem stepCarriesOutTheQueueHead : Obligations.StepCarriesOutTheQueueHead := by
  refine ⟨fun c rest s => rfl, fun s h => ?_⟩
  unfold step
  split
  · next e => rw [h] at e; cases e
  · rfl

theorem reset_waitsMatch : State.reset.waitsMatch := by
  have hqueue : ∀ b, State.reset.queue b = [] := fun b => Vector.get_replicate 8 [] b
  refine ⟨fun b => ?_, fun e he => (by cases he), List.nodup_nil⟩
  rw [hqueue]
  exact ⟨fun e he => (by cases he), List.nodup_nil⟩

theorem reset_dutyLaw (z : FanZone) : State.reset.dutyLaw z := by
  have hfull : State.reset.fullDuty z := .inl (by decide)
  unfold State.dutyLaw
  rw [targetDuty_of_fullDuty hfull]
  fin_cases z <;> exact ⟨rfl, Nat.le_refl _, Nat.le_refl _⟩

theorem reset_port (p : PortRef) : State.reset.port p = Port.reset := by
  show ((Vector.replicate 8 (Vector.replicate 48 Port.reset)).get p.slot).get p.port = Port.reset
  rw [Vector.get_replicate, Vector.get_replicate]

theorem reset_paired : State.reset.paired := by
  have hlink : ∀ b, State.reset.link b = Link.reset := fun b => Vector.get_replicate 8 Link.reset b
  have hblade : ∀ b, State.reset.blade b = Blade.reset := fun b => Vector.get_replicate 8 Blade.reset b
  refine ⟨fun b => ?_, fun b hb => by cases hb⟩
  rw [linkFollows_iff, hlink, hblade]
  rfl

theorem reset_bounded : State.reset.bounded := by
  refine ⟨inRange_default, Nat.zero_le _, Nat.zero_le _, by decide, fun b => ?_⟩
  have htemp : State.reset.ftu.temps.get b = BladeTemp.reset := Vector.get_replicate 8 BladeTemp.reset b
  rw [htemp]
  exact Nat.zero_le _

theorem reset_linesWhole : State.reset.linesWhole := by
  have hwaits : ∀ u, State.reset.swq.waits u = [] := fun u => by cases u <;> rfl
  refine ⟨fun e he => (by cases he), fun u n r hm => ?_⟩
  rw [hwaits] at hm
  cases hm

/-- Settles O2: each value stands in the reset record of its unit. -/
theorem resetHoldsTheManualsValues : Obligations.ResetHoldsTheManualsValues := by
  have hlink : ∀ b, State.reset.link b = Link.reset := fun b => Vector.get_replicate 8 Link.reset b
  have hblade : ∀ b, State.reset.blade b = Blade.reset := fun b => Vector.get_replicate 8 Blade.reset b
  refine ⟨rfl, rfl, rfl, rfl, rfl, rfl, rfl, rfl, rfl, rfl, rfl, rfl, fun tag => ?_, fun b => by rw [hlink]; rfl,
    fun b => by rw [hblade]; rfl, fun p => ?_, fun i => ?_, fun z => ?_, fun a => ?_, rfl, reset_bounded, fun b => ?_,
    reset_paired.1, reset_paired.2, reset_dutyLaw, fun p hp => (by cases hp), reset_linesWhole, ?_, reset_waitsMatch, ?_⟩
  · fin_cases tag <;> rfl
  · rw [reset_port]; rfl
  · fin_cases i <;> rfl
  · fin_cases z <;> rfl
  · rfl
  · unfold State.powerFollows
    rw [hblade]
    rfl
  · rw [lossTold_iff]
    rintro ⟨harmed, -⟩
    cases harmed
  · exact ⟨fun k => by fin_cases k <;> rfl, by decide, by decide, by decide⟩

/-! ### Resets -/

theorem featureAtReset_floor (cells : Vector NvCell 2) :
    ((featureAtReset cells).floor, (featureAtReset cells).floorFault) = readFloor (featureAtReset cells).cells := rfl

/-- Settles O12: each unit's record at power-on reset, as `powerOn` builds it. -/
theorem powerOnResetRestoresTheUnits : Obligations.PowerOnResetRestoresTheUnits := by
  intro p s
  refine ⟨powerOn s p, rfl, rfl, rfl, rfl, rfl, fun a => rfl, rfl, rfl, rfl, rfl, powerOn_link s p, fun q => ?_, powerOn_blade s p,
    fun i => ?_, fun r => ?_, fun z => ?_, fun b => ?_, fun f => ?_, fun k => ?_, rfl, rfl, fun b => ?_, fun b => ?_, rfl, rfl, rfl,
    rfl, rfl, rfl, rfl, rfl, rfl, rfl, rfl, rfl⟩
  · exact reset_port q
  · exact Vector.getElem_map psuAtReset i.2
  · have hrotor : Ftu.reset.rotors.get r = RotorRec.reset := Vector.get_replicate 12 RotorRec.reset r
    simp only [powerOn, ftuAtReset, Ftu.derived, Vector.get_mapIx, hrotor]
    split <;> rfl
  · fin_cases z <;> rfl
  · exact Vector.get_replicate 8 BladeTemp.reset b
  · cases f <;> exact ⟨rfl, rfl, rfl⟩
  · exact Vector.get_replicate 8 TokenSlot.reset k
  · exact Vector.get_replicate 8 [] b
  · exact Vector.get_replicate 8 0 b

/-! ### INITIALISATION_COMPLETE and the warm reset -/

/-- Settles O13: what waits is presented to the initialised TMC, which keeps its figures; the release moves a line alone. -/
theorem readyIsAsserted : Obligations.ReadyIsAsserted := by
  refine ⟨fun s hinit => ?_, fun s hwarm => ?_⟩
  · show ∃ t, execInitialisationComplete s = .next t ∧ _
    refine answered (by rw [hinit]; rfl) ?_
    generalize hw : Work.rewrite _ _ = w
    have hasked : Asked (s.setTmc (s.tmc.initialised s.now s.pbu.hold)) w.st := hw ▸ asked_resumePresentations _
    have htmc := hasked.tmc.trans (publish_tmcKept s w).asked
    have hpins : (publish s w).pins = s.pins := by rw [publish_pins, hasked.rest]; rfl
    refine ⟨?_, htmc.debt, htmc.corrected, htmc.uncorrectable, htmc.poisonedWrite, htmc.patrolLine, htmc.patrolAt, htmc.reportAt,
      hasked.moved.background s, hasked.moved.frame s⟩
    unfold State.ready
    rw [hpins, htmc.initDone]
    rfl
  · show ∃ t, execWarmResetRelease s = .next t ∧ _
    refine answered hwarm ⟨?_, ?_, publish_background s, rfl⟩
    · unfold State.ready
      rw [publish_pins, (publish_tmcKept _ _).initDone]
      simp
    · unfold State.attn
      rw [publish_pins, (publish_published _ _).evu.asserted]
      simp

/-- A result of the ZIU changes its result, its detail and its accepted sequence. -/
theorem zoneResult_st (w : Work) (r : CommitResult) (detail seq : Nat) :
    (zoneResult w r detail seq).st = w.st.setZiu { w.st.ziu with result := r, detail := detail, accepted := seq } := by
  unfold zoneResult
  dsimp only
  split <;> rfl

/-- What a warm reset's work has reached in the TBP, the TMC, the EVU and on the lines says what is left of the requests. -/
theorem warmReset_drops (o : State) (hpins : w.st.pins = { s.pins with warm := true } := by rfl)
    (htbp : w.st.tbp = s.tbp.dropped := by rfl) (hjobs : w.st.tmc.jobs = s.tmc.jobs.map (fun j => { j with tag := none }) := by rfl)
    (hevu : w.st.evu = s.evu := by rfl) {P : Prop} (hP : P) :
    (publish o w).ready = false ∧ (publish o w).attn = false ∧ (publish o w).evu.asserted = s.evu.asserted ∧
      (∀ tag, (publish o w).tagSlot tag = if (s.tagSlot tag).outstanding.isSome then ⟨none, none⟩ else s.tagSlot tag) ∧
      (publish o w).tbp = { s.tbp with slots := (publish o w).tbp.slots, heldReads := [], heldWrites := [] } ∧
      (∀ j ∈ (publish o w).tmc.jobs, j.tag = none) ∧ P := by
  have hwarm : (publish o w).pins.warm = true := by rw [publish_pins, hpins]
  refine ⟨by rw [State.ready, hwarm, Bool.not_true, Bool.and_false], by rw [State.attn, hwarm, Bool.not_true, Bool.and_false], by rw [(publish_published o w).evu.asserted, hevu],
    fun tag => ?_, by rw [publish_tbp, htbp]; rfl, fun j hj => ?_, hP⟩
  · unfold State.tagSlot
    rw [publish_tbp, htbp]
    exact Vector.getElem_map _ tag.2
  · rw [(publish_tmcKept o w).jobs, hjobs] at hj
    obtain ⟨k, -, rfl⟩ := List.mem_map.1 hj
    rfl

/-- Settles O14: requests and jobs lose their tags, and a validation in progress ends with its result. -/
theorem warmResetDropsRequests : Obligations.WarmResetDropsRequests := by
  intro s hwarm
  show ∃ t, execWarmReset s = .next t ∧ _
  refine answered (by rw [hwarm]; rfl) ?_
  dsimp only
  split
  next hzone => exact warmReset_drops (s := s) s (hP := ⟨publish_background s, fun h => absurd hzone h, fun _ => rfl, rfl⟩)
  next hzone => exact warmReset_drops (s := s) s (hP := ⟨publish_background s, fun _ => rfl, fun h => absurd h hzone, rfl⟩)

/-! ### Zone command words without a command -/

/-- A zone command word with a new sequence that asks for the command is taken, and its sequence is seen. -/
theorem zoneWordTaken {fits : Nat → Bool} {op : BitVec 64 → Work → Work} {Q : State → Prop} {h : Handed}
    (hfind : s.tbp.handed.find? (fun x => x.word.isZone) = some h) (hnew : wordSequence h.value ≠ s.ziu.seen)
    (hfits : fits (wordCode h.value) = true)
    (hQ : Q (publish (s.setTbp { s.tbp with handed := s.tbp.handed.erase h }) (op h.value (Work.start
      ((s.setTbp { s.tbp with handed := s.tbp.handed.erase h }).setZiu { s.ziu with seen := wordSequence h.value }))))) :
    ∃ t, onZoneWord s fits op = .next t ∧ Q t :=
  wordTaken hfind (decide_eq_false hnew) hfits hQ

/-- Settles O29: NONE changes the seen sequence alone, an unknown code the last result as well. -/
theorem otherZoneWordsChangeNoImage : Obligations.OtherZoneWordsChangeNoImage := by
  refine ⟨fun s h hfind hnew hcode => ?_, fun s h hfind hnew hcode => ?_⟩
  · show ∃ t, execZoneCommandNone s = .next t ∧ _
    exact zoneWordTaken hfind hnew (by rw [hcode]; rfl) ⟨rfl, publish_background s, rfl⟩
  · show ∃ t, execZoneBadCommand s = .next t ∧ _
    exact zoneWordTaken hfind hnew (decide_eq_true hcode) ⟨rfl, publish_background s, rfl⟩

end Sys2Proof.Machine
end

section
/-! PROOFS. The zone images: the resync pass goes to the lowest line in RESYNC, and the words COMMIT and ABORT. -/

set_option Elab.async false

namespace Sys2Proof.Machine

variable {s t u : State} {w : Work}

/-! ### The lowest entry of a sparse table -/

section Sparse

theorem sparseGet_cons {α : Type} (d : α) (k : Nat) (v : α) (m : List (Nat × α)) (i : Nat) :
    sparseGet d ((k, v) :: m) i = if k = i then v else sparseGet d m i := rfl

variable {α : Type} [DecidableEq α] {d : α} {R : α → Prop} [DecidablePred R]

theorem find_none_of_sparse (hd : ¬R d) (p : Nat) : ∀ {m : List (Nat × α)} {lo : Nat}, sparseWfFrom d lo m = true →
    (∀ k, p ≤ k → ¬R (sparseGet d m k)) → m.find? (fun e => decide (p ≤ e.1) && decide (R e.2)) = none
  | [], _, _, _ => rfl
  | (a, v) :: m, lo, hwf, hnone => by
    simp only [sparseWfFrom, Bool.and_eq_true, decide_eq_true_eq] at hwf
    have hhead : ¬(p ≤ a ∧ R v) := fun h => hnone a h.1 (by rw [sparseGet_cons, if_pos rfl]; exact h.2)
    have hrest : ∀ k, p ≤ k → ¬R (sparseGet d m k) := by
      intro k hk hR
      by_cases hak : a = k
      · rw [sparseGet_of_lt d m hwf.2 (by omega)] at hR
        exact hd hR
      · exact hnone k hk (by rw [sparseGet_cons, if_neg hak]; exact hR)
    rw [List.find?_cons_of_neg (by simpa using hhead)]
    exact find_none_of_sparse hd p hwf.2 hrest

theorem find_lowest_of_sparse (hd : ¬R d) (p : Nat) {k : Nat} : ∀ {m : List (Nat × α)} {lo : Nat}, sparseWfFrom d lo m = true →
    lowest (fun k => p ≤ k ∧ R (sparseGet d m k)) k →
    (m.find? (fun e => decide (p ≤ e.1) && decide (R e.2))).map (·.1) = some k
  | [], _, _, hlow => absurd hlow.1.2 hd
  | (a, v) :: m, lo, hwf, hlow => by
    obtain ⟨⟨hpk, hRk⟩, hmin⟩ := hlow
    simp only [sparseWfFrom, Bool.and_eq_true, decide_eq_true_eq] at hwf
    have hbelow : ∀ i, i < a + 1 → sparseGet d m i = d := fun i hi => sparseGet_of_lt d m hwf.2 hi
    by_cases hhead : p ≤ a ∧ R v
    · have hka : ¬a < k := fun h => hmin a h ⟨hhead.1, by rw [sparseGet_cons, if_pos rfl]; exact hhead.2⟩
      have hak : a = k := by
        by_contra hne
        rw [sparseGet_cons, if_neg hne, hbelow k (by omega)] at hRk
        exact hd hRk
      rw [List.find?_cons_of_pos (by simpa using hhead), Option.map_some, hak]
    · have hak : a ≠ k := by
        rintro rfl
        rw [sparseGet_cons, if_pos rfl] at hRk
        exact hhead ⟨hpk, hRk⟩
      rw [List.find?_cons_of_neg (by simpa using hhead)]
      rw [sparseGet_cons, if_neg hak] at hRk
      refine find_lowest_of_sparse hd p hwf.2 ⟨⟨hpk, hRk⟩, fun i hi hR => ?_⟩
      by_cases hai : a = i
      · have hRi := hR.2
        rw [hbelow i (by omega)] at hRi
        exact hd hRi
      · exact hmin i hi ⟨hR.1, by rw [sparseGet_cons, if_neg hai]; exact hR.2⟩

end Sparse

/-! ### The resync pass -/

theorem nextResync_of_lowest {z : Ziu} (hwf : sparseWf .clean z.dirty = true) {p k : Nat} (h : lowest (fun k => p ≤ k ∧ z.inResync k) k) :
    z.nextResync p = some k :=
  find_lowest_of_sparse (R := fun x : LineState => x = .resync ∨ x = .errorHeld) (by decide) p hwf h

theorem nextResync_of_none {z : Ziu} (hwf : sparseWf .clean z.dirty = true) {p : Nat} (h : ∀ k, p ≤ k → ¬z.inResync k) :
    z.nextResync p = none := by
  unfold Ziu.nextResync
  rw [find_none_of_sparse (R := fun x : LineState => x = .resync ∨ x = .errorHeld) (by decide) p hwf h]
  rfl

/-- The pass goes on with the copy of a line. -/
theorem resyncAdvance_copy {w : Work} {l : Layout} {k : Nat} (hzone : w.st.ziu.zone = .resyncing) (hfree : w.st.ziu.copying = none)
    (hlayout : w.st.plu.layout = some l) (hnext : w.st.ziu.nextResync w.st.ziu.resyncPos = some k) :
    resyncAdvance w = (w.setZiu { w.st.ziu with resyncPos := k, copying := some k }).map (fun s =>
      present s ⟨.resync k (l.bankLine w.st.ziu.liveBank k / 64), l.bankLine w.st.ziu.stageBank k / 64⟩) := by
  unfold resyncAdvance
  rw [if_pos ⟨hzone, hfree⟩, hnext, hlayout]

/-- The pass ends. -/
theorem resyncAdvance_end {w : Work} (hzone : w.st.ziu.zone = .resyncing) (hfree : w.st.ziu.copying = none)
    (hnext : w.st.ziu.nextResync w.st.ziu.resyncPos = none) : resyncAdvance w = resyncPassEnd w := by
  unfold resyncAdvance
  rw [if_pos ⟨hzone, hfree⟩, hnext]

theorem resyncPassEnd_ziu (w : Work) : (resyncPassEnd w).st.ziu = { w.st.ziu with
    zone := .idle, copying := none, resyncPos := 4096, detail := w.st.ziu.errorHeldCount, accepted := w.st.ziu.started
    result := if w.st.ziu.aborting then .aborted else if w.st.ziu.errorHeldCount = 0 then .committed else .committedWithErrors } := by
  unfold resyncPassEnd
  dsimp only
  by_cases habort : w.st.ziu.aborting = true
  · simp only [habort, if_true, zoneResult_st]
    rfl
  · by_cases hheld : w.st.ziu.errorHeldCount = 0 <;> simp only [habort, hheld, if_true, if_false, zoneResult_st, Bool.false_eq_true] <;> rfl

theorem present_ziu (s : State) (a : Access) : (present s a).ziu = s.ziu := (moved_present s a).ziu

/-- Publication leaves a pass that has gone on as it is. -/
theorem passGoesOn_publish (o : State) {l : Layout} {w : Work} {first : Nat} (hzone : w.st.ziu.zone = .resyncing)
    (hfree : w.st.ziu.copying = none) (hlayout : w.st.plu.layout = some l) (hpos : w.st.ziu.resyncPos = first)
    (hwf : sparseWf .clean w.st.ziu.dirty = true) (hstarted : w.st.ziu.started = s.ziu.started) :
    passGoesOn s (publish o (resyncAdvance w)) l first w.st.ziu.aborting := by
  have hdirty : (resyncAdvance w).st.ziu.dirty = w.st.ziu.dirty := by rw [(resynced_advance w).ziu]
  have hin : ∀ k, (publish o (resyncAdvance w)).ziu.inResync k ↔ w.st.ziu.inResync k := by
    intro k
    unfold Ziu.inResync Ziu.lineState
    rw [publish_ziu, hdirty]
  subst hpos
  refine ⟨fun k hk => ?_, fun hnone => ?_⟩
  · have hcopy := resyncAdvance_copy hzone hfree hlayout (nextResync_of_lowest hwf (by simpa only [hin] using hk))
    rw [hcopy]
    rw [publish_ziu]
    simp only [Work.map_st, Work.setZiu_st, present_ziu, State.setZiu_ziu]
    refine ⟨hzone, trivial, trivial, State.asked.publish ?_ rfl o⟩
    exact present_mem _ _
  · have hend := resyncAdvance_end hzone hfree (nextResync_of_none hwf (by simpa only [hin] using hnone))
    rw [hend]
    unfold passEnded
    rw [publish_ziu, resyncPassEnd_ziu, hstarted]
    exact ⟨rfl, rfl, rfl, rfl, rfl⟩

/-- A pass that starts goes on from line 1. -/
theorem passGoesOn_start (o : State) {l : Layout} {w : Work} (hlayout : w.st.plu.layout = some l)
    (hwf : sparseWf .clean w.st.ziu.dirty = true) (hstarted : w.st.ziu.started = s.ziu.started) :
    passGoesOn s (publish o (startResync w)) l 1 w.st.ziu.aborting :=
  passGoesOn_publish (w := w.setZiu { w.st.ziu with zone := .resyncing, resyncPos := 1, copying := none }) o rfl rfl hlayout rfl hwf hstarted

/-! ### COMMIT and ABORT -/

/-- Settles O27: the branches of the decision, in their order. -/
theorem commitIsDecidedInOrder : Obligations.CommitIsDecidedInOrder := by
  intro s h hfind hnew hcode
  show ∃ t, execCommit s = .next t ∧ _
  refine zoneWordTaken hfind hnew (by rw [hcode]; rfl) ?_
  unfold commitCommand
  dsimp only
  split
  next hbusy =>
    exact ⟨rfl, rfl, rfl, rfl, rfl, fun _ => ⟨rfl, rfl, rfl⟩, fun hz => absurd hz hbusy, fun hz => absurd hz hbusy,
      fun hz => absurd hz hbusy, fun hz => absurd hz hbusy, rfl, publish_background s, rfl⟩
  next hidle =>
    split
    next hheld =>
      have hne : s.ziu.resyncCount ≠ 0 := Nat.pos_iff_ne_zero.1 hheld
      exact ⟨rfl, rfl, rfl, rfl, rfl, fun hz => absurd hz hidle, fun hz _ => ⟨hz, rfl, rfl⟩, fun _ hr => absurd hr hne,
        fun _ hr => absurd hr hne, fun _ hr => absurd hr hne, rfl, publish_background s, rfl⟩
    next hheld =>
      split
      next hlimit =>
        exact ⟨rfl, rfl, rfl, rfl, rfl, fun hz => absurd hz hidle, fun _ hr => absurd hr hheld, fun hz _ _ => ⟨hz, rfl⟩,
          fun _ _ he => absurd hlimit he, fun _ _ he => absurd hlimit he, rfl, publish_background s, rfl⟩
      next hlimit =>
        split
        next hstaged =>
          exact ⟨rfl, rfl, rfl, rfl, rfl, fun hz => absurd hz hidle, fun _ hr => absurd hr hheld, fun _ _ he => absurd he hlimit,
            fun hz _ _ _ => ⟨hz, rfl⟩, fun _ _ _ hp => absurd hstaged (Nat.pos_iff_ne_zero.1 hp), rfl, publish_background s, rfl⟩
        next hstaged =>
          exact ⟨rfl, rfl, rfl, rfl, rfl, fun hz => absurd hz hidle, fun _ hr => absurd hr hheld, fun _ _ he => absurd he hlimit,
            fun _ _ _ hn => absurd hn hstaged, fun _ _ _ _ => ⟨rfl, rfl, rfl⟩, rfl, publish_background s, rfl⟩

/-- STAGED lines that turn into RESYNC join those that are. -/
theorem resyncCount_turned (z : Ziu) :
    ({ z with dirty := turnLines .staged .resync z.dirty } : Ziu).resyncCount = z.stagedCount + z.resyncCount := by
  have hcount : ∀ d : List (Nat × LineState), ((turnLines .staged .resync d).filter (fun e => decide (e.2 = .resync ∨ e.2 = .errorHeld))).length =
      (d.filter (fun e => decide (e.2 = .staged))).length + (d.filter (fun e => decide (e.2 = .resync ∨ e.2 = .errorHeld))).length := by
    intro d
    induction d with
    | nil => rfl
    | cons e d ih =>
      obtain ⟨k, x⟩ := e
      simp only [turnLines, Bool.decide_or] at ih ⊢
      cases x <;> simp [ih] <;> omega
  exact hcount z.dirty

/-- With a line in RESYNC a pass finds one from line 1 on. -/
theorem nextResync_isSome {z : Ziu} (hkeys : ∀ e ∈ z.dirty, 1 ≤ e.1) (hcount : 0 < z.resyncCount) : ∃ k, z.nextResync 1 = some k := by
  obtain ⟨e, he⟩ := List.exists_mem_of_length_pos hcount
  obtain ⟨hmem, hstate⟩ := List.mem_filter.1 he
  unfold Ziu.nextResync
  cases hfind : z.dirty.find? (fun e => decide (1 ≤ e.1) && decide (e.2 = .resync ∨ e.2 = .errorHeld)) with
  | none => exact absurd (List.find?_eq_none.1 hfind e hmem) (by simp [hkeys e hmem, of_decide_eq_true hstate])
  | some x => exact ⟨x.1, rfl⟩

/-- What an ABORT that takes effect leaves of the ZIU, with no line to copy. -/
theorem abortNow_none {w : Work} {seq : Nat} (h : w.st.ziu.stagedCount + w.st.ziu.resyncCount = 0) :
    abortNow w seq = zoneResult (w.setZiu { w.st.ziu with dirty := turnLines .staged .resync w.st.ziu.dirty }) .aborted 0 seq := by
  have hno : ¬0 < ({ w.st.ziu with dirty := turnLines .staged .resync w.st.ziu.dirty } : Ziu).resyncCount := by
    rw [resyncCount_turned]
    omega
  exact if_neg hno

/-- An ABORT that takes effect with lines to copy starts the pass. -/
theorem abortNow_some {w : Work} {seq : Nat} (h : 0 < w.st.ziu.stagedCount + w.st.ziu.resyncCount) :
    abortNow w seq = startResync (zoneResult (w.setZiu { w.st.ziu with
      dirty := turnLines .staged .resync w.st.ziu.dirty, aborting := true, started := seq }) .pending 0 seq) := by
  have hsome : 0 < ({ w.st.ziu with dirty := turnLines .staged .resync w.st.ziu.dirty } : Ziu).resyncCount := by
    rw [resyncCount_turned]
    exact h
  exact if_pos hsome

theorem Resynced.background (h : Resynced s w.st) (o : State) : backgroundKept s (publish o w) :=
  publish_background o h.tmc.mem h.tmc.marks (by rw [h.rest])

/-- The pass changes the TMC, the SWQ and the ZIU alone. -/
theorem Resynced.frame (h : Resynced s w.st) (o : State) : publish o w = { s with
    tmc := (publish o w).tmc, swq := (publish o w).swq, ziu := (publish o w).ziu, evu := (publish o w).evu } := by
  have hframe := publish_frame o w h.rest
  exact hframe

/-- What an ABORT that takes effect leaves of the zone images. -/
structure AbortLeaves (seq : Nat) (s t : State) : Prop where
  seen : t.ziu.seen = s.ziu.seen
  accepted : t.ziu.accepted = seq
  epoch : t.ziu.epoch = s.ziu.epoch
  swap : t.ziu.swap = s.ziu.swap
  dirty : t.ziu.dirty = turnLines .staged .resync s.ziu.dirty
  none : s.ziu.stagedCount + s.ziu.resyncCount = 0 → t.ziu.zone = .idle ∧ t.ziu.result = .aborted ∧ t.ziu.detail = 0
  some : 0 < s.ziu.stagedCount + s.ziu.resyncCount → t.ziu.zone = .resyncing ∧ t.ziu.result = .pending ∧ t.ziu.aborting = true
  background : backgroundKept s t
  frame : t = { s with tmc := t.tmc, swq := t.swq, ziu := t.ziu, evu := t.evu }

theorem abortLeaves_none (o : State) {w : Work} (seq : Nat) (hzone : w.st.ziu.zone = .idle)
    (h : w.st.ziu.stagedCount + w.st.ziu.resyncCount = 0) : AbortLeaves seq w.st (publish o (abortNow w seq)) := by
  rw [abortNow_none h]
  exact ⟨rfl, rfl, rfl, rfl, rfl, fun _ => ⟨hzone, rfl, rfl⟩, fun hp => absurd h (Nat.pos_iff_ne_zero.1 hp), publish_background o, rfl⟩

theorem turnLines_keys {a b : LineState} {d : List (Nat × LineState)} {n : Nat} (h : ∀ e ∈ d, n ≤ e.1) : ∀ e ∈ turnLines a b d, n ≤ e.1 := by
  intro e he
  obtain ⟨x, hx, rfl⟩ := List.mem_map.1 he
  split
  · exact h x hx
  · exact h x hx

theorem abortLeaves_some (o : State) {w : Work} (seq : Nat) {l : Layout} (hlayout : w.st.plu.layout = some l)
    (hkeys : ∀ e ∈ w.st.ziu.dirty, 1 ≤ e.1) (h : 0 < w.st.ziu.stagedCount + w.st.ziu.resyncCount) :
    AbortLeaves seq w.st (publish o (abortNow w seq)) := by
  obtain ⟨k, hk⟩ := nextResync_isSome (z := { w.st.ziu with dirty := turnLines .staged .resync w.st.ziu.dirty }) (turnLines_keys hkeys)
    (by rw [resyncCount_turned]; exact h)
  rw [abortNow_some h]
  generalize hv : zoneResult _ _ _ _ = v
  have hvst : v.st = w.st.setZiu { w.st.ziu with
      dirty := turnLines .staged .resync w.st.ziu.dirty, aborting := true, started := seq, result := .pending, detail := 0
      accepted := seq } := by rw [← hv, zoneResult_st]; rfl
  have hpass := resynced_start v
  have hcopy : startResync v = _ := resyncAdvance_copy (w := v.setZiu { v.st.ziu with zone := .resyncing, resyncPos := 1, copying := none })
    rfl rfl (by rw [Work.setZiu_st, State.setZiu_plu, hvst]; exact hlayout) (by rw [Work.setZiu_st, State.setZiu_ziu, hvst]; exact hk)
  have hziu : (publish o (startResync v)).ziu = { w.st.ziu with
      dirty := turnLines .staged .resync w.st.ziu.dirty, aborting := true, started := seq, result := .pending, detail := 0
      accepted := seq, zone := .resyncing, resyncPos := k, copying := some k } := by
    rw [publish_ziu, hcopy]
    simp only [Work.map_st, Work.setZiu_st, present_ziu, State.setZiu_ziu, hvst]
  have hbackground := hpass.background o
  have hframe := hpass.frame o
  rw [hvst] at hbackground hframe
  exact ⟨by rw [hziu], by rw [hziu], by rw [hziu], by rw [hziu], by rw [hziu], fun h0 => absurd h0 (Nat.pos_iff_ne_zero.1 h),
    fun _ => ⟨by rw [hziu], by rw [hziu], by rw [hziu]⟩, hbackground, hframe⟩

/-- Settles O28: in AWAIT_ACK and RESYNCING a result alone; otherwise the ABORT takes effect, and ends a validation first. -/
theorem abortIsDecidedByZoneState : Obligations.AbortIsDecidedByZoneState := by
  intro s h hfind hnew hcode hlayout hkeys
  obtain ⟨l, hlayout⟩ := Option.isSome_iff_exists.1 hlayout
  show ∃ t, execAbort s = .next t ∧ _
  refine zoneWordTaken hfind hnew (by rw [hcode]; rfl) ?_
  generalize hs1 : s.setTbp _ = s1
  have hleaves : ∀ w : Work, w.st.plu.layout = some l → (∀ e ∈ w.st.ziu.dirty, 1 ≤ e.1) → w.st.ziu.zone = .idle →
      AbortLeaves (wordSequence h.value) w.st (publish s1 (abortNow w (wordSequence h.value))) := by
    intro w hl hk hz
    rcases Nat.eq_zero_or_pos (w.st.ziu.stagedCount + w.st.ziu.resyncCount) with hcount | hcount
    · exact abortLeaves_none s1 _ hz hcount
    · exact abortLeaves_some s1 _ hl hk hcount
  have hexcl : ∀ a b c : ZoneState, a ≠ b → a ≠ c → s.ziu.zone = a → ¬(s.ziu.zone = b ∨ s.ziu.zone = c) := by
    intro a b c hb hc ha
    rw [ha]
    exact not_or.2 ⟨hb, hc⟩
  subst hs1
  generalize hw : Work.start _ = w at hleaves
  have hst : w.st = (s.setTbp { s.tbp with handed := s.tbp.handed.erase h }).setZiu { s.ziu with seen := wordSequence h.value } := by
    rw [← hw]; rfl
  unfold abortCommand
  split
  next hzone =>
    have hl := hleaves w (by rw [hst]; exact hlayout) (by rw [hst]; exact hkeys) hzone
    rw [hst] at hzone hl
    refine ⟨hl.seen, hl.accepted, hl.epoch, hl.swap, fun hz => absurd hz (hexcl _ _ _ (by decide) (by decide) hzone),
      fun _ => ⟨hl.dirty, hl.none, hl.some⟩, hl.background, ?_⟩
    rw [congrArg State.tbp hl.frame]
    exact hl.frame
  next hzone =>
    have hl := hleaves (endValidation w) (by show w.st.plu.layout = _; rw [hst]; exact hlayout)
      (by show ∀ e ∈ w.st.ziu.dirty, _; rw [hst]; exact hkeys) rfl
    have hend : (endValidation w).st = withdrawValidator ((s.setTbp { s.tbp with handed := s.tbp.handed.erase h }).setZiu
        { s.ziu with seen := wordSequence h.value, zone := .idle, validator := none }) := by
      rw [← hw]; rfl
    rw [hst] at hzone
    rw [hend] at hl
    refine ⟨hl.seen, hl.accepted, hl.epoch, hl.swap, fun hz => absurd hz (hexcl _ _ _ (by decide) (by decide) hzone),
      fun _ => ⟨hl.dirty, hl.none, hl.some⟩, hl.background, ?_⟩
    rw [congrArg State.tbp hl.frame]
    exact hl.frame
  all_goals
    next hzone =>
      subst hw
      exact ⟨rfl, rfl, rfl, rfl, fun _ => ⟨rfl, rfl, rfl, rfl⟩, fun hz => absurd hz (hexcl _ _ _ (by decide) (by decide) hzone),
        publish_background s, rfl⟩

end Sys2Proof.Machine
end

section
/-! PROOFS. Validation: the checks of a staged image in the manual's terms, and what a validator read leads to. -/

set_option Elab.async false

namespace Sys2Proof.Machine

variable {s t u : State} {w : Work}

/-! ### The lowest entry that fails a check -/

theorem numbered_length (l : List DirEntry) : (numbered l).length = l.length := by simp [numbered]

theorem numbered_getElem (l : List DirEntry) (i : Nat) (h : i < (numbered l).length) :
    (numbered l)[i] = (l[i]'(by rwa [numbered_length] at h), i) := by simp [numbered]

/-- The index form of a check on numbered entries. -/
def checkFails (l : List DirEntry) (p : DirEntry × Nat → Bool) (j : Nat) : Prop := ∃ e, l[j]? = some e ∧ p (e, j) = true

theorem find_numbered_of_lowest {l : List DirEntry} {p : DirEntry × Nat → Bool} {j : Nat} (h : lowest (checkFails l p) j) :
    ∃ e, (numbered l).find? p = some (e, j) := by
  obtain ⟨⟨e, he, hp⟩, hmin⟩ := h
  obtain ⟨hj, hje⟩ := List.getElem?_eq_some_iff.1 he
  refine ⟨e, List.find?_eq_some_iff_getElem.2 ⟨hp, j, by rw [numbered_length]; exact hj, ?_, fun i hi => ?_⟩⟩
  · rw [numbered_getElem, hje]
  · rw [numbered_getElem, Bool.not_eq_true']
    by_contra hne
    exact hmin i hi ⟨_, List.getElem?_eq_getElem (by omega), by simpa using hne⟩

theorem find_numbered_of_none {l : List DirEntry} {p : DirEntry × Nat → Bool} (h : ∀ j, ¬checkFails l p j) : (numbered l).find? p = none := by
  rw [List.find?_eq_none]
  intro x hx hp
  obtain ⟨i, hi, rfl⟩ := List.getElem_of_mem hx
  rw [numbered_getElem] at hp
  exact h i ⟨_, List.getElem?_eq_getElem (by rwa [numbered_length] at hi), hp⟩

theorem lowest_congr {P Q : Nat → Prop} (h : ∀ j, P j ↔ Q j) {j : Nat} (hj : lowest P j) : lowest Q j :=
  ⟨(h j).1 hj.1, fun i hi hq => hj.2 i hi ((h i).2 hq)⟩

/-! ### The checks of the directory -/

theorem directoryFails_iff (declared : Nat) (entries : List DirEntry) (j : Nat) : directoryFails declared entries j ↔
    checkFails entries (fun e => if e.2 < declared then decide (e.1.zoneId = 0) else decide (e.1.zoneId ≠ 0)) j := by
  unfold directoryFails checkFails
  by_cases h : j < declared <;> simp [h]

theorem mem_take_iff (l : List DirEntry) (n : Nat) (a : DirEntry) : a ∈ l.take n ↔ ∃ i, i < n ∧ l[i]? = some a := by
  simp only [List.mem_iff_getElem?, List.getElem?_take]
  refine exists_congr fun i => ?_
  by_cases h : i < n <;> simp [h]

/-- The clash of a declared entry with an earlier one. -/
theorem clashFails_iff (rel : DirEntry → DirEntry → Bool) (declared : Nat) (entries : List DirEntry) (j : Nat) :
    checkFails (entries.take declared) (fun e => ((entries.take declared).take e.2).any (fun a => rel a e.1)) j ↔
      j < declared ∧ ∃ i a e, i < j ∧ entries[i]? = some a ∧ entries[j]? = some e ∧ rel a e = true := by
  unfold checkFails
  by_cases hj : j < declared
  · simp only [List.any_eq_true, List.getElem?_take, hj, if_true, true_and, List.take_take, Nat.min_eq_left (Nat.le_of_lt hj), mem_take_iff]
    constructor
    · rintro ⟨e, he, a, ⟨i, hi, ha⟩, hrel⟩
      exact ⟨i, a, e, hi, ha, he, hrel⟩
    · rintro ⟨i, a, e, hi, ha, he, hrel⟩
      exact ⟨e, he, a, ⟨i, hi, ha⟩, hrel⟩
  · simp [hj]

theorem duplicateFails_iff (declared : Nat) (entries : List DirEntry) (j : Nat) : duplicateFails declared entries j ↔
    checkFails (entries.take declared)
      (fun e => ((entries.take declared).take e.2).any (fun a => decide (a.zoneId = e.1.zoneId))) j := by
  rw [clashFails_iff (fun a b => decide (a.zoneId = b.zoneId))]
  simp [duplicateFails]

theorem overlapFails_iff (declared : Nat) (entries : List DirEntry) (j : Nat) : overlapFails declared entries j ↔
    checkFails (entries.take declared) (fun e => ((entries.take declared).take e.2).any (fun a => a.meets e.1)) j := by
  rw [clashFails_iff DirEntry.meets]
  simp [overlapFails, DirEntry.meets]

theorem rangeFails_iff (declared : Nat) (entries : List DirEntry) (j : Nat) : rangeFails declared entries j ↔
    checkFails (entries.take declared)
      (fun e => decide (e.1.count < 1) || decide (256 < e.1.count) || decide (15868 < e.1.start + e.1.count)) j := by
  unfold rangeFails checkFails
  by_cases hj : j < declared <;> simp [hj, or_assoc]

theorem firstClash_of_lowest {rel : DirEntry → DirEntry → Bool} {l : List DirEntry} {j : Nat}
    (h : lowest (checkFails l (fun e => (l.take e.2).any (fun a => rel a e.1))) j) : firstClash rel l = some j := by
  obtain ⟨e, he⟩ := find_numbered_of_lowest h
  unfold firstClash
  rw [he]
  rfl

theorem firstClash_of_none {rel : DirEntry → DirEntry → Bool} {l : List DirEntry}
    (h : ∀ j, ¬checkFails l (fun e => (l.take e.2).any (fun a => rel a e.1)) j) : firstClash rel l = none := by
  unfold firstClash
  rw [find_numbered_of_none h]
  rfl

/-- The checks of Table 1.4-1 in their order: the first that fails decides. -/
theorem directoryFailure_of_judged {declared : Nat} {entries : List DirEntry} {r : CommitResult} {d : Nat}
    (h : directoryJudged declared entries r d) : directoryFailure declared entries = some (r, d) := by
  unfold directoryFailure
  rcases h with ⟨hcount, rfl, rfl⟩ | ⟨hcount, hdir, rfl⟩ | ⟨hcount, hdir, hdup, rfl⟩ | ⟨hcount, hdir, hdup, hrange, rfl⟩ |
    ⟨hcount, hdir, hdup, hrange, hover, rfl⟩
  · rw [if_pos hcount]
  · obtain ⟨e, he⟩ := find_numbered_of_lowest (lowest_congr (directoryFails_iff declared entries) hdir)
    rw [if_neg (by omega)]
    dsimp only
    rw [he]
  · rw [if_neg (by omega)]
    dsimp only
    rw [find_numbered_of_none (fun j => (directoryFails_iff declared entries j).not.1 (hdir j)),
      firstClash_of_lowest (lowest_congr (duplicateFails_iff declared entries) hdup)]
  · obtain ⟨e, he⟩ := find_numbered_of_lowest (lowest_congr (rangeFails_iff declared entries) hrange)
    rw [if_neg (by omega)]
    dsimp only
    rw [find_numbered_of_none (fun j => (directoryFails_iff declared entries j).not.1 (hdir j)),
      firstClash_of_none (fun j => (duplicateFails_iff declared entries j).not.1 (hdup j)), he]
  · rw [if_neg (by omega)]
    dsimp only
    rw [find_numbered_of_none (fun j => (directoryFails_iff declared entries j).not.1 (hdir j)),
      firstClash_of_none (fun j => (duplicateFails_iff declared entries j).not.1 (hdup j)),
      find_numbered_of_none (fun j => (rangeFails_iff declared entries j).not.1 (hrange j)),
      firstClash_of_lowest (lowest_congr (overlapFails_iff declared entries) hover)]

theorem directoryFailure_of_passes {declared : Nat} {entries : List DirEntry} (h : directoryPasses declared entries) :
    directoryFailure declared entries = none := by
  obtain ⟨hcount, h⟩ := h
  unfold directoryFailure
  rw [if_neg (by omega)]
  dsimp only
  rw [find_numbered_of_none (fun j => (directoryFails_iff declared entries j).not.1 (h j).1),
    firstClash_of_none (fun j => (duplicateFails_iff declared entries j).not.1 (h j).2.1),
    find_numbered_of_none (fun j => (rangeFails_iff declared entries j).not.1 (h j).2.2.1),
    firstClash_of_none (fun j => (overlapFails_iff declared entries j).not.1 (h j).2.2.2)]

/-! ### The check of the members -/

/-- A member entry is valid as the table gives it. -/
theorem memberValid_eq_false (b : List Byte) : memberValid b = false ↔
    ¬(leNat (b.take 1) = 1 ∧ leNat ((b.drop 1).take 1) ≤ 7 ∧ leNat ((b.drop 2).take 1) ≤ 47 ∧ leNat ((b.drop 8).take 8) = 0) ∧
      ¬(leNat (b.take 1) = 2 ∧ leNat ((b.drop 8).take 8) ≠ 0) := by
  unfold memberValid
  by_cases h1 : leNat (b.take 1) = 1
  · simp [h1]
  · simp [h1]

/-- The member entries of a line are the four from its place on. -/
theorem memberLine_eq_iff {line m : Nat} (h : 129 ≤ line) : memberLine m = line ↔ ∃ i, i < 4 ∧ m = 4 * (line - 129) + i := by
  unfold memberLine
  constructor
  · intro hm
    exact ⟨m % 4, Nat.mod_lt _ (by omega), by omega⟩
  · rintro ⟨i, hi, rfl⟩
    omega

theorem memberFails_iff {e : DirEntry} {line : Nat} {data : List Byte} {m : Nat} (h : 129 ≤ line) : memberFails e line data m ↔
    (∃ i, i < 4 ∧ m = 4 * (line - 129) + i) ∧ (decide (e.start ≤ m) && decide (m < e.start + e.count) &&
      !memberValid ((data.drop (16 * (m % 4))).take 16)) = true := by
  unfold memberFails
  rw [memberLine_eq_iff h]
  simp only [Bool.and_eq_true, decide_eq_true_eq, Bool.not_eq_true', memberValid_eq_false, memberBytes, and_assoc]

theorem find_range_map {p : Nat → Bool} {a j : Nat} (n : Nat) (hj : j < n) (hp : p (a + j) = true) (hmin : ∀ i, i < j → p (a + i) = false) :
    ((List.range n).map (fun i => a + i)).find? p = some (a + j) := by
  rw [List.find?_eq_some_iff_getElem]
  refine ⟨hp, j, by simpa using hj, by simp, fun i hi => ?_⟩
  simp [hmin i hi]

theorem memberFailure_of_lowest {e : DirEntry} {line : Nat} {data : List Byte} {m : Nat} (h : 129 ≤ line)
    (hlow : lowest (memberFails e line data) m) : memberFailure e line data = some m := by
  obtain ⟨hm, hmin⟩ := hlow
  obtain ⟨⟨i, hi, rfl⟩, hp⟩ := (memberFails_iff h).1 hm
  refine find_range_map 4 hi hp fun k hk => ?_
  by_contra hne
  exact hmin _ (by omega) ((memberFails_iff h).2 ⟨⟨k, by omega, rfl⟩, Bool.eq_true_of_not_eq_false hne⟩)

theorem memberFailure_of_none {e : DirEntry} {line : Nat} {data : List Byte} (h : 129 ≤ line) (hno : ∀ m, ¬memberFails e line data m) :
    memberFailure e line data = none := by
  unfold memberFailure
  rw [List.find?_eq_none]
  intro x hx hp
  obtain ⟨i, hi, rfl⟩ := List.mem_map.1 hx
  exact hno _ ((memberFails_iff h).2 ⟨⟨i, List.mem_range.1 hi, rfl⟩, hp⟩)

/-! ### The validator's reads -/

/-- A validator read of the present run that meets no uncorrectable error goes on with its line. -/
theorem validatorRead_taken {Q : State → Prop} {p : InProgress} {v : Validator} (hp : s.tmc.inProgress = some p)
    (hkind : p.access.kind = .validator v.run) (hv : s.ziu.validator = some v) (hgood : p.uncorrectable = false)
    (hQ : Q (publish s (validatorAdvance ((Work.start s).map clearChannel) v p.data))) :
    ∃ t, exec .validatorReadComplete s = .next t ∧ Q t := by
  show ∃ t, execValidatorReadComplete s = .next t ∧ _
  unfold execValidatorReadComplete validatorDelivers
  simp only [hp, hkind]
  refine finished ?_
  simp only [Work.start_st, hv, ne_eq, not_true, if_false, hgood, Bool.false_eq_true]
  exact hQ

/-- The validator's next read is asked of the TMC. -/
theorem presentValidator_eq {w : Work} {l : Layout} (hlayout : w.st.plu.layout = some l) (run line : Nat) : presentValidator w run line =
    w.map (fun s => present s ⟨.validator run, l.bankLine w.st.ziu.stageBank line / 64⟩) := by
  unfold presentValidator
  rw [hlayout]

/-- A validation goes on with a line: the ZIU has the validator's new place, and the read of the line is asked of the TMC. -/
theorem presentValidator_left (o : State) {l : Layout} (hlayout : s.plu.layout = some l) (v : Validator) (line : Nat)
    {w : Work} (hw : TmcMoved s w.st) {t : State}
    (ht : t = publish o (presentValidator (w.setZiu { w.st.ziu with validator := some v }) v.run line)) :
    t.ziu = { s.ziu with validator := some v } ∧ t.asked ⟨.validator v.run, l.bankLine s.ziu.stageBank line / 64⟩ ∧
      backgroundKept s t ∧ t = { s with tmc := t.tmc, swq := t.swq, ziu := t.ziu, evu := t.evu } := by
  subst ht
  rw [presentValidator_eq (l := l) (by rw [Work.setZiu_st, State.setZiu_plu, hw.plu, hlayout])]
  have hset : w.st.setZiu { w.st.ziu with validator := some v } = { s with
      tmc := w.st.tmc, swq := w.st.swq, ziu := { s.ziu with validator := some v } } := by rw [hw.rest]; rfl
  have hmoved : TmcMoved (s.setZiu { s.ziu with validator := some v }) (w.st.setZiu { w.st.ziu with validator := some v }) := by
    rw [hset]
    exact ⟨hw.mem, hw.marks, rfl⟩
  have hpresent := hmoved.trans (moved_present _ ⟨.validator v.run, l.bankLine s.ziu.stageBank line / 64⟩)
  have hbank : (w.st.setZiu { w.st.ziu with validator := some v }).ziu.stageBank = s.ziu.stageBank := by rw [hset]; rfl
  rw [← hbank] at hpresent
  refine ⟨by rw [publish_ziu]; exact hpresent.ziu, ?_, hpresent.zoneBackground o, hpresent.zoneFrame o⟩
  refine State.asked.publish ?_ rfl o
  rw [← hbank]
  exact present_mem _ _

/-- A validation that fails ends with its result. -/
theorem validationFails_left (o : State) {w : Work} (hw : TmcMoved s w.st) (r : CommitResult) (d : Nat) {t : State}
    (ht : t = publish o (validationFails w r d)) :
    t.ziu = { s.ziu with zone := .idle, validator := none, result := r, detail := d, accepted := s.ziu.started } ∧
      t.tmc.inProgress = w.st.tmc.inProgress ∧ backgroundKept s t ∧
      t = { s with tmc := t.tmc, swq := t.swq, ziu := t.ziu, evu := t.evu } := by
  subst ht
  have hst : (validationFails w r d).st = (withdrawValidator w.st).setZiu { s.ziu with
      zone := .idle, validator := none, result := r, detail := d, accepted := s.ziu.started } := by
    unfold validationFails
    rw [zoneResult_st, hw.ziu, ← hw.ziu]
    rfl
  have hmoved : TmcMoved (s.setZiu { s.ziu with
      zone := .idle, validator := none, result := r, detail := d, accepted := s.ziu.started }) (validationFails w r d).st := by
    rw [hst]
    refine ⟨hw.mem, hw.marks, ?_⟩
    unfold withdrawValidator
    rw [hw.rest]
    rfl
  refine ⟨by rw [publish_ziu]; exact hmoved.ziu, ?_, hmoved.zoneBackground o, hmoved.zoneFrame o⟩
  rw [(publish_tmcKept o _).inProgress, hst]
  rfl

/-! ### The end of AWAIT_ACK and the flip -/

theorem resyncAdvance_ackAt (w : Work) : (resyncAdvance w).st.ziu.ackAt = w.st.ziu.ackAt := by
  unfold resyncAdvance
  dsimp only
  split
  · split
    · rw [Work.map_st, present_ziu]
      rfl
    · rw [resyncPassEnd_ziu]
  · rfl

theorem testAwait_goes {w : Work} (h : w.st.ziu.zone = .awaitAck ∧ w.st.ziu.ackSet = [] ∧ w.st.ziu.inFlight.get w.st.ziu.stageBank = 0) :
    testAwait w = startResync (w.setZiu { w.st.ziu with ackAt := none }) := if_pos h

theorem testAwait_stays {w : Work} (h : ¬(w.st.ziu.zone = .awaitAck ∧ w.st.ziu.ackSet = [] ∧ w.st.ziu.inFlight.get w.st.ziu.stageBank = 0)) :
    testAwait w = w := if_neg h

/-- AWAIT_ACK that ends stops the timer and begins the resync pass. -/
theorem testAwait_passes (o : State) {l : Layout} {w : Work}
    (h : w.st.ziu.zone = .awaitAck ∧ w.st.ziu.ackSet = [] ∧ w.st.ziu.inFlight.get w.st.ziu.stageBank = 0)
    (hlayout : w.st.plu.layout = some l) (hwf : sparseWf .clean w.st.ziu.dirty = true) (hstarted : w.st.ziu.started = s.ziu.started) :
    (publish o (testAwait w)).ziu.ackAt = none ∧ passGoesOn s (publish o (testAwait w)) l 1 w.st.ziu.aborting := by
  rw [testAwait_goes h]
  exact ⟨resyncAdvance_ackAt _, passGoesOn_start (w := w.setZiu { w.st.ziu with ackAt := none }) o hlayout hwf hstarted⟩

theorem queueNotices_rest (e : Nat) : ∀ (l : List Slot) (s : State), l.foldl (fun s b => queueNotice s e b) s =
    { s with blc := (l.foldl (fun s b => queueNotice s e b) s).blc }
  | [], _ => rfl
  | b :: l, s => queueNotices_rest e l (queueNotice s e b)

/-- The ZIU as the flip leaves it before AWAIT_ACK is tested. -/
def flipped (s : State) (zones members : Nat) : Ziu := { s.ziu with
  swap := !s.ziu.swap, epoch := s.ziu.epoch + 1, dirty := turnLines .staged .resync s.ziu.dirty, zone := .awaitAck
  ackSet := upSlots s, ackAt := some (s.now + msec 500), liveZones := zones, liveMembers := members
  validator := none, aborting := false }

/-- The flip tests AWAIT_ACK in a work whose ZIU has flipped. -/
theorem flip_eq {w : Work} (hw : TmcMoved s w.st) (zones members : Nat) : ∃ v x, flip w zones members = testAwait v ∧
    v.st = { s with tmc := w.st.tmc, swq := w.st.swq, ziu := flipped s zones members, blc := x } := by
  have hv : ∃ v, flip w zones members = testAwait v ∧
      v.st = { w.st with ziu := flipped w.st zones members, blc := v.st.blc } := ⟨_, rfl, queueNotices_rest _ _ _⟩
  obtain ⟨v, hflip, hv⟩ := hv
  rw [hw.rest] at hv
  exact ⟨v, _, hflip, hv⟩

theorem flip_left (o : State) {w : Work} (hw : TmcMoved s w.st) (zones members : Nat) {t : State}
    (ht : t = publish o (flip w zones members)) :
    t.ziu.swap = !s.ziu.swap ∧ t.ziu.epoch = s.ziu.epoch + 1 ∧ t.ziu.dirty = turnLines .staged .resync s.ziu.dirty ∧
      t.ziu.ackSet = upSlots s ∧ t.ziu.liveZones = zones ∧ t.ziu.liveMembers = members ∧
      (upSlots s ≠ [] → t.ziu.zone = .awaitAck ∧ t.ziu.ackAt = some (s.now + msec 500)) ∧
      (∀ l, upSlots s = [] → s.ziu.inFlight.get s.ziu.liveBank = 0 → s.plu.layout = some l → sparseWf .clean s.ziu.dirty = true →
        t.ziu.ackAt = none ∧ passGoesOn s t l 1 false) ∧
      backgroundKept s t ∧ t = { s with tmc := t.tmc, swq := t.swq, ziu := t.ziu, blc := t.blc, evu := t.evu } := by
  subst ht
  obtain ⟨v, x, hflip, hv⟩ := flip_eq hw zones members
  rw [hflip]
  have hres := resynced_testAwait v
  have hziu : (publish o (testAwait v)).ziu = { flipped s zones members with
      zone := (testAwait v).st.ziu.zone, result := (testAwait v).st.ziu.result, detail := (testAwait v).st.ziu.detail
      accepted := (testAwait v).st.ziu.accepted, ackAt := (testAwait v).st.ziu.ackAt
      resyncPos := (testAwait v).st.ziu.resyncPos, copying := (testAwait v).st.ziu.copying } := by
    rw [publish_ziu, hres.ziu, hv]
  refine ⟨by rw [hziu]; rfl, by rw [hziu]; rfl, by rw [hziu]; rfl, by rw [hziu]; rfl, by rw [hziu]; rfl, by rw [hziu]; rfl, fun hup => ?_,
    fun l hup hfree hlayout hwf => ?_, ?_, ?_⟩
  · rw [testAwait_stays (by rw [hv]; exact fun h => hup h.2.1), publish_ziu, hv]
    exact ⟨rfl, rfl⟩
  · have hstage : (flipped s zones members).stageBank = s.ziu.liveBank := by
      cases hswap : s.ziu.swap <;> simp [flipped, Ziu.stageBank, Ziu.liveBank, hswap]
    have hpass := testAwait_passes (s := s) (w := v) (l := l) o (by
      rw [hv]
      exact ⟨rfl, hup, by rw [hstage]; exact hfree⟩) (by rw [hv]; exact hlayout)
      (by rw [hv]; exact sparseWf_turnLines .staged .resync (by decide) s.ziu.dirty 0 hwf) (by rw [hv]; rfl)
    have habort : v.st.ziu.aborting = false := by rw [hv]; rfl
    rw [habort] at hpass
    exact hpass
  · exact publish_background o (by rw [hres.tmc.mem, hv]; exact hw.mem) (by rw [hres.tmc.marks, hv]; exact hw.marks)
      (by rw [hres.rest, hv])
  · have hframe := hres.frame o
    rw [hv] at hframe
    rw [congrArg State.blc hframe]
    exact hframe

/-! ### What a validator read leads to -/

/-- Where the links stay, a frame that names them holds as well. -/
theorem zoneFrame_blc (h : t = { s with tmc := t.tmc, swq := t.swq, ziu := t.ziu, evu := t.evu }) :
    t = { s with tmc := t.tmc, swq := t.swq, ziu := t.ziu, blc := t.blc, evu := t.evu } := by
  rw [congrArg State.blc h]
  exact h

/-- In the directory pass, up to bank line 128. -/
theorem validatorAdvance_directory {w : Work} {v : Validator} (hrange : v.range = none) (hline : v.line < 128) (data : List Byte) :
    validatorAdvance w v data = presentValidator (w.setZiu { w.st.ziu with
      validator := some { v with line := v.line + 1, entries := v.entries ++ lineEntries data } }) v.run (v.line + 1) := by
  unfold validatorAdvance
  simp only [hrange, hline, if_true]

/-- At the end of the directory pass, where a check fails. -/
theorem validatorAdvance_judged {w : Work} {v : Validator} (hrange : v.range = none) (hline : 128 ≤ v.line) {data : List Byte}
    {r : CommitResult} {d : Nat} (h : directoryFailure w.st.ziu.declared (v.entries ++ lineEntries data) = some (r, d)) :
    validatorAdvance w v data = validationFails w r d := by
  unfold validatorAdvance
  simp only [hrange, Nat.not_lt.2 hline, if_false, h]

/-- At the end of the directory pass, where every check passes. -/
theorem validatorAdvance_passes {w : Work} {v : Validator} (hrange : v.range = none) (hline : 128 ≤ v.line) {data : List Byte}
    (h : directoryFailure w.st.ziu.declared (v.entries ++ lineEntries data) = none) :
    validatorAdvance w v data = validateRange w { v with entries := v.entries ++ lineEntries data } 0 := by
  unfold validatorAdvance
  simp only [hrange, Nat.not_lt.2 hline, if_false, h]

/-- In the member pass, where the line's entries are valid. -/
theorem validatorAdvance_valid {w : Work} {v : Validator} {i : Nat} {e : DirEntry} (hrange : v.range = some i) (he : v.entries[i]? = some e)
    {data : List Byte} (hvalid : memberFailure e v.line data = none) : validatorAdvance w v data =
    if v.line < memberLine (e.start + e.count - 1) then
      presentValidator (w.setZiu { w.st.ziu with validator := some { v with line := v.line + 1 } }) v.run (v.line + 1)
    else validateRange w v (i + 1) := by
  unfold validatorAdvance
  simp only [hrange, he, hvalid]

/-- In the member pass, where an entry is not valid. -/
theorem validatorAdvance_invalid {w : Work} {v : Validator} {i m : Nat} {e : DirEntry} (hrange : v.range = some i)
    (he : v.entries[i]? = some e) {data : List Byte} (hfail : memberFailure e v.line data = some m) :
    validatorAdvance w v data = validationFails w .member m := by
  unfold validatorAdvance
  simp only [hrange, he, hfail]

/-- The next range of the image is read from its first member line. -/
theorem validateRange_next {w : Work} {v : Validator} {i : Nat} {e : DirEntry} (hi : i < w.st.ziu.declared) (he : v.entries[i]? = some e) :
    validateRange w v i = presentValidator (w.setZiu { w.st.ziu with
      validator := some { v with line := memberLine e.start, range := some i } }) v.run (memberLine e.start) := by
  unfold validateRange
  simp only [List.getElem?_take, hi, if_true, he]

/-- Behind the last range the image flips. -/
theorem validateRange_flips {w : Work} {v : Validator} {i : Nat} (hi : (v.entries.take w.st.ziu.declared)[i]? = none) :
    validateRange w v i = flip w w.st.ziu.declared (memberTotal (v.entries.take w.st.ziu.declared)) := by
  unfold validateRange
  simp only [hi]

/-- Settles O30: the validator's first read, a read in error, and the end of the directory pass by its checks. -/
theorem validationStartsAndEndsOnError : Obligations.ValidationStartsAndEndsOnError := by
  refine ⟨fun s v l hv hzone hnew hwrites hscrub hlayout => ?_, fun s p v hp hkind hv hbad => ?_,
    fun s p v l entries hp hkind hv hgood hrange hlayout hentries => ?_⟩
  · show ∃ t, execValidationStart s = .next t ∧ _
    have hmay : mayValidate s = some v := by
      unfold mayValidate
      simp only [hv, hzone, hnew, hwrites, hscrub, and_self, if_true]
    unfold execValidationStart
    simp only [hmay]
    exact finished (presentValidator_left s hlayout { v with started := true } 1 (w := Work.start s) (.refl s) rfl)
  · show ∃ t, execValidatorReadComplete s = .next t ∧ _
    unfold execValidatorReadComplete validatorDelivers
    simp only [hp, hkind]
    refine finished ?_
    simp only [Work.start_st, hv, ne_eq, not_true, if_false, hbad, if_true]
    exact validationFails_left s (w := (Work.start s).map clearChannel) (moved_clearChannel s) .memoryError v.line rfl
  · refine validatorRead_taken hp hkind hv hgood ?_
    have hmoved : TmcMoved s ((Work.start s).map clearChannel).st := moved_clearChannel s
    generalize (Work.start s).map clearChannel = w at hmoved
    have hdeclared : w.st.ziu.declared = s.ziu.declared := by rw [hmoved.ziu]
    by_cases hline : v.line < 128
    · rw [validatorAdvance_directory hrange hline, ← hentries]
      obtain ⟨hziu, hasked, hback, hframe⟩ :=
        presentValidator_left s hlayout { v with line := v.line + 1, entries := entries } (v.line + 1) hmoved rfl
      exact ⟨fun _ => ⟨hziu, hasked⟩, fun r d h => absurd hline (by omega), fun e h => absurd hline (by omega),
        fun h => absurd hline (by omega), hback, zoneFrame_blc hframe⟩
    · have hline : 128 ≤ v.line := by omega
      cases hfail : directoryFailure w.st.ziu.declared (v.entries ++ lineEntries p.data) with
      | some x =>
        obtain ⟨r, d⟩ := x
        rw [validatorAdvance_judged hrange hline hfail]
        rw [← hentries, hdeclared] at hfail
        obtain ⟨hziu, -, hback, hframe⟩ := validationFails_left s hmoved r d rfl
        refine ⟨fun h => absurd hline (by omega), fun r' d' _ hj => ?_, fun e _ hpass => ?_, fun _ hpass => ?_, hback, zoneFrame_blc hframe⟩
        · cases hfail.symm.trans (directoryFailure_of_judged hj)
          exact hziu
        · cases hfail.symm.trans (directoryFailure_of_passes hpass)
        · cases hfail.symm.trans (directoryFailure_of_passes hpass)
      | none =>
        rw [validatorAdvance_passes hrange hline hfail, ← hentries]
        rw [← hentries, hdeclared] at hfail
        have hnot : ∀ r d, ¬directoryJudged s.ziu.declared entries r d := fun r d hj => by
          cases hfail.symm.trans (directoryFailure_of_judged hj)
        cases hfirst : (entries.take s.ziu.declared)[0]? with
        | none =>
          rw [validateRange_flips (by rw [hdeclared]; exact hfirst), hdeclared]
          obtain ⟨hswap, hepoch, -, -, hzones, hmembers, -, -, hback, hframe⟩ := flip_left s hmoved _ _ rfl
          refine ⟨fun h => absurd hline (by omega), fun r d _ hj => absurd hj (hnot r d), fun e _ _ hsome he => ?_,
            fun _ _ hnone => ⟨hswap, hepoch, hzones.trans hnone, hmembers.trans (by rw [hnone]; rfl)⟩, hback, hframe⟩
          rw [List.getElem?_take, if_pos hsome, he] at hfirst
          cases hfirst
        | some e =>
          obtain ⟨hsome, he⟩ : 0 < s.ziu.declared ∧ entries[0]? = some e := by simpa [List.getElem?_take] using hfirst
          rw [validateRange_next (e := e) (by rw [hdeclared]; exact hsome) he]
          obtain ⟨hziu, hasked, hback, hframe⟩ := presentValidator_left s hlayout
            { v with entries := entries, line := memberLine e.start, range := some 0 } (memberLine e.start) hmoved rfl
          refine ⟨fun h => absurd hline (by omega), fun r d _ hj => absurd hj (hnot r d), fun e' _ _ _ he' => ?_,
            fun _ _ hnone => absurd hsome (by omega), hback, zoneFrame_blc hframe⟩
          cases he.symm.trans he'
          exact ⟨hziu, hasked⟩

/-- Settles O31: the steps of the member pass, and the flip behind the last range. -/
theorem lastMemberLineFlips : Obligations.LastMemberLineFlips := by
  have hflip : ∀ {s : State} {w : Work} {v : Validator} {i : Nat} {e : DirEntry} {data : List Byte}, TmcMoved s w.st → v.range = some i →
      v.entries[i]? = some e → memberFailure e v.line data = none → memberLine (e.start + e.count - 1) ≤ v.line →
      i + 1 = s.ziu.declared → validatorAdvance w v data = flip w s.ziu.declared (memberTotal (v.entries.take s.ziu.declared)) := by
    intro s w v i e data hmoved hrange he hvalid hlast hi
    have hdeclared : w.st.ziu.declared = s.ziu.declared := by rw [hmoved.ziu]
    rw [validatorAdvance_valid hrange he hvalid, if_neg (by omega),
      validateRange_flips (by rw [hdeclared, List.getElem?_take, if_neg (by omega)]), hdeclared]
  refine ⟨fun s p v i e hp hkind hv hgood hrange he hvalid hlast hi hlen hup => ?_,
    fun s p v i e l hp hkind hv hgood hrange he hvalid hlast hi hlen hup hfree hlayout hwf => ?_,
    fun s p v i e l hp hkind hv hgood hrange he hlayout hmember => ⟨fun m hlow => ?_, fun hno hline => ?_, fun f hno hlast hi hf => ?_⟩⟩
  all_goals
    refine validatorRead_taken hp hkind hv hgood ?_
    have hmoved : TmcMoved s ((Work.start s).map clearChannel).st := moved_clearChannel s
    generalize (Work.start s).map clearChannel = w at hmoved
  · rw [hflip hmoved hrange he hvalid hlast hi]
    obtain ⟨hswap, hepoch, hdirty, hset, hzones, hmembers, hwait, -, hback, hframe⟩ := flip_left s hmoved _ _ rfl
    exact ⟨hswap, hepoch, hdirty, (hwait hup).1, hset, (hwait hup).2, hzones, hmembers, hback, hframe⟩
  · rw [hflip hmoved hrange he hvalid hlast hi]
    obtain ⟨hswap, hepoch, hdirty, hset, -, -, -, hpass, hback, hframe⟩ := flip_left s hmoved _ _ rfl
    obtain ⟨htimer, hpass⟩ := hpass l hup hfree hlayout hwf
    exact ⟨hswap, hepoch, hdirty, hset.trans hup, htimer, hpass, hback, hframe⟩
  · rw [validatorAdvance_invalid hrange he (memberFailure_of_lowest hmember hlow)]
    obtain ⟨hziu, -, hback, hframe⟩ := validationFails_left s hmoved .member m rfl
    exact ⟨hziu, hback, hframe⟩
  · rw [validatorAdvance_valid hrange he (memberFailure_of_none hmember hno), if_pos hline]
    exact presentValidator_left s hlayout { v with line := v.line + 1 } (v.line + 1) hmoved rfl
  · have hdeclared : w.st.ziu.declared = s.ziu.declared := by rw [hmoved.ziu]
    rw [validatorAdvance_valid hrange he (memberFailure_of_none hmember hno), if_neg (by omega),
      validateRange_next (e := f) (by rw [hdeclared]; exact hi) hf]
    exact presentValidator_left s hlayout { v with line := memberLine f.start, range := some (i + 1) } (memberLine f.start) hmoved rfl

end Sys2Proof.Machine
end

section
/-! PROOFS. The resync copy and the acknowledgement: a copy that completes, EPOCH_ACK and FETCH_COMPLETION. -/

set_option Elab.async false

namespace Sys2Proof.Machine

variable {s t u : State} {w : Work}

/-! ### The resync copy -/

theorem lineState_setLine {z : Ziu} (hwf : sparseWf .clean z.dirty = true) (k line : Nat) (x : LineState) :
    (z.setLine line x).lineState k = if k = line then x else z.lineState k := by
  exact sparseGet_put LineState.clean line k x z.dirty 0 hwf

/-- With no write that waits for a copy there is none to release. -/
theorem releaseWrites_none {w : Work} (h : w.st.tbp.heldWrites = []) : releaseWrites w = w.setTbp { w.st.tbp with heldWrites := [] } := by
  unfold releaseWrites
  rw [h]
  rfl

/-- The ZIU with a line settled by its copy. -/
def settledLine (z : Ziu) (line : Nat) (failed : Bool) : Ziu :=
  { z.setLine line (if failed then .errorHeld else .clean) with copying := none, resyncPos := line + 1 }

/-- The copy under way settles its line, and the pass goes on. -/
theorem copyDone_eq {w : Work} {line : Nat} (failed : Bool) (hcopying : w.st.ziu.copying = some line) (hheld : w.st.tbp.heldWrites = []) :
    ∃ v, copyDone w line failed = resyncAdvance v ∧
      v.st = ((clearChannel w.st).setZiu (settledLine w.st.ziu line failed)).setTbp { w.st.tbp with heldWrites := [] } := by
  have hcopying' : ¬(w.map clearChannel).st.ziu.copying ≠ some line := not_not.2 hcopying
  unfold copyDone
  dsimp only
  rw [if_neg hcopying', releaseWrites_none]
  · refine ⟨_, rfl, ?_⟩
    split <;> rfl
  · split
    · exact hheld
    · exact hheld

/-- Settles O33: the line is settled, no write waits, and the pass goes on behind the line. -/
theorem resyncCopySettlesItsLine : Obligations.ResyncCopySettlesItsLine := by
  intro s p line live hp hkind hcopying hheld hwf
  show ∃ t, execResyncCopyComplete s = .next t ∧ _
  unfold execResyncCopyComplete
  simp only [hp, hkind]
  refine finished ?_
  obtain ⟨v, hdone, hv⟩ := copyDone_eq (w := Work.start s) p.uncorrectable hcopying hheld
  rw [hdone]
  have hres := resynced_advance v
  have hziu : v.st.ziu = settledLine s.ziu line p.uncorrectable := by rw [hv]; rfl
  have hwf' : sparseWf .clean v.st.ziu.dirty = true := by rw [hziu]; exact sparseWf_put LineState.clean _ _ _ hwf
  refine ⟨fun k => ?_, fun l hzone hlayout => ?_, ?_, ?_, ?_, ?_⟩
  · rw [publish_ziu, hres.ziu, hziu]
    exact lineState_setLine hwf k line _
  · have hpass := passGoesOn_publish (s := s) (w := v) (l := l) (first := line + 1) s (by rw [hziu]; exact hzone) (by rw [hziu]; rfl)
      (by rw [hv]; exact hlayout) (by rw [hziu]; rfl) hwf' (by rw [hziu]; rfl)
    rw [hziu] at hpass
    exact hpass
  · rw [publish_ziu, hres.ziu, hziu]
    rfl
  · rw [publish_ziu, hres.ziu, hziu]
    rfl
  · exact publish_background s (by rw [hres.tmc.mem, hv]; rfl) (by rw [hres.tmc.marks, hv]; rfl) (by rw [hres.rest, hv]; rfl)
  · have hframe := hres.frame s
    rw [hv] at hframe
    rw [congrArg State.tbp hframe]
    exact hframe

/-! ### The acknowledgement -/

/-- The test of AWAIT_ACK behind a change of the acknowledgement set, of its timer or of the fetches in flight. -/
theorem awaitJudged_publish (o : State) {w : Work} {A : List Slot} {F : Vector Nat 2} {x : Option Nat}
    (hziu : w.st.ziu = { s.ziu with ackSet := A, inFlight := F, ackAt := x }) (hplu : w.st.plu = s.plu) :
    awaitJudged s (publish o (testAwait w)) := by
  have hres := resynced_testAwait w
  have hset : (publish o (testAwait w)).ziu.ackSet = A := by rw [publish_ziu, hres.ziu, hziu]
  have hfetches : (publish o (testAwait w)).ziu.inFlight = F := by rw [publish_ziu, hres.ziu, hziu]
  have hdirty : (publish o (testAwait w)).ziu.dirty = s.ziu.dirty := by rw [publish_ziu, hres.ziu, hziu]
  refine ⟨fun l hzone hempty hfree hlayout hwf => ⟨hdirty, ?_⟩, fun hwaits => ?_⟩
  · rw [hset] at hempty
    rw [hfetches] at hfree
    have hpass := testAwait_passes (s := s) (w := w) (l := l) o (by rw [hziu]; exact ⟨hzone, hempty, hfree⟩) (by rw [hplu]; exact hlayout)
      (by rw [hziu]; exact hwf) (by rw [hziu])
    have haborting : w.st.ziu.aborting = s.ziu.aborting := by rw [hziu]
    rw [haborting] at hpass
    exact hpass
  · rw [hset, hfetches] at hwaits
    rw [testAwait_stays, publish_ziu, hziu]
    rw [hziu]
    rintro ⟨hzone, hempty, hfree⟩
    rcases hwaits with hwaits | hwaits | hwaits
    · exact hwaits hzone
    · exact hwaits hempty
    · exact hwaits hfree

/-- The end of a resync pass or of AWAIT_ACK changes no link. -/
theorem Resynced.blc (h : Resynced s t) : t.blc = s.blc := by rw [h.rest]

theorem keepAlive_up {w : Work} {b : Slot} (h : (w.st.link b).state = .up) :
    keepAlive w b = w.setLink b { w.st.link b with keepAt := some (w.st.now + sec 2) } := if_pos h

theorem linkUp_of_state {b : Slot} (h : (s.link b).state = .up) : s.linkUp b = true := decide_eq_true h

theorem publish_link (o : State) (w : Work) (b : Slot) : (publish o w).link b = w.st.link b := rfl

theorem Resynced.link (h : Resynced s t) (b : Slot) : t.link b = s.link b := by
  unfold State.link
  rw [h.blc]

/-- Behind a change of the TMC, the ZIU and of a link, the end of AWAIT_ACK or of a pass leaves the other units. -/
theorem Resynced.linkFrame {r : State} (h : Resynced r w.st) (o : State) (hr : r = { s with tmc := r.tmc, ziu := r.ziu, blc := r.blc })
    (hmem : r.tmc.mem = s.tmc.mem) (hmarks : r.tmc.marks = s.tmc.marks) :
    backgroundKept s (publish o w) ∧ publish o w = { s with
      tmc := (publish o w).tmc, swq := (publish o w).swq, ziu := (publish o w).ziu, blc := (publish o w).blc, evu := (publish o w).evu } := by
  refine ⟨publish_background o (h.tmc.mem.trans hmem) (h.tmc.marks.trans hmarks) ?_, ?_⟩
  · rw [h.rest, hr]
  · have hframe := h.frame o
    generalize r.tmc = x, r.ziu = z, r.blc = y at hr
    subst hr
    rw [congrArg State.blc hframe]
    exact hframe

/-- The timer of an empty set stands still, whether AWAIT_ACK has ended or not. -/
theorem testAwait_ackAt_none {w : Work} (h : w.st.ziu.ackAt = none) : (testAwait w).st.ziu.ackAt = none := by
  unfold testAwait
  dsimp only
  split
  · exact resyncAdvance_ackAt _
  · exact h

/-- An EPOCH_ACK on an UP link restarts the keepalive timer, and may take the blade out of the set. -/
theorem exec_epochAck {b : Slot} {epoch : BitVec 32} (h : (s.link b).state = .up) : exec (.epochAck b epoch) s = .next (publish s
    (if s.ziu.zone = .awaitAck ∧ epoch.toNat = s.ziu.epoch then
      leaveAckSet ((Work.start s).setLink b { s.link b with keepAt := some (s.now + sec 2) }) b
    else (Work.start s).setLink b { s.link b with keepAt := some (s.now + sec 2) })) := by
  have hexec : exec (.epochAck b epoch) s = takeEpochAck b epoch s := rfl
  rw [hexec, takeEpochAck, act_of_occasion s _ (linkUp_of_state h)]
  dsimp only
  rw [keepAlive_up h]
  rfl

/-- Settles O40: the blade leaves the set, and AWAIT_ACK is tested. -/
theorem epochAckLeavesTheSet : Obligations.EpochAckLeavesTheSet := by
  intro b epoch s hup
  refine ⟨_, exec_epochAck hup, ?_⟩
  generalize hw : (Work.start s).setLink b { s.link b with keepAt := some (s.now + sec 2) } = w
  have hst : w.st = s.setLink b { s.link b with keepAt := some (s.now + sec 2) } := by rw [← hw]; rfl
  have hkeep : (w.st.link b).keepAt = some (s.now + sec 2) := by rw [hst, State.link_setLink, if_pos rfl]
  by_cases howes : s.ziu.zone = .awaitAck ∧ epoch.toNat = s.ziu.epoch ∧ b ∈ s.ziu.ackSet
  · obtain ⟨hzone, hepoch, hmem⟩ := howes
    have hcontains : w.st.ziu.ackSet.contains b = true := by rw [hst]; exact List.contains_iff_mem.2 hmem
    have hleave : leaveAckSet w b = testAwait (w.setZiu (w.st.ziu.without b)) := if_pos hcontains
    rw [if_pos ⟨hzone, hepoch⟩, hleave]
    have hres := resynced_testAwait (w.setZiu (w.st.ziu.without b))
    have hziu : (w.setZiu (w.st.ziu.without b)).st.ziu = { s.ziu with
        ackSet := s.ziu.ackSet.filter (fun c => decide (c ≠ b)), inFlight := s.ziu.inFlight
        ackAt := if s.ziu.ackSet.filter (fun c => decide (c ≠ b)) = [] then none else s.ziu.ackAt } := by
      rw [Work.setZiu_st, hst]
      rfl
    have hset : (publish s (testAwait (w.setZiu (w.st.ziu.without b)))).ziu.ackSet = s.ziu.ackSet.filter (fun c => decide (c ≠ b)) := by
      rw [publish_ziu, hres.ziu, hziu]
    refine ⟨?_, fun _ _ => hset, fun _ _ _ => ⟨awaitJudged_publish s hziu (by rw [Work.setZiu_st, hst]; rfl), fun hempty => ?_, fun hleft => ?_⟩,
      fun h => absurd ⟨hzone, hepoch, hmem⟩ h, ?_, hres.linkFrame s (by rw [← hw]; rfl) (by rw [← hw]; rfl) (by rw [← hw]; rfl)⟩
    · rw [publish_link, hres.link]
      exact hkeep
    · rw [hset] at hempty
      exact testAwait_ackAt_none (by rw [hziu]; exact if_pos hempty)
    · rw [hset] at hleft
      rw [hset, publish_ziu, testAwait_stays (by rw [hziu]; exact fun h => hleft h.2.1), hziu, if_neg hleft]
    · rw [publish_ziu, hres.ziu, hziu]
  · have hkept : (if s.ziu.zone = .awaitAck ∧ epoch.toNat = s.ziu.epoch then leaveAckSet w b else w) = w := by
      split
      next h =>
        have hout : w.st.ziu.ackSet.contains b ≠ true := by
          rw [hst]
          exact fun hc => howes ⟨h.1, h.2, List.contains_iff_mem.1 hc⟩
        exact if_neg hout
      next => rfl
    have hziu : (publish s w).ziu = s.ziu := by rw [publish_ziu, hst]; rfl
    rw [hkept]
    refine ⟨hkeep, fun hzone hepoch => ?_, fun hzone hepoch hmem => absurd ⟨hzone, hepoch, hmem⟩ howes, fun _ => hziu, by rw [hziu],
      publish_background s (by rw [hst]; rfl) (by rw [hst]; rfl) (by rw [hst]; rfl), ?_⟩
    · rw [hziu, List.filter_eq_self.2]
      intro c hc
      have hne : c ≠ b := fun heq => howes ⟨hzone, hepoch, heq ▸ hc⟩
      simpa using hne
    · have hframe := publish_frame s w hst
      rw [hziu, congrArg State.blc hframe]
      exact hframe

/-! ### The completion of a fetch -/

theorem Link.takeData_holdsData {l : Link} {d : FetchData} (h : d ∈ l.ready) : l.takeData.holdsData d := by
  unfold Link.takeData
  split
  next x rest hready =>
    rw [hready] at h
    rcases List.mem_cons.1 h with rfl | h
    · exact .inr rfl
    · exact .inl h
  next hready =>
    rw [hready] at h
    cases h

theorem Link.takeOrder_ready (l : Link) : l.takeOrder.ready = l.ready := by
  unfold Link.takeOrder
  split <;> rfl

/-- The transmitter takes a waiting FETCH_DATA or leaves it waiting. -/
theorem Link.pump_holdsData {l : Link} {d : FetchData} (h : d ∈ l.ready) : l.pump.holdsData d := by
  have horder : l.takeOrder.holdsData d := .inl (by rw [l.takeOrder_ready]; exact h)
  unfold Link.pump
  split
  · exact .inl h
  · split
    · exact .inl h
    · split
      · exact .inl h
      · split
        · exact horder
        · split
          · split
            · exact horder
            · exact .inl h
          · exact Link.takeData_holdsData h

theorem queueData_link (s : State) (b c : Slot) (d : FetchData) :
    (queueData s b d).link c = if c = b then ({ s.link b with ready := (s.link b).ready ++ [d] } : Link).pump else s.link c := by
  simp only [queueData, pumpLink, State.link_setLink, if_true]
  split <;> rfl

theorem queueData_holdsData (s : State) (b : Slot) (d : FetchData) : ((queueData s b d).link b).holdsData d := by
  rw [queueData_link, if_pos rfl]
  exact Link.pump_holdsData (List.mem_append_right _ (List.mem_singleton.2 rfl))

/-- A fetch that ends lowers its bank's count, and AWAIT_ACK is tested. -/
theorem dropInFlight_left (o : State) {w : Work} {F : Vector Nat 2} (bank : Bank) (hw : w.st = { s with tmc := w.st.tmc, blc := w.st.blc })
    (hmem : w.st.tmc.mem = s.tmc.mem) (hmarks : w.st.tmc.marks = s.tmc.marks)
    (hF : F = Vector.put s.ziu.inFlight bank (s.ziu.inFlight.get bank - 1)) {t : State} (ht : t = publish o (dropInFlight w bank)) :
    t.blc = w.st.blc ∧ t.ziu.inFlight = F ∧ awaitJudged s t ∧ backgroundKept s t ∧
      t = { s with tmc := t.tmc, swq := t.swq, ziu := t.ziu, blc := t.blc, evu := t.evu } := by
  subst ht
  have hdrop : dropInFlight w bank = testAwait (w.setZiu { w.st.ziu with
      inFlight := Vector.put w.st.ziu.inFlight bank (w.st.ziu.inFlight.get bank - 1) }) := rfl
  have hwziu : w.st.ziu = s.ziu := by rw [hw]
  rw [hdrop, hwziu, ← hF]
  have hres := resynced_testAwait (w.setZiu { s.ziu with inFlight := F })
  have hset : (w.setZiu { s.ziu with inFlight := F }).st = { s with tmc := w.st.tmc, blc := w.st.blc, ziu := { s.ziu with inFlight := F } } := by
    rw [Work.setZiu_st, hw]
    rfl
  exact ⟨by rw [publish_blc, hres.blc]; rfl, by rw [publish_ziu, hres.ziu]; rfl,
    awaitJudged_publish (A := s.ziu.ackSet) (F := F) (x := s.ziu.ackAt) o rfl (by rw [hset]),
    hres.linkFrame o (by rw [hset]) (by rw [hset]; exact hmem) (by rw [hset]; exact hmarks)⟩

/-- A fetch with its binding is answered and leaves the count of its bank. -/
theorem fetchDone_eq {w : Work} {b : Slot} {tag : FetchTag} {f : FetchSlot} {bank : Bank} {epoch : Nat}
    (hf : (w.st.link b).fetches.get tag = some f) (hbound : f.bound = some (bank, epoch)) : fetchDone w b tag = dropInFlight
      ((w.setLink b { w.st.link b with fetches := Vector.put (w.st.link b).fetches tag (some { f with bound := none, got := [] }) }).map
        (fun s => queueData s b ⟨tag, epoch, if f.failed then .memory else .ok, if f.failed then [] else f.got⟩)) bank := by
  unfold fetchDone
  simp only [hf, hbound]

/-- Settles O36: the answer waits or is sent, and the count of the bank falls. -/
theorem fetchCompletionAnswersWithTheBoundEpoch : Obligations.FetchCompletionAnswersWithTheBoundEpoch := by
  refine ⟨fun s p b tag i f bank epoch hp hkind hlast hf hbound => ?_, fun s p bank hp hkind => ?_⟩
  · show ∃ t, execFetchCompletion s = .next t ∧ _
    rw [hkind] at hlast
    unfold execFetchCompletion
    simp only [hp, hkind, hlast, if_true]
    refine finished ?_
    rw [fetchDone_eq (w := (Work.start s).map clearChannel) hf hbound]
    generalize hw : Work.map _ _ = w
    obtain ⟨hblc, hcount, hjudged, hrest⟩ := dropInFlight_left s (s := s) (w := w) bank (by rw [← hw]; rfl) (by rw [← hw]; rfl)
      (by rw [← hw]; rfl) rfl rfl
    refine ⟨?_, hcount, hjudged, hrest⟩
    unfold State.link
    rw [hblc, ← hw]
    exact queueData_holdsData _ _ _
  · show ∃ t, execFetchCompletion s = .next t ∧ _
    unfold execFetchCompletion
    simp only [hp, hkind]
    exact finished (dropInFlight_left s (w := (Work.start s).map clearChannel) bank rfl rfl rfl rfl rfl)

end Sys2Proof.Machine
end

section
/-! PROOFS. The steps of the table memory controller: refresh and power states, the patrol, the deferred scrub and the report period, and
the completions of bus jobs. -/

set_option Elab.async false

namespace Sys2Proof.Machine

variable {s t u : State} {w : Work}

/-! ### A command that changes the TMC alone -/

/-- The part's status does not show the TMC. -/
theorem render_setTmc (s : State) (x : Tmc) (item : StatusItem) : render (s.setTmc x) item = render s item := by
  cases item <;> rfl

theorem changedItems_setTmc (s : State) (x : Tmc) : changedItems s (s.setTmc x) = [] := by
  have hitem : ∀ item, itemDiffers s (s.setTmc x) item = false := fun item => by
    unfold itemDiffers
    rw [render_setTmc]
    exact decide_eq_false (not_not.2 rfl)
  have hblades : changedBlades s (s.setTmc x) = [] := by
    unfold changedBlades
    simp [hitem, State.blade]
  have hports : changedPorts s (s.setTmc x) = [] := by
    unfold changedPorts
    rw [List.flatMap_eq_nil_iff]
    intro b _
    rw [List.filterMap_eq_nil_iff]
    intro e he
    have hsame : e.1.1 = e.1.2 := by
      obtain ⟨i, hi, hie⟩ := List.getElem_of_mem (List.of_mem_zip he).1
      rw [List.getElem_zip] at hie
      rw [← hie]
      rfl
    have harmed : (s.setTmc x).armed = s.armed := rfl
    simp only [harmed, hsame, State.setTmc_plu]
    cases s.armed <;> simp
  unfold changedItems
  simp [hitem, hblades, hports]

/-- A command that changes the TMC alone, with every drop told of, has the TMC's own rules alone follow. -/
theorem publish_setTmc {x : Tmc} (hst : w.st = s.setTmc x) (hevents : w.events = []) (hrewrites : w.rewrites = []) (htold : s.lossTold) :
    publish s w = tmcRest (scrubRest (s.setTmc x)) := by
  have hwritten : writtenItems s w = [] := by
    unfold writtenItems
    rw [hst, changedItems_setTmc, hrewrites]
    rfl
  have htold' : evuRest (s.setTmc x) = s.setTmc x := lossTold_congr htold rfl rfl rfl
  have hheader : itemDiffers s (s.setTmc x) .ringHeader = false := decide_eq_false (not_not.2 rfl)
  rw [publish_eq]
  unfold publishState
  simp only [hwritten, hevents, hst, List.foldl_nil, htold', hheader, Bool.false_eq_true, if_false]

/-! ### Refresh and power states -/

theorem ranOut_iff (o : Option Nat) (now : Nat) : ranOut o now = true ↔ ∃ x, o = some x ∧ x ≤ now := by
  cases o <;> simp [ranOut]

theorem ranOut_some {o : Option Nat} {x now : Nat} (ho : o = some x) (hx : x ≤ now) : ranOut o now = true := (ranOut_iff o now).2 ⟨x, ho, hx⟩

/-- Nothing is eligible for a scrub while the list is as it was. -/
theorem eligibleScrubs_setTmc (s : State) (x : Tmc) (haccepting : x.accepting = s.tmc.accepting) (hdeferred : x.deferred = s.tmc.deferred) :
    eligibleScrubs (s.setTmc x) = eligibleScrubs s := by
  have hscrub : scrubEligible (s.setTmc x) = scrubEligible s := rfl
  unfold eligibleScrubs
  rw [State.setTmc_tmc, haccepting, hdeferred, hscrub]

theorem freshScrubs_none {s : State} (h : eligibleScrubs s = []) : freshScrubs s = [] := by
  unfold freshScrubs
  rw [h]
  split <;> rfl

/-- Settles O23: each step changes the TMC's own figures, and publication leaves POWER_DOWN alone when nothing is presented. -/
theorem refreshAndPowerStates : Obligations.RefreshAndPowerStates := by
  refine ⟨fun s at0 hat hdue => ?_, fun s at0 hpower hat hdue hempty hscrubs htold => ?_,
    fun s hinit hhold hpower hempty hfree => ?_, fun s hexit hpower => ?_⟩
  · show ∃ t, execRefreshDue s = .next t ∧ _
    refine answered (ranOut_some hat hdue) ?_
    have htmc := publish_tmcKept s ((Work.start s).setTmc s.tmc.refreshDue)
    have hdebt : (publish s ((Work.start s).setTmc s.tmc.refreshDue)).tmc.debt = min 8 (s.tmc.debt + 1) := htmc.debt
    refine ⟨hdebt, htmc.refreshAt.trans (by show s.tmc.refreshAt.map (· + 780) = _; rw [hat]; rfl), fun h8 hdown => ?_,
      publish_background s, rfl⟩
    have hleft : ((Work.start s).setTmc s.tmc.refreshDue).st.tmc.power ≠ .powerDown := by
      have h8 : min 8 (s.tmc.debt + 1) = 8 := hdebt.symm.trans h8
      show (if min 8 (s.tmc.debt + 1) = 8 ∧ s.tmc.power = .powerDown then PowerState.active else s.tmc.power) ≠ .powerDown
      split
      · decide
      · next h => exact fun hp => h ⟨h8, hp⟩
    rcases htmc.power with hp | ⟨hp, -⟩
    · exact hleft (hp.symm.trans hdown)
    · exact hleft hp
  · show ∃ t, execIdleTimeout s = .next t ∧ _
    refine answered (ranOut_some hat hdue) ⟨?_, publish_background s, rfl⟩
    have hfresh : freshScrubs (s.setTmc { s.tmc with power := .powerDown, idleAt := none }) = [] :=
      freshScrubs_none ((eligibleScrubs_setTmc s { s.tmc with power := .powerDown, idleAt := none } (by simp [Tmc.accepting, hpower]) rfl).trans hscrubs)
    have hleft := publish_setTmc (s := s) (w := (Work.start s).setTmc { s.tmc with power := .powerDown, idleAt := none }) rfl rfl rfl htold
    exact (congrArg (fun t : State => t.tmc.power) hleft).trans (if_neg fun h => h.2 hfresh)
  · show ∃ t, execSelfRefreshEntry s = .next t ∧ _
    refine answered (by simp [Tmc.drained, hinit, hhold, hpower, hempty, hfree]) ?_
    have htmc := publish_tmcKept s ((Work.start s).setTmc { s.tmc with power := .selfRefresh, debt := 0, refreshAt := none, idleAt := none })
    refine ⟨?_, htmc.debt, htmc.refreshAt, publish_background s, rfl⟩
    rcases htmc.power with hp | ⟨hp, -⟩
    · exact hp
    · cases hp
  · show ∃ t, execSelfRefreshExit s = .next t ∧ _
    refine answered (by rw [hexit, hpower]; rfl) ?_
    generalize hw : Work.map _ _ = w
    have hasked : Asked (s.setTmc { s.tmc with power := .active, exiting := false, debt := 0, refreshAt := some (s.now + 780) }) w.st :=
      hw ▸ asked_resumePresentations _
    have htmc := hasked.tmc.trans (publish_tmcKept s w).asked
    have hmoved := (moved_setTmc s { s.tmc with power := .active, exiting := false, debt := 0, refreshAt := some (s.now + 780) }).trans hasked.moved
    exact ⟨htmc.active rfl, htmc.debt, htmc.refreshAt, htmc.exiting, hmoved.background s, hmoved.frame s⟩

/-! ### The patrol, the deferred scrub and the report period -/

/-- The patrol reads presented are as they were. -/
theorem TmcKept.patrols {x y : Tmc} (h : TmcKept x y) : y.presented.filter (fun a => decide (a.kind = .patrol)) =
    x.presented.filter (fun a => decide (a.kind = .patrol)) := by
  have hsplit : ∀ l : List Access, l.filter (fun a => decide (a.kind = .patrol)) =
      (notScrubs l).filter (fun a => decide (a.kind = .patrol)) := by
    intro l
    unfold notScrubs
    rw [List.filter_filter]
    refine List.filter_congr fun a _ => ?_
    by_cases ha : a.kind = .patrol
    · simp [ha, AccessKind.scrub]
    · simp [ha]
  obtain ⟨l, hl, hheads⟩ := h.presented
  have hnone : l.filter (fun a => decide (a.kind = .patrol)) = [] := by
    rw [List.filter_eq_nil_iff]
    intro a ha
    rw [hheads a ha]
    decide
  rw [hsplit, hl, List.filter_append, hnone, List.append_nil, ← hsplit]

theorem present_presented {s : State} (h : s.tmc.accepting = true) (a : Access) :
    (present s a).tmc.presented = s.tmc.presented ++ [a] := by
  unfold present
  dsimp only
  rw [if_pos h]
  rfl

/-- Events without a unit are handed to an armed part with room in its order. -/
theorem handEvents_taken : ∀ (l : List Event) (s : State), s.armed = true → s.evu.intake.length + l.length ≤ 32 →
    ∀ written, ((l.map (fun e => (⟨none, e⟩ : Raised))).foldl (handRaised written) s).evu.intake.map (·.event) =
      s.evu.intake.map (·.event) ++ l
  | [], s, _, _, _ => by simp
  | e :: l, s, harmed, hroom, written => by
    have hhead : handRaised written s ⟨none, e⟩ = handEvent s e := rfl
    rw [List.length_cons] at hroom
    rw [List.map_cons, List.foldl_cons, hhead, handEvent_taken e harmed (by omega), handEvents_taken l]
    · simp
    · exact harmed
    · simp only [State.setEvu_evu, List.length_append, List.length_cons, List.length_nil]
      omega

/-- What a command raises without a unit joins the intake of an armed part with room. -/
theorem publish_direct_events (o : State) {w : Work} {l : List Event} (hevents : w.events = l.map (fun e => ⟨none, e⟩))
    (harmed : w.st.armed = true) (hroom : w.st.evu.intake.length + l.length ≤ 32) :
    (publish o w).evu.intake.map (·.event) = w.st.evu.intake.map (·.event) ++ l := by
  have hu : Asked w.st (stateWritten o w) := asked_stateWritten o w
  rw [publish_evu, publishState_evu, (evuRest_intake_lostTotal _).1, hevents,
    handEvents_taken l _ (hu.armed.trans harmed) (by rw [hu.evu]; exact hroom), hu.evu]

/-- The reports of the counters above 0, in the order of their codes. -/
def counterReports (t : Tmc) : List Event :=
  (if 0 < t.corrected.count then [memoryReport 0 t.corrected] else []) ++
    (if 0 < t.uncorrectable.count then [memoryReport 1 t.uncorrectable] else []) ++
    (if 0 < t.poisonedWrite.count then [memoryReport 2 t.poisonedWrite] else [])

theorem reportCounter_spec (code : Nat) (c : ErrorCounter) (w : Work) : (reportCounter code c w).st = w.st ∧
    (reportCounter code c w).events = w.events ++ (if 0 < c.count then [memoryReport code c] else []).map (fun e => ⟨none, e⟩) := by
  unfold reportCounter
  split
  · exact ⟨rfl, rfl⟩
  · exact ⟨rfl, by simp⟩

theorem counterReports_length (t : Tmc) : (counterReports t).length ≤ 3 := by
  have hone : ∀ (n : Nat) (e : Event), (if 0 < n then [e] else []).length ≤ 1 := fun n e => by split <;> simp
  simp only [counterReports, List.length_append]
  have h0 := hone t.corrected.count (memoryReport 0 t.corrected)
  have h1 := hone t.uncorrectable.count (memoryReport 1 t.uncorrectable)
  have h2 := hone t.poisonedWrite.count (memoryReport 2 t.poisonedWrite)
  omega

/-- The work of a report period that ends. -/
theorem reportWork_spec (s : State) (x : Tmc) :
    let w := (reportCounter 2 s.tmc.poisonedWrite (reportCounter 1 s.tmc.uncorrectable
      (reportCounter 0 s.tmc.corrected (Work.start s)))).setTmc x
    w.st = s.setTmc x ∧ w.events = (counterReports s.tmc).map (fun e => ⟨none, e⟩) := by
  obtain ⟨hst0, hev0⟩ := reportCounter_spec 0 s.tmc.corrected (Work.start s)
  obtain ⟨hst1, hev1⟩ := reportCounter_spec 1 s.tmc.uncorrectable (reportCounter 0 s.tmc.corrected (Work.start s))
  obtain ⟨hst2, hev2⟩ := reportCounter_spec 2 s.tmc.poisonedWrite
    (reportCounter 1 s.tmc.uncorrectable (reportCounter 0 s.tmc.corrected (Work.start s)))
  refine ⟨?_, ?_⟩
  · rw [Work.setTmc_st, hst2, hst1, hst0, Work.start_st]
  · show (reportCounter 2 s.tmc.poisonedWrite _).events = _
    rw [hev2, hev1, hev0, Work.start_events, List.nil_append, counterReports, List.map_append, List.map_append]

/-- Settles O24: the marks, the completions and the reports of the counters. -/
theorem patrolScrubsAndReports : Obligations.PatrolScrubsAndReports := by
  refine ⟨fun s at0 hat hdue haccepting hwaits => ?_, fun s at0 hat hdue hnone => ?_, fun s p hp hkind => ?_,
    fun s p b k hp hkind => ?_, fun s at0 hat hdue => ?_⟩
  · show ∃ t, execPatrolTick s = .next t ∧ _
    refine answered (ranOut_some hat hdue) ?_
    have htick : patrolTick s = present (s.setTmc { s.tmc with patrolAt := s.tmc.patrolAt.map (· + usec 16) }) ⟨.patrol, s.tmc.patrolLine⟩ :=
      if_neg (by rw [hwaits, haccepting]; decide)
    generalize hw : (Work.start s).map patrolTick = w
    have hst : w.st = present (s.setTmc { s.tmc with patrolAt := s.tmc.patrolAt.map (· + usec 16) }) ⟨.patrol, s.tmc.patrolLine⟩ := by
      rw [← hw, Work.map_st, Work.start_st, htick]
    have hasked := hst ▸ asked_present (s.setTmc { s.tmc with patrolAt := s.tmc.patrolAt.map (· + usec 16) }) ⟨.patrol, s.tmc.patrolLine⟩
    have htmc := hasked.tmc.trans (publish_tmcKept s w).asked
    have hmoved := (moved_setTmc s { s.tmc with patrolAt := s.tmc.patrolAt.map (· + usec 16) }).trans hasked.moved
    refine ⟨htmc.patrolAt.trans (by rw [State.setTmc_tmc, hat]; rfl), ?_, hmoved.background s, hmoved.frame s⟩
    have hmem : (⟨.patrol, s.tmc.patrolLine⟩ : Access) ∈ notScrubs w.st.tmc.presented := by
      have hacc : (s.setTmc { s.tmc with patrolAt := s.tmc.patrolAt.map (· + usec 16) }).tmc.accepting = true := haccepting
      rw [hst, present_presented hacc]
      exact List.mem_filter.2 ⟨List.mem_append_right _ (List.mem_singleton.2 rfl), rfl⟩
    obtain ⟨l, hl, -⟩ := (publish_tmcKept s w).presented
    have hmem' := List.mem_append_left l hmem
    rw [← hl] at hmem'
    exact (List.mem_filter.1 hmem').1
  · show ∃ t, execPatrolTick s = .next t ∧ _
    refine answered (ranOut_some hat hdue) ?_
    have htick : patrolTick s = s.setTmc { s.tmc with patrolAt := s.tmc.patrolAt.map (· + usec 16) } :=
      if_pos (by rcases hnone with h | h <;> simp [h])
    generalize hw : (Work.start s).map patrolTick = w
    have hst : w.st = s.setTmc { s.tmc with patrolAt := s.tmc.patrolAt.map (· + usec 16) } := by
      rw [← hw, Work.map_st, Work.start_st, htick]
    have htmc := publish_tmcKept s w
    have hmoved := hst ▸ moved_setTmc s { s.tmc with patrolAt := s.tmc.patrolAt.map (· + usec 16) }
    rw [hst] at htmc
    exact ⟨htmc.patrolAt.trans (by rw [State.setTmc_tmc, hat]; rfl), htmc.patrolLine, htmc.patrolHeld, htmc.patrols,
      hmoved.background s, hmoved.frame s⟩
  · show ∃ t, execPatrolReadComplete s = .next t ∧ _
    unfold execPatrolReadComplete
    simp only [hp, hkind]
    have hmoved : TmcMoved s (clearChannel (s.setTmc { s.tmc with patrolLine := nextPatrol s.tmc p.access.line })) :=
      (moved_setTmc s _).trans (moved_clearChannel _)
    refine finished ⟨?_, ?_, hmoved.background (w := Work.map _ _) s, hmoved.frame (w := Work.map _ _) s⟩
    · exact (publish_tmcKept s _).inProgress
    · exact (publish_tmcKept s _).patrolLine
  · show ∃ t, execDeferredScrubComplete s = .next t ∧ _
    unfold execDeferredScrubComplete
    simp only [hp, hkind]
    have hmoved : TmcMoved s (clearChannel (s.setTmc { s.tmc with deferred := s.tmc.deferred.erase (b, k) })) :=
      (moved_setTmc s _).trans (moved_clearChannel _)
    refine finished ⟨?_, ?_, hmoved.background (w := Work.map _ _) s, hmoved.frame (w := Work.map _ _) s⟩
    · exact (publish_tmcKept s _).inProgress
    · exact (publish_tmcKept s _).deferred
  · show ∃ t, execReportPeriodEnd s = .next t ∧ _
    refine answered (ranOut_some hat hdue) ?_
    dsimp only [Work.start_st]
    generalize hx : ({ s.tmc with
      corrected := .zero, uncorrectable := .zero, poisonedWrite := .zero, reportAt := s.tmc.reportAt.map (· + sec 1) } : Tmc) = x
    obtain ⟨hst, hevents⟩ := reportWork_spec s x
    have hmoved : TmcMoved s (s.setTmc x) := moved_setTmc s x (by rw [← hx]) (by rw [← hx])
    rw [← hst] at hmoved
    have htmc := publish_tmcKept s ((reportCounter 2 s.tmc.poisonedWrite (reportCounter 1 s.tmc.uncorrectable
      (reportCounter 0 s.tmc.corrected (Work.start s)))).setTmc x)
    rw [hst] at htmc
    refine ⟨htmc.corrected.trans (by rw [← hx]; rfl), htmc.uncorrectable.trans (by rw [← hx]; rfl),
      htmc.poisonedWrite.trans (by rw [← hx]; rfl), htmc.reportAt.trans (by rw [← hx]; show s.tmc.reportAt.map _ = _; rw [hat]; rfl),
      fun hpart hroom => ?_, hmoved.background s, hmoved.frame s⟩
    have hlen := counterReports_length s.tmc
    have hintake := publish_direct_events s hevents (by rw [hst]; exact decide_eq_true hpart) (by
      rw [hst]
      show s.evu.intake.length + _ ≤ 32
      omega)
    rw [hst] at hintake
    exact hintake.trans (by simp [counterReports])

/-! ### The completion of bus jobs -/

theorem publish_tagSlot (o : State) (w : Work) (tag : BusTag) : (publish o w).tagSlot tag = w.st.tagSlot tag := rfl

theorem tagSlot_setTag (s : State) (tag u : BusTag) (x : TagSlot) : (s.setTag tag x).tagSlot u = if u = tag then x else s.tagSlot u :=
  Vector.get_put _ _ _ _

/-- The answer on a tag of the bus is the one given, and the other tags stay. -/
theorem tagSlot_respond (s : State) (tag : BusTag) (status : BusStatus) (data : List (List Byte)) :
    (respond s tag status data).tagSlot tag = ⟨none, some ⟨status, data⟩⟩ ∧
      ∀ u, u ≠ tag → (respond s tag status data).tagSlot u = s.tagSlot u :=
  ⟨(tagSlot_setTag s tag tag _).trans (if_pos rfl), fun u hu => (tagSlot_setTag s tag u _).trans (if_neg hu)⟩

/-- The job whose last access is in progress. -/
theorem finishedJob_read {p : InProgress} {id i : Nat} (hp : s.tmc.inProgress = some p) (hkind : p.access.kind = .busRead id i)
    (hlast : s.tmc.isLast p.access.kind = true) : finishedJob s false = s.tmc.jobs.find? (fun x => decide (x.id = id)) := by
  unfold finishedJob
  simp only [hp, hlast]
  simp only [hkind, Bool.not_true, Bool.false_eq_true, if_false]

theorem finishedJob_write {p : InProgress} {id i : Nat} {bytes : List (Option Byte)} {merge : Option Nat} (hp : s.tmc.inProgress = some p)
    (hkind : p.access.kind = .busWrite id i bytes merge) (hlast : s.tmc.isLast p.access.kind = true) :
    finishedJob s true = s.tmc.jobs.find? (fun x => decide (x.id = id)) := by
  unfold finishedJob
  simp only [hp, hlast]
  simp only [hkind, Bool.not_true, Bool.false_eq_true, if_false, if_true]

/-- A job that is retired is gone, and the channel is free. -/
theorem retireJob_tmc (s : State) (j : BusJob) : (retireJob s j).tmc.inProgress = none ∧ ∀ x ∈ (retireJob s j).tmc.jobs, x.id ≠ j.id :=
  ⟨rfl, fun _ hx => of_decide_eq_true (List.mem_filter.1 hx).2⟩

theorem moved_retireJob (s : State) (j : BusJob) : TmcMoved s (retireJob s j) := (moved_setTmc s _).trans (moved_clearChannel _)

theorem answerJob_tag {j : BusJob} {tag : BusTag} (h : j.tag = some tag) (s : State) (status : BusStatus) (data : List (List Byte)) :
    answerJob s j status data = respond s tag status data := by
  unfold answerJob
  rw [h]

theorem raise_foldl_st {α : Type} (u : UnitId) (e : Work → α → Event) : ∀ (l : List α) (w : Work),
    (l.foldl (fun w a => w.raise u (e w a)) w).st = w.st
  | [], _ => rfl
  | a :: l, w => raise_foldl_st u e l (w.raise u (e w a))

theorem TmcMoved.setTbp (h : TmcMoved s t) (b : Tbp) : TmcMoved (s.setTbp b) (t.setTbp b) := by
  refine ⟨h.mem, h.marks, ?_⟩
  show (t.setTbp b) = _
  rw [h.rest]
  rfl

theorem TmcMoved.setZiu (h : TmcMoved s t) (z : Ziu) : TmcMoved (s.setZiu z) (t.setZiu z) := by
  refine ⟨h.mem, h.marks, ?_⟩
  show (t.setZiu z) = _
  rw [h.rest]
  rfl

/-- What is left when a job's answer is published behind its retirement. -/
theorem answer_left (o : State) {j : BusJob} {tag : BusTag} {status : BusStatus} {data : List (List Byte)} {z : Ziu}
    (hst : w.st = respond ((retireJob s j).setZiu z) tag status data) :
    (publish o w).tagSlot tag = ⟨none, some ⟨status, data⟩⟩ ∧ (∀ u, u ≠ tag → (publish o w).tagSlot u = s.tagSlot u) ∧
      (publish o w).tmc.inProgress = none ∧ (∀ x ∈ (publish o w).tmc.jobs, x.id ≠ j.id) ∧ (publish o w).ziu = z ∧
      backgroundKept s (publish o w) ∧ publish o w = { s with
        tmc := (publish o w).tmc, tbp := (publish o w).tbp, swq := (publish o w).swq, ziu := (publish o w).ziu, evu := (publish o w).evu } := by
  have hmoved := ((moved_retireJob s j).setTbp { s.tbp with slots := Vector.put s.tbp.slots tag ⟨none, some ⟨status, data⟩⟩ }).setZiu z
  have hst' : w.st = ((retireJob s j).setTbp { s.tbp with slots := Vector.put s.tbp.slots tag ⟨none, some ⟨status, data⟩⟩ }).setZiu z := by
    rw [hst]
    rfl
  rw [← hst'] at hmoved
  obtain ⟨hanswer, hothers⟩ := tagSlot_respond ((retireJob s j).setZiu z) tag status data
  have htmc := publish_tmcKept o w
  rw [hst] at htmc
  refine ⟨by rw [publish_tagSlot, hst]; exact hanswer, fun u hu => by rw [publish_tagSlot, hst]; exact hothers u hu,
    htmc.inProgress, ?_, by rw [publish_ziu, hst]; rfl, hmoved.busZoneFrame o⟩
  rw [htmc.jobs]
  exact (retireJob_tmc s j).2

/-- Settles O20: the job leaves the TMC, and its tag has the answer. -/
theorem completionAnswersTheRequest : Obligations.CompletionAnswersTheRequest := by
  have hid : ∀ {id : Nat} {j : BusJob} {l : List BusJob}, l.find? (fun x => decide (x.id = id)) = some j → j.id = id :=
    fun h => by simpa using List.find?_some h
  refine ⟨fun s p id i j tag hp hkind hlast hfind htag => ?_, fun s p id i bytes merge j tag hp hkind hlast hfind htag => ?_⟩
  · show ∃ t, execReadComplete s = .next t ∧ _
    unfold execReadComplete
    simp only [finishedJob_read hp hkind hlast, hfind]
    refine finished ?_
    obtain ⟨hanswer, hothers, hfree, hjobs, hziu, hback, hframe⟩ :=
      answer_left (s := s) (w := readDone (Work.start s) j) (z := s.ziu) s (answerJob_tag htag _ _ _)
    refine ⟨hanswer.trans (by split <;> rfl), hothers, hfree, hid hfind ▸ hjobs, hback, ?_⟩
    rw [hziu] at hframe
    exact hframe
  · show ∃ t, execWriteComplete s = .next t ∧ _
    unfold execWriteComplete
    simp only [finishedJob_write hp hkind hlast, hfind]
    refine finished ?_
    obtain ⟨hanswer, hothers, hfree, hjobs, hziu, hback, hframe⟩ :=
      answer_left (s := s) (w := writeDone (Work.start s) j) (z := { s.ziu with stageWrites := s.ziu.stageWrites - j.stageWrites }) s
        ((raise_foldl_st _ _ _ _).trans (answerJob_tag htag _ _ _))
    exact ⟨hanswer, hothers, hfree, hid hfind ▸ hjobs, hziu, hback, hframe⟩

end Sys2Proof.Machine
end

section
/-! PROOFS. The table bus: the checks of a request in the manual's terms, READ, and the WRITEs that are not carried out. -/

set_option Elab.async false

namespace Sys2Proof.Machine

variable {s t u : State} {w : Work}

/-! ### The checks of a request -/

theorem badForm_iff (s : State) (addr len : Nat) : badForm s addr len = true ↔ formFails s addr len := by
  unfold badForm formFails
  simp only [Bool.or_eq_true, Bool.not_eq_true', Bool.or_eq_false_iff, decide_eq_true_eq, decide_eq_false_iff_not, not_or, or_assoc, and_assoc]

/-- HOLD and a region being armed answer RETRY before anything else. -/
theorem retried_iff (s : State) (addr len : Nat) :
    retried s addr len ↔ s.pbu.hold = true ∨ (decide (s.plu.part = .arming) && inConfigured s (lineAddrs addr len)) = true := by
  unfold retried inConfigured
  simp only [Bool.and_eq_true, decide_eq_true_eq, List.any_eq_true]

theorem classify_retried {addr len : Nat} (h : retried s addr len) (isWrite enabled owned : Bool) :
    classify s isWrite (lineAddrs addr len) enabled owned = some .retry := by
  unfold classify
  rcases (retried_iff s addr len).1 h with h | h
  · rw [if_pos h]
  · rw [if_pos h]
    split <;> rfl

theorem classify_read {addr len : Nat} (h : ¬retried s addr len) : classify s false (lineAddrs addr len) false false = none := by
  rw [retried_iff, not_or] at h
  unfold classify
  rw [if_neg h.1, if_neg h.2]
  rfl

/-! ### What is asked of the TMC -/

theorem State.asked.present {a : Access} (h : s.asked a) (b : Access) : (present s b).asked a := by
  unfold Machine.present
  dsimp only
  split
  · rcases h with h | h
    · exact .inl (List.mem_append_left _ h)
    · exact .inr h
  · rcases h with h | h
    · exact .inl h
    · exact .inr (List.mem_append_left _ h)

theorem State.asked.presentAll {a : Access} : ∀ {l : List Access} {s : State}, s.asked a → (presentAll s l).asked a
  | [], _, h => h
  | b :: l, _, h => State.asked.presentAll (l := l) (h.present b)

theorem presentAll_asked {a : Access} {l : List Access} (h : a ∈ l) (s : State) : (presentAll s l).asked a := by
  induction l generalizing s with
  | nil => cases h
  | cons b l ih =>
    rcases List.mem_cons.1 h with rfl | h
    · exact State.asked.presentAll (l := l) (present_mem s a)
    · exact ih h (present s b)

/-! ### READ -/

/-- A READ that is carried out, by the SWQ entries for its lines. -/
theorem takeRead_free {lines : List Nat} {addrs : List Nat} (tag : BusTag) (hlines : lines = addrs.map (readLine s))
    (h : ∀ e ∈ s.swq.entries, e.line ∉ lines) : takeRead s tag addrs = startRead s tag lines := by
  have hnone : s.swq.entries.filter (fun e => lines.contains e.line) = [] := by
    rw [List.filter_eq_nil_iff]
    exact fun e he hc => h e he (List.contains_iff_mem.1 hc)
  unfold takeRead
  rw [← hlines]
  dsimp only
  rw [hnone]
  rfl

theorem takeRead_held {lines : List Nat} {addrs : List Nat} (tag : BusTag) (hlines : lines = addrs.map (readLine s))
    (h : ∃ e ∈ s.swq.entries, e.line ∈ lines) : takeRead s tag addrs = s.setTbp { s.tbp with
      heldReads := s.tbp.heldReads ++ [⟨tag, lines, (s.swq.entries.filter (fun e => lines.contains e.line)).map (·.id)⟩] } := by
  obtain ⟨e, he, hline⟩ := h
  have hsome : ((s.swq.entries.filter (fun e => lines.contains e.line)).map (·.id)).isEmpty ≠ true := by
    rw [ne_eq, List.isEmpty_iff, List.map_eq_nil_iff, List.filter_eq_nil_iff]
    exact fun hnone => hnone e he (List.contains_iff_mem.2 hline)
  unfold takeRead
  rw [← hlines]
  exact if_neg hsome

/-- What is left by a READ handed to the TMC. -/
theorem startRead_left (s : State) (tag : BusTag) (lines : List Nat) : TmcMoved s (startRead s tag lines) ∧
    (startRead s tag lines).tmc.jobs = s.tmc.jobs ++ [⟨s.tmc.nextJob, some tag, false, List.replicate lines.length [], false, 0, []⟩] ∧
    ∀ i line, lines[i]? = some line → (startRead s tag lines).asked ⟨.busRead s.tmc.nextJob i, line⟩ := by
  have hasked := asked_presentAll (s.setTmc { s.tmc with
      jobs := s.tmc.jobs ++ [⟨s.tmc.nextJob, some tag, false, List.replicate lines.length [], false, 0, []⟩], nextJob := s.tmc.nextJob + 1 })
    ((lines.zip (List.range lines.length)).map (fun p => ⟨.busRead s.tmc.nextJob p.2, p.1⟩))
  refine ⟨(moved_setTmc s _).trans hasked.moved, hasked.tmc.jobs, fun i line hline => presentAll_asked ?_ _⟩
  obtain ⟨hi, hget⟩ := List.getElem?_eq_some_iff.1 hline
  refine List.mem_map.2 ⟨(line, i), List.mem_iff_getElem.2 ⟨i, by simpa using hi, ?_⟩, rfl⟩
  rw [List.getElem_zip, hget, List.getElem_range]

/-- A READ on a free tag, by its checks. -/
theorem readRequest_free {tag : BusTag} (hfree : (s.tagSlot tag).outstanding = none) (addr len : Nat) :
    (formFails s addr len → (readRequest (Work.start s) tag addr len).st = respond s tag .range []) ∧
    (¬formFails s addr len → retried s addr len → (readRequest (Work.start s) tag addr len).st = respond s tag .retry []) ∧
    (¬formFails s addr len → ¬retried s addr len →
      (readRequest (Work.start s) tag addr len).st = takeRead (acceptTag s tag false addr len) tag (lineAddrs addr len)) := by
  have hidle : ¬(((Work.start s).st.tagSlot tag).outstanding.isSome = true) := by
    rw [Work.start_st, hfree]
    decide
  unfold readRequest
  dsimp only
  rw [if_neg hidle]
  refine ⟨fun hform => ?_, fun hform hretry => ?_, fun hform hretry => ?_⟩
  · rw [Work.start_st, if_pos ((badForm_iff s addr len).2 hform)]
    rfl
  · rw [Work.start_st, if_neg ((badForm_iff s addr len).not.2 hform), classify_retried hretry]
    rfl
  · rw [Work.start_st, if_neg ((badForm_iff s addr len).not.2 hform), classify_read hretry]
    rfl

/-- What is left by an answer given at once. -/
theorem respond_left (o : State) {tag : BusTag} {status : BusStatus} {data : List (List Byte)}
    (hst : w.st = respond s tag status data) :
    (publish o w).tagSlot tag = ⟨none, some ⟨status, data⟩⟩ ∧ (∀ u, u ≠ tag → (publish o w).tagSlot u = s.tagSlot u) ∧
      (publish o w).tbp = { s.tbp with slots := (publish o w).tbp.slots } ∧ (publish o w).tmc.jobs = s.tmc.jobs ∧
      backgroundKept s (publish o w) ∧ publish o w = { s with
        tmc := (publish o w).tmc, tbp := (publish o w).tbp, swq := (publish o w).swq, evu := (publish o w).evu } := by
  have hmoved : TmcMoved (s.setTbp { s.tbp with slots := Vector.put s.tbp.slots tag ⟨none, some ⟨status, data⟩⟩ }) w.st := by
    rw [hst]
    exact .refl _
  obtain ⟨hanswer, hothers⟩ := tagSlot_respond s tag status data
  refine ⟨by rw [publish_tagSlot, hst]; exact hanswer, fun u hu => by rw [publish_tagSlot, hst]; exact hothers u hu,
    by rw [publish_tbp, hst]; rfl, by rw [(publish_tmcKept o w).jobs, hst]; rfl, hmoved.busFrame o⟩

/-- What is left by a READ that occupies its tag. -/
theorem takeRead_left (o : State) {tag : BusTag} {addr len : Nat} {lines : List Nat}
    (hlines : lines = (List.range len).map (fun i => readLine s (addr + 64 * i)))
    (hst : w.st = takeRead (acceptTag s tag false addr len) tag (lineAddrs addr len)) :
    (publish o w).tagSlot tag = ⟨some ⟨false, addr, len⟩, none⟩ ∧
      ((∀ e ∈ s.swq.entries, e.line ∉ lines) → (publish o w).tbp.heldReads = s.tbp.heldReads ∧
        (publish o w).tmc.jobs = s.tmc.jobs ++ [⟨s.tmc.nextJob, some tag, false, List.replicate len [], false, 0, []⟩] ∧
        ∀ i, i < len → (publish o w).asked ⟨.busRead s.tmc.nextJob i, readLine s (addr + 64 * i)⟩) ∧
      ((∃ e ∈ s.swq.entries, e.line ∈ lines) → (publish o w).tmc.jobs = s.tmc.jobs ∧ (publish o w).tbp.heldReads =
        s.tbp.heldReads ++ [⟨tag, lines, (s.swq.entries.filter (fun e => lines.contains e.line)).map (·.id)⟩]) ∧
      (∀ u, u ≠ tag → (publish o w).tagSlot u = s.tagSlot u) ∧ (publish o w).tbp.handed = s.tbp.handed ∧
      (publish o w).tbp.heldWrites = s.tbp.heldWrites ∧ backgroundKept s (publish o w) ∧ publish o w = { s with
        tmc := (publish o w).tmc, tbp := (publish o w).tbp, swq := (publish o w).swq, evu := (publish o w).evu } := by
  have hslot : ∀ u, (acceptTag s tag false addr len).tagSlot u = if u = tag then ⟨some ⟨false, addr, len⟩, none⟩ else s.tagSlot u :=
    fun u => tagSlot_setTag s tag u _
  have hlines' : lines = (lineAddrs addr len).map (readLine (acceptTag s tag false addr len)) := by
    rw [hlines, lineAddrs, List.map_map]
    rfl
  by_cases h : ∃ e ∈ s.swq.entries, e.line ∈ lines
  · rw [takeRead_held tag hlines' h] at hst
    have hmoved : TmcMoved (s.setTbp w.st.tbp) w.st := by
      rw [hst]
      exact .refl _
    have htag : ∀ u, (publish o w).tagSlot u = (acceptTag s tag false addr len).tagSlot u := fun u => by rw [publish_tagSlot, hst]; rfl
    refine ⟨by rw [htag, hslot, if_pos rfl], fun hnone => ?_, fun _ => ⟨by rw [(publish_tmcKept o w).jobs, hst]; rfl, by rw [publish_tbp, hst]; rfl⟩,
      fun u hu => by rw [htag, hslot, if_neg hu], by rw [publish_tbp, hst]; rfl, by rw [publish_tbp, hst]; rfl, hmoved.busFrame o⟩
    obtain ⟨e, he, hline⟩ := h
    exact absurd hline (hnone e he)
  · have hfree : ∀ e ∈ s.swq.entries, e.line ∉ lines := fun e he hline => h ⟨e, he, hline⟩
    rw [takeRead_free tag hlines' hfree] at hst
    obtain ⟨hmoved, hjobs, hasked⟩ := startRead_left (acceptTag s tag false addr len) tag lines
    have htbp : w.st.tbp = (acceptTag s tag false addr len).tbp := by rw [hst, hmoved.tbp]
    rw [← hst] at hmoved hjobs hasked
    have htag : ∀ u, (publish o w).tagSlot u = (acceptTag s tag false addr len).tagSlot u := fun u => by
      rw [publish_tagSlot]
      unfold State.tagSlot
      rw [htbp]
    have hlen : lines.length = len := by rw [hlines, List.length_map, List.length_range]
    rw [hlen] at hjobs
    refine ⟨by rw [htag, hslot, if_pos rfl], fun _ => ⟨by rw [publish_tbp, htbp]; rfl, (publish_tmcKept o w).jobs.trans hjobs, fun i hi => ?_⟩,
      fun hsome => absurd hsome h, fun u hu => by rw [htag, hslot, if_neg hu], by rw [publish_tbp, htbp]; rfl, by rw [publish_tbp, htbp]; rfl,
      TmcMoved.busFrame hmoved o⟩
    exact (hasked i _ (by rw [hlines, List.getElem?_map, List.getElem?_range hi]; rfl)).publish rfl o

/-- Settles O15: a READ by the outcome of its checks. -/
theorem readIsAnsweredOrTaken : Obligations.ReadIsAnsweredOrTaken := by
  intro tag addr len s hready hfree
  obtain ⟨hform, hretry, htake⟩ := readRequest_free hfree addr.toNat len.toNat
  show ∃ t, execRead tag addr len s = .next t ∧ _
  refine answered hready ?_
  by_cases h1 : formFails s addr.toNat len.toNat
  · obtain ⟨hanswer, hothers, htbp, hjobs, hback, hframe⟩ := respond_left s (hform h1)
    exact ⟨fun _ => hanswer, fun h => absurd h1 h, fun _ => ⟨hjobs, by rw [htbp]⟩, fun h => absurd h1 h, hothers, by rw [htbp], by rw [htbp],
      hback, hframe⟩
  · by_cases h2 : retried s addr.toNat len.toNat
    · obtain ⟨hanswer, hothers, htbp, hjobs, hback, hframe⟩ := respond_left s (hretry h1 h2)
      exact ⟨fun h => absurd h h1, fun _ _ => hanswer, fun _ => ⟨hjobs, by rw [htbp]⟩, fun _ h => absurd h2 h, hothers, by rw [htbp],
        by rw [htbp], hback, hframe⟩
    · obtain ⟨htag, -, -, hothers, hhanded, hheld, hback, hframe⟩ := takeRead_left s (len := len.toNat) rfl (htake h1 h2)
      refine ⟨fun h => absurd h h1, fun _ h => absurd h h2, fun h => (h.elim h1 h2).elim, fun _ _ => ⟨htag, fun lines hlines => ?_⟩, hothers,
        hhanded, hheld, hback, hframe⟩
      obtain ⟨-, hnone, hsome, -⟩ := takeRead_left s hlines (htake h1 h2)
      exact ⟨hnone, hsome⟩

/-! ### The bytes of a WRITE -/

theorem lineMask_getElem {len : Nat} {data : List Byte} {enables : List Bool} (hdata : data.length = 64 * len)
    (henables : enables.length = 64 * len) {i j : Nat} (hi : i < len) (hj : j < 64) :
    (lineMask data enables i)[j]? = some (if enables[64 * i + j]? = some true then data[64 * i + j]? else none) := by
  have hk : 64 * i + j < 64 * len := by omega
  have hd : data[64 * i + j]? = some (data[64 * i + j]'(by omega)) := List.getElem?_eq_getElem _
  have he : enables[64 * i + j]? = some (enables[64 * i + j]'(by omega)) := List.getElem?_eq_getElem _
  have hzip : ((data.drop (64 * i)).zip (enables.drop (64 * i)))[j]? = some (data[64 * i + j]'(by omega), enables[64 * i + j]'(by omega)) :=
    List.getElem?_zip_eq_some.2 ⟨by rw [List.getElem?_drop]; exact hd, by rw [List.getElem?_drop]; exact he⟩
  unfold lineMask
  dsimp only
  rw [List.getElem?_append_left (by simp only [List.length_map, List.length_take, List.length_zip, List.length_drop]; omega),
    List.getElem?_map, List.getElem?_take, if_pos hj, hzip, hd, he]
  cases enables[64 * i + j]'(by omega) <;> simp

theorem stripLine_getElem (s : State) (a : Nat) {mask : List (Option Byte)} {j : Nat} {x : Option Byte} (hj : j < 64) (hx : mask[j]? = some x) :
    (stripLine s a mask)[j]? = some (if cpOwned s.armed (regionOf s a) j = true then x else none) := by
  have hzip : (mask.zip (List.range 64))[j]? = some (x, j) := List.getElem?_zip_eq_some.2 ⟨hx, List.getElem?_range hj⟩
  unfold stripLine
  dsimp only
  rw [List.getElem?_map, hzip]
  rfl

theorem lineMask_length (data : List Byte) (enables : List Bool) (i : Nat) : (lineMask data enables i).length = 64 := by
  simp only [lineMask, List.length_append, List.length_replicate, List.length_map, List.length_take]
  omega

theorem stripLine_length (s : State) (a : Nat) {mask : List (Option Byte)} (h : mask.length = 64) : (stripLine s a mask).length = 64 := by
  simp [stripLine, h]

theorem anyEnabled_iff {mask : List (Option Byte)} (h : mask.length = 64) : anyEnabled mask = true ↔ ∃ j, j < 64 ∧ ∃ v, mask[j]? = some (some v) := by
  unfold anyEnabled
  rw [List.any_eq_true]
  constructor
  · rintro ⟨x, hx, hsome⟩
    obtain ⟨j, hj, rfl⟩ := List.getElem_of_mem hx
    obtain ⟨v, hv⟩ := Option.isSome_iff_exists.1 hsome
    exact ⟨j, h ▸ hj, v, by rw [List.getElem?_eq_getElem hj, hv]⟩
  · rintro ⟨j, -, v, hv⟩
    exact ⟨some v, List.mem_iff_getElem?.2 ⟨j, hv⟩, rfl⟩

section Bytes

variable {addr len : Nat} {data : List Byte} {enables : List Bool}

theorem writeLines_getElem (s : State) (addr len : Nat) (data : List Byte) (enables : List Bool) {i : Nat} (hi : i < len) :
    (writeLines s (lineAddrs addr len) data enables)[i]? =
      some ⟨addr + 64 * i, stripLine s (addr + 64 * i) (lineMask data enables i)⟩ := by
  have ha : (lineAddrs addr len)[i]? = some (addr + 64 * i) := by
    rw [lineAddrs, List.getElem?_map, List.getElem?_range hi]
    rfl
  have hlen : (lineAddrs addr len).length = len := by simp [lineAddrs]
  have hzip : ((lineAddrs addr len).zip (List.range (lineAddrs addr len).length))[i]? = some (addr + 64 * i, i) :=
    List.getElem?_zip_eq_some.2 ⟨ha, by rw [hlen]; exact List.getElem?_range hi⟩
  unfold writeLines
  rw [List.getElem?_map, hzip]
  rfl

theorem writeLines_length (s : State) (addr len : Nat) (data : List Byte) (enables : List Bool) :
    (writeLines s (lineAddrs addr len) data enables).length = len := by simp [writeLines, lineAddrs]

theorem mem_writeLines (s : State) (addr len : Nat) (data : List Byte) (enables : List Bool) (l : WriteLine) :
    l ∈ writeLines s (lineAddrs addr len) data enables ↔
      ∃ i, i < len ∧ l = ⟨addr + 64 * i, stripLine s (addr + 64 * i) (lineMask data enables i)⟩ := by
  rw [List.mem_iff_getElem?]
  refine exists_congr fun i => ?_
  by_cases hi : i < len
  · rw [writeLines_getElem s addr len data enables hi]
    simp [hi, eq_comm]
  · rw [List.getElem?_eq_none (by rw [writeLines_length]; omega)]
    simp [hi]

/-- The byte `j` of line `i` of a WRITE as it is carried out. -/
theorem writtenByte (s : State) (addr : Nat) (hdata : data.length = 64 * len) (henables : enables.length = 64 * len) {i j : Nat} (hi : i < len)
    (hj : j < 64) : (stripLine s (addr + 64 * i) (lineMask data enables i))[j]? =
      some (if enables[64 * i + j]? = some true ∧ cpOwned s.armed (regionOf s (addr + 64 * i)) j = true then data[64 * i + j]? else none) := by
  rw [stripLine_getElem s _ hj (lineMask_getElem hdata henables hi hj)]
  by_cases h1 : enables[64 * i + j]? = some true <;> by_cases h2 : cpOwned s.armed (regionOf s (addr + 64 * i)) j = true <;> simp [h1, h2]

theorem writeEnables_iff (hdata : data.length = 64 * len) (henables : enables.length = 64 * len) :
    (List.range len).any (fun i => anyEnabled (lineMask data enables i)) = true ↔ writeEnables len enables := by
  rw [List.any_eq_true]
  constructor
  · rintro ⟨i, hi, h⟩
    obtain ⟨j, hj, v, hv⟩ := (anyEnabled_iff (lineMask_length data enables i)).1 h
    rw [lineMask_getElem hdata henables (List.mem_range.1 hi) hj] at hv
    have hi := List.mem_range.1 hi
    refine ⟨64 * i + j, by omega, ?_⟩
    by_contra hne
    rw [if_neg hne] at hv
    cases hv
  · rintro ⟨k, hk, he⟩
    have hsplit : 64 * (k / 64) + k % 64 = k := Nat.div_add_mod k 64
    have hi : k / 64 < len := by omega
    refine ⟨k / 64, List.mem_range.2 hi, (anyEnabled_iff (lineMask_length data enables _)).2 ⟨k % 64, by omega, data[k]'(by omega), ?_⟩⟩
    rw [lineMask_getElem hdata henables hi (by omega), hsplit, if_pos he, List.getElem?_eq_getElem]

theorem writeOwned_iff (s : State) (addr : Nat) (hdata : data.length = 64 * len) (henables : enables.length = 64 * len) :
    (writeLines s (lineAddrs addr len) data enables).any (fun l => anyEnabled l.mask) = true ↔ writeOwned s addr len enables := by
  have hlen : ∀ i, (stripLine s (addr + 64 * i) (lineMask data enables i)).length = 64 := fun i => stripLine_length s _ (lineMask_length _ _ _)
  rw [List.any_eq_true]
  constructor
  · rintro ⟨l, hl, h⟩
    obtain ⟨i, hi, rfl⟩ := (mem_writeLines s addr len data enables l).1 hl
    obtain ⟨j, hj, v, hv⟩ := (anyEnabled_iff (hlen i)).1 h
    rw [writtenByte s addr hdata henables hi hj] at hv
    have hdiv : (64 * i + j) / 64 = i := by omega
    have hmod : (64 * i + j) % 64 = j := by omega
    refine ⟨64 * i + j, by omega, ?_⟩
    rw [hdiv, hmod]
    by_contra hne
    rw [if_neg hne] at hv
    cases hv
  · rintro ⟨k, hk, he, hown⟩
    have hsplit : 64 * (k / 64) + k % 64 = k := Nat.div_add_mod k 64
    have hi : k / 64 < len := by omega
    refine ⟨_, (mem_writeLines s addr len data enables _).2 ⟨k / 64, hi, rfl⟩, (anyEnabled_iff (hlen _)).2 ⟨k % 64, by omega, data[k]'(by omega), ?_⟩⟩
    rw [writtenByte s addr hdata henables hi (by omega), hsplit, if_pos ⟨he, hown⟩, List.getElem?_eq_getElem]

end Bytes

/-! ### The classification of a WRITE -/

theorem mem_lineAddrs {addr len a : Nat} : a ∈ lineAddrs addr len ↔ ∃ i, i < len ∧ a = addr + 64 * i := by
  simp [lineAddrs, eq_comm]

theorem isLive_iff {r : Region} : r.isLive = true ↔ ∃ k, r = .live k := by cases r <;> simp [Region.isLive]

theorem inLiveWindow_iff (s : State) (addr len : Nat) :
    (lineAddrs addr len).any (fun a => (regionOf s a).isLive) = true ↔ inLiveWindow s addr len := by
  simp only [List.any_eq_true, isLive_iff, mem_lineAddrs, inLiveWindow]
  constructor
  · rintro ⟨a, ⟨i, hi, rfl⟩, k, hk⟩
    exact ⟨i, k, hi, hk⟩
  · rintro ⟨i, k, hi, hk⟩
    exact ⟨_, ⟨i, hi, rfl⟩, k, hk⟩

theorem stageLine_eq_some {s : State} {a k : Nat} : stageLine s a = some k ↔ 1 ≤ k ∧ regionOf s a = .stage k := by
  unfold stageLine
  split
  · next j h =>
    rw [h]
    by_cases hj : j = 0
    · rw [if_pos hj]
      constructor
      · rintro ⟨⟩
      · rintro ⟨hk, hr⟩
        cases hr
        omega
    · rw [if_neg hj]
      constructor
      · rintro ⟨⟩
        exact ⟨by omega, rfl⟩
      · rintro ⟨-, hr⟩
        cases hr
        rfl
  · next h =>
    constructor
    · rintro ⟨⟩
    · rintro ⟨-, hr⟩
      exact absurd hr (h k)

theorem coversBankLine_iff (s : State) (addr len : Nat) :
    (lineAddrs addr len).any (fun a => (stageLine s a).isSome) = true ↔ coversBankLine s addr len := by
  simp only [List.any_eq_true, Option.isSome_iff_exists, stageLine_eq_some, mem_lineAddrs, coversBankLine]
  constructor
  · rintro ⟨a, ⟨i, hi, rfl⟩, k, hk, hr⟩
    exact ⟨i, k, hi, hk, hr⟩
  · rintro ⟨i, k, hi, hk, hr⟩
    exact ⟨_, ⟨i, hi, rfl⟩, k, hk, hr⟩

/-- What Table 2.2-1 gives for a WRITE that is not to be retried first. -/
theorem classify_write {addr len : Nat} (h : ¬retried s addr len) (enabled owned : Bool) :
    classify s true (lineAddrs addr len) enabled owned =
      if (lineAddrs addr len).any (fun a => (regionOf s a).isLive) = true then some .denied
      else if (enabled && !owned) = true then some .denied
      else if (!enabled) = true then some .ok
      else if (decide (s.ziu.zone = .awaitAck) && (lineAddrs addr len).any (fun a => (stageLine s a).isSome)) = true then some .retry
      else none := by
  rw [retried_iff, not_or] at h
  unfold classify
  rw [if_neg h.1, if_neg h.2]
  rfl



/-! ### WRITEs that are not carried out -/

/-- A WRITE on a free tag, by what its checks and Table 2.2-1 give. -/
theorem writeRequest_free {tag : BusTag} (hfree : (s.tagSlot tag).outstanding = none) (addr len : Nat) (data : List Byte)
    (enables : List Bool) {answer : Option BusStatus} (hanswer : answer = classify s true (lineAddrs addr len)
      ((List.range len).any (fun i => anyEnabled (lineMask data enables i)))
      ((writeLines s (lineAddrs addr len) data enables).any (fun l => anyEnabled l.mask))) :
    (formFails s addr len → (writeRequest (Work.start s) tag addr len data enables).st = respond s tag .range []) ∧
    (∀ st, ¬formFails s addr len → answer = some st →
      (writeRequest (Work.start s) tag addr len data enables).st = respond s tag st []) ∧
    (¬formFails s addr len → answer = none → writeRequest (Work.start s) tag addr len data enables =
      takeWriteRequest ((Work.start s).map (fun s => acceptTag s tag true addr len)) tag addr len data enables) := by
  have hidle : ¬(((Work.start s).st.tagSlot tag).outstanding.isSome = true) := by
    rw [Work.start_st, hfree]
    decide
  subst hanswer
  unfold writeRequest
  dsimp only
  rw [if_neg hidle]
  refine ⟨fun hform => ?_, fun st hform hst => ?_, fun hform hnone => ?_⟩
  · rw [Work.start_st, if_pos ((badForm_iff s addr len).2 hform)]
    rfl
  · rw [Work.start_st, if_neg ((badForm_iff s addr len).not.2 hform), hst]
    rfl
  · rw [Work.start_st, if_neg ((badForm_iff s addr len).not.2 hform), hnone]

section Table

variable {addr len : Nat} {data : List Byte} {enables : List Bool}

/-- The two conditions that `classify` is told of a WRITE, in the manual's terms. -/
theorem classify_given (s : State) (addr : Nat) (hdata : data.length = 64 * len) (henables : enables.length = 64 * len) {e o : Bool}
    (he : e = true ↔ writeEnables len enables) (ho : o = true ↔ writeOwned s addr len enables) :
    classify s true (lineAddrs addr len) ((List.range len).any (fun i => anyEnabled (lineMask data enables i)))
      ((writeLines s (lineAddrs addr len) data enables).any (fun l => anyEnabled l.mask)) = classify s true (lineAddrs addr len) e o := by
  rw [Bool.eq_iff_iff.2 ((writeEnables_iff hdata henables).trans he.symm),
    Bool.eq_iff_iff.2 ((writeOwned_iff s addr hdata henables).trans ho.symm)]

theorem writeEnables_of_owned (h : writeOwned s addr len enables) : writeEnables len enables := by
  obtain ⟨k, hk, he, -⟩ := h
  exact ⟨k, hk, he⟩

/-- Rows 1 to 6 of Table 2.2-1. -/
theorem classify_tableAnswer {st : BusStatus} (hdata : data.length = 64 * len) (henables : enables.length = 64 * len)
    (h : tableAnswer s addr len enables st) :
    classify s true (lineAddrs addr len) ((List.range len).any (fun i => anyEnabled (lineMask data enables i)))
      ((writeLines s (lineAddrs addr len) data enables).any (fun l => anyEnabled l.mask)) = some st := by
  rcases h with ⟨hr, rfl⟩ | ⟨hr, hl, rfl⟩ | ⟨hr, hl, he, ho, rfl⟩ | ⟨hr, hl, he, rfl⟩ | ⟨hr, hl, ho, hz, hc, rfl⟩
  · exact classify_retried hr _ _ _
  · rw [classify_write hr, if_pos ((inLiveWindow_iff s addr len).2 hl)]
  · rw [classify_given s addr hdata henables (e := true) (o := false) (by simpa using he) (by simpa using ho),
      classify_write hr, if_neg ((inLiveWindow_iff s addr len).not.2 hl)]
    rfl
  · have ho : ¬writeOwned s addr len enables := fun ho => he (writeEnables_of_owned ho)
    rw [classify_given s addr hdata henables (e := false) (o := false) (by simpa using he) (by simpa using ho),
      classify_write hr, if_neg ((inLiveWindow_iff s addr len).not.2 hl)]
    rfl
  · rw [classify_given s addr hdata henables (e := true) (o := true) (by simpa using writeEnables_of_owned ho) (by simpa using ho),
      classify_write hr, if_neg ((inLiveWindow_iff s addr len).not.2 hl), (coversBankLine_iff s addr len).2 hc, hz]
    rfl

/-- Row 7 of Table 2.2-1. -/
theorem classify_tableCarries (hdata : data.length = 64 * len) (henables : enables.length = 64 * len) (h : tableCarries s addr len enables) :
    classify s true (lineAddrs addr len) ((List.range len).any (fun i => anyEnabled (lineMask data enables i)))
      ((writeLines s (lineAddrs addr len) data enables).any (fun l => anyEnabled l.mask)) = none := by
  obtain ⟨hr, hl, ho, hz⟩ := h
  have hstay : ¬(decide (s.ziu.zone = .awaitAck) && (lineAddrs addr len).any (fun a => (stageLine s a).isSome)) = true := by
    rw [Bool.and_eq_true, decide_eq_true_eq, coversBankLine_iff]
    exact hz
  rw [classify_given s addr hdata henables (e := true) (o := true) (by simpa using writeEnables_of_owned ho) (by simpa using ho),
    classify_write hr, if_neg ((inLiveWindow_iff s addr len).not.2 hl), if_neg (by decide), if_neg (by decide), if_neg hstay]

end Table

/-- What a WRITE answered at once leaves. -/
theorem write_answered {tag : BusTag} {addr : BitVec 32} {len : BitVec 3} {data : List Byte} {enables : List Bool} {st : BusStatus}
    (hready : s.ready = true) (hfree : (s.tagSlot tag).outstanding = none)
    (h : formFails s addr.toNat len.toNat ∧ st = .range ∨ ¬formFails s addr.toNat len.toNat ∧
      classify s true (lineAddrs addr.toNat len.toNat) ((List.range len.toNat).any (fun i => anyEnabled (lineMask data enables i)))
        ((writeLines s (lineAddrs addr.toNat len.toNat) data enables).any (fun l => anyEnabled l.mask)) = some st) :
    ∃ t, exec (.write tag addr len data enables) s = .next t ∧ t.tagSlot tag = ⟨none, some ⟨st, []⟩⟩ ∧
      (∀ u, u ≠ tag → t.tagSlot u = s.tagSlot u) ∧ t.tbp = { s.tbp with slots := t.tbp.slots } ∧ t.tmc.jobs = s.tmc.jobs ∧
      backgroundKept s t ∧ t = { s with tmc := t.tmc, tbp := t.tbp, swq := t.swq, evu := t.evu } := by
  obtain ⟨hform, hclass, -⟩ := writeRequest_free hfree addr.toNat len.toNat data enables rfl
  have hst : (writeRequest (Work.start s) tag addr.toNat len.toNat data enables).st = respond s tag st [] := by
    rcases h with ⟨h, rfl⟩ | ⟨h, hst⟩
    · exact hform h
    · exact hclass st h hst
  show ∃ t, execWrite tag addr len data enables s = .next t ∧ _
  exact answered hready (respond_left s hst)

/-- Settles O16: a WRITE that is answered at once, by `classify` and by the rows of Table 2.2-1. -/
theorem refusedWriteHasNoEffect : Obligations.RefusedWriteHasNoEffect := by
  refine ⟨fun tag addr len data enables s st hready hfree h => ?_, fun tag addr len data enables s st hready hfree hdata henables hform h => ?_⟩
  · obtain ⟨t, hstep, hanswer, hothers, htbp, -, hback, hframe⟩ := write_answered hready hfree h
    exact ⟨t, hstep, hanswer, hothers, htbp, hback, hframe⟩
  · exact write_answered hready hfree (.inr ⟨hform, classify_tableAnswer hdata henables h⟩)

/-! ### The zone windows -/

theorem Layout.check_none {l : Layout} {size : Nat} (h : l.check size = none) : l.misaligned = none ∧ l.outside size = none ∧ l.overlaps = none := by
  unfold Layout.check at h
  generalize l.misaligned = mis at h ⊢
  generalize l.outside size = out at h ⊢
  generalize l.overlaps = meet at h ⊢
  split at h
  · cases h
  · rcases mis with _ | k
    · rcases out with _ | k
      · rcases meet with _ | p
        · exact ⟨rfl, rfl, rfl⟩
        · cases h
      · cases h
    · cases h

/-- In a layout that passes its checks the windows lie apart, on their boundaries and above the policy block. -/
theorem Layout.check_windows {l : Layout} {size : Nat} (h : l.check size = none) : 4096 ≤ l.stage ∧ 4096 ≤ l.live ∧ l.stage % 64 = 0 ∧
    (l.live + 262144 ≤ l.stage ∨ l.stage + 262144 ≤ l.live) := by
  obtain ⟨hmis, -, hover⟩ := Layout.check_none h
  have halign := List.find?_eq_none.1 hmis 1 (by decide)
  have hapart : ∀ p ∈ [(0, 1), (0, 2), (0, 3), (0, 4), (0, 5), (1, 2), (1, 3), (1, 4), (1, 5), (2, 3), (2, 4), (2, 5), (3, 4), (3, 5), (4, 5)],
      ¬l.meets p.1 p.2 = true := List.find?_eq_none.1 hover
  have h01 := hapart (0, 1) (by decide)
  have h02 := hapart (0, 2) (by decide)
  have h12 := hapart (1, 2) (by decide)
  simp only [Layout.meets, Layout.region, Bool.and_eq_true, decide_eq_true_eq, ne_eq, Decidable.not_not] at h01 h02 h12 halign
  rw [if_pos (by decide)] at halign
  omega

theorem regionOf_stage {l : Layout} {size k : Nat} (hplaced : s.placed = some l) (h : l.check size = none) (hk : k ≤ 4095) :
    regionOf s (l.stage + 64 * k) = .stage k := by
  obtain ⟨hstage, -, -, -⟩ := Layout.check_windows h
  unfold regionOf
  rw [if_neg (by omega), hplaced]
  dsimp only
  rw [if_pos (by omega), Nat.add_sub_cancel_left, Nat.mul_div_cancel_left k (by decide)]

theorem regionOf_live {l : Layout} {size k : Nat} (hplaced : s.placed = some l) (h : l.check size = none) (hk : k ≤ 4095) :
    regionOf s (l.live + 64 * k) = .live k := by
  obtain ⟨-, hlive, -, hapart⟩ := Layout.check_windows h
  unfold regionOf
  rw [if_neg (by omega), hplaced]
  dsimp only
  rw [if_neg (by omega), if_pos (by omega), Nat.add_sub_cancel_left, Nat.mul_div_cancel_left k (by decide)]

theorem readLine_live {l : Layout} {a k : Nat} (hplaced : s.placed = some l) (hr : regionOf s a = .live k) :
    readLine s a = if k = 0 then l.stage / 64 else l.bankLine s.ziu.liveBank k / 64 := by
  unfold readLine
  rw [hplaced, hr]

theorem readLine_stage {l : Layout} {a k : Nat} (hplaced : s.placed = some l) (hr : regionOf s a = .stage k) :
    readLine s a = if k = 0 then l.stage / 64 else l.bankLine
      (if s.ziu.lineState k = .clean ∨ s.ziu.lineState k = .staged then s.ziu.stageBank else s.ziu.liveBank) k / 64 := by
  unfold readLine
  rw [hplaced, hr]
  dsimp only
  cases s.ziu.lineState k <;> rfl

/-- Settles O19: line by line of the two windows. -/
theorem windowReadsFollowSwapAndDirtyMap : Obligations.WindowReadsFollowSwapAndDirtyMap := by
  intro s l k hpart hlayout hcheck hk1 hk
  have hplaced : s.placed = some l := by
    unfold State.placed
    rw [hpart]
    exact hlayout
  have hne : k ≠ 0 := by omega
  refine ⟨?_, ?_, ?_, ?_⟩
  · rw [readLine_live hplaced (regionOf_live hplaced hcheck hk), if_neg hne]
    rfl
  · rw [readLine_stage hplaced (regionOf_stage hplaced hcheck hk), if_neg hne]
    rfl
  · exact (readLine_stage hplaced (regionOf_stage hplaced hcheck (k := 0) (by omega))).trans (if_pos rfl)
  · exact (readLine_live hplaced (regionOf_live hplaced hcheck (k := 0) (by omega))).trans (if_pos rfl)

end Sys2Proof.Machine
end

section
/-! PROOFS. Words for the other owners: token submissions, the consumer index, attention and uptime, and ARM with the layout checks. -/

set_option Elab.async false

namespace Sys2Proof.Machine

variable {s t u : State} {w : Work}

/-! ### Token submissions -/

/-- A submit word with a new sequence that asks for the command is taken, and its sequence is seen. -/
theorem submitWordTaken {fits : Nat → Bool} {op : TokenIx → Nat → Work → Work} {Q : State → Prop} {h : Handed} {k : TokenIx}
    (hfind : s.tbp.handed.find? (fun x => x.word.isSubmit) = some h) (hword : h.word = .tokenSubmit k)
    (hnew : wordSequence h.value ≠ (s.lu.slots.get k).seen) (hfits : fits (wordCode h.value) = true)
    (hQ : Q (publish (s.setTbp { s.tbp with handed := s.tbp.handed.erase h }) (op k (wordSequence h.value)
      (setSlot (Work.start (s.setTbp { s.tbp with handed := s.tbp.handed.erase h })) k
        { s.lu.slots.get k with seen := wordSequence h.value })))) :
    ∃ t, onSubmit s fits op = .next t ∧ Q t := by
  have hk : h.word.tokenIx = k := by rw [hword]; rfl
  exact wordTaken hfind (by rw [hk]; exact decide_eq_false hnew) hfits (by rw [hk]; exact hQ)

/-- The outcome of a submission at its slot. -/
theorem submitToken_slot (w : Work) (k : TokenIx) (seq : Nat) :
    ((w.st.lu.slots.get k).state = .empty ∨ (w.st.lu.slots.get k).state = .done →
      (submitToken w k seq).st = w.st.setLu { w.st.lu with
        slots := Vector.put w.st.lu.slots k { w.st.lu.slots.get k with state := .queued, current := seq }, fifo := w.st.lu.fifo ++ [k] }) ∧
    (¬((w.st.lu.slots.get k).state = .empty ∨ (w.st.lu.slots.get k).state = .done) →
      (submitToken w k seq).st = w.st.setLu { w.st.lu with slots := Vector.put w.st.lu.slots k { w.st.lu.slots.get k with busySeq := seq } }) := by
  unfold submitToken
  dsimp only
  exact ⟨fun h => by rw [if_pos h]; rfl, fun h => by rw [if_neg h]; rfl⟩

/-- What is left by a work that has changed token slots and the FIFO. -/
theorem slots_left {slots : Vector TokenSlot 8} {fifo : List TokenIx} {b : Tbp} (o : State)
    (hst : w.st = (s.setTbp b).setLu { s.lu with slots := slots, fifo := fifo }) :
    (publish o w).lu.slots = slots ∧ (publish o w).lu.fifo = fifo ∧ backgroundKept s (publish o w) ∧ publish o w = { s with
      tmc := (publish o w).tmc, tbp := b, swq := (publish o w).swq, lu := (publish o w).lu, evu := (publish o w).evu } := by
  have hlu : (publish o w).lu = { s.lu with slots := slots, fifo := fifo } := by rw [publish_lu, hst]; rfl
  have hframe := publish_frame o w hst
  refine ⟨by rw [hlu], by rw [hlu], publish_background o (by rw [hst]; rfl) (by rw [hst]; rfl) (by rw [hst]; rfl), ?_⟩
  rw [hlu]
  exact hframe

/-- Settles O47: a slot queued, a slot refused as busy, a sequence recorded, and the head of the FIFO checked. -/
theorem submissionsAreQueuedAndChecked : Obligations.SubmissionsAreQueuedAndChecked := by
  refine ⟨fun s h k hfind hword hnew hcode => ?_, fun s h k hfind hword hnew hcode => ?_, fun s k rest l hfifo hfree hlayout => ?_⟩
  · show ∃ t, execSubmit s = .next t ∧ _
    refine submitWordTaken hfind hword hnew (decide_eq_true hcode) ?_
    generalize hw0 : setSlot _ k _ = w0
    have hslot : w0.st.lu.slots.get k = { s.lu.slots.get k with seen := wordSequence h.value } := by
      rw [← hw0]
      exact (Vector.get_put _ _ _ _).trans (if_pos rfl)
    have hother : ∀ j, j ≠ k → w0.st.lu.slots.get j = s.lu.slots.get j := fun j hj => by
      rw [← hw0]
      exact (Vector.get_put _ _ _ _).trans (if_neg hj)
    obtain ⟨hwaiting, hbusy⟩ := submitToken_slot w0 k (wordSequence h.value)
    rw [hslot] at hwaiting hbusy
    by_cases hstate : (s.lu.slots.get k).state = .empty ∨ (s.lu.slots.get k).state = .done
    · have hst := hwaiting hstate
      obtain ⟨hslots, hfifo, hback, hframe⟩ := slots_left (s := s) (slots := (submitToken w0 k (wordSequence h.value)).st.lu.slots)
        (fifo := s.lu.fifo ++ [k]) (b := { s.tbp with handed := s.tbp.handed.erase h }) (s.setTbp { s.tbp with handed := s.tbp.handed.erase h })
        (by rw [hst, ← hw0]; rfl)
      rw [hst] at hslots
      refine ⟨fun _ => ⟨?_, hfifo⟩, fun h => absurd hstate h, fun j hj => ?_, hback, hframe⟩
      · rw [hslots]
        exact (Vector.get_put _ _ _ _).trans (if_pos rfl)
      · rw [hslots]
        exact ((Vector.get_put _ _ _ _).trans (if_neg hj)).trans (hother j hj)
    · have hst := hbusy hstate
      obtain ⟨hslots, hfifo, hback, hframe⟩ := slots_left (s := s) (slots := (submitToken w0 k (wordSequence h.value)).st.lu.slots)
        (fifo := s.lu.fifo) (b := { s.tbp with handed := s.tbp.handed.erase h }) (s.setTbp { s.tbp with handed := s.tbp.handed.erase h })
        (by rw [hst, ← hw0]; rfl)
      rw [hst] at hslots
      refine ⟨fun h => absurd h hstate, fun _ => ⟨?_, hfifo⟩, fun j hj => ?_, hback, hframe⟩
      · rw [hslots]
        exact (Vector.get_put _ _ _ _).trans (if_pos rfl)
      · rw [hslots]
        exact ((Vector.get_put _ _ _ _).trans (if_neg hj)).trans (hother j hj)
  · show ∃ t, execSubmitNone s = .next t ∧ _
    exact submitWordTaken hfind hword hnew (decide_eq_true hcode) ⟨rfl, publish_background s, rfl⟩
  · show ∃ t, execTokenCheckStart s = .next t ∧ _
    unfold execTokenCheckStart
    rw [hfifo]
    refine answered (by rw [hfree]; rfl) ?_
    generalize hw : Work.map _ _ = w
    have hst : w.st = present (s.setLu { s.lu with fifo := rest, slots := Vector.put s.lu.slots k { s.lu.slots.get k with state := .checking } })
        ⟨.token k, l.licence / 64 + k.1⟩ := by
      rw [← hw]
      show startCheck s k rest = _
      unfold startCheck
      rw [hlayout]
    have hmoved := moved_present (s.setLu { s.lu with
      fifo := rest, slots := Vector.put s.lu.slots k { s.lu.slots.get k with state := .checking } }) ⟨.token k, l.licence / 64 + k.1⟩
    have hlu : (publish s w).lu = { s.lu with
        fifo := rest, slots := Vector.put s.lu.slots k { s.lu.slots.get k with state := .checking } } := by
      rw [publish_lu, hst, hmoved.rest]
      rfl
    have hasked : w.st.asked ⟨.token k, l.licence / 64 + k.1⟩ := by
      rw [hst]
      exact present_mem _ _
    rw [← hst] at hmoved
    have hback := hmoved.background s
    have hframe := hmoved.frame s
    refine ⟨by rw [hlu], ?_, hasked.publish rfl s, hback, ?_⟩
    · rw [hlu]
      exact congrArg TokenSlot.state ((Vector.get_put _ _ _ _).trans (if_pos rfl))
    · rw [hlu]
      exact hframe

/-! ### The consumer index, attention and uptime -/

theorem Evu.accepts_iff (e : Evu) (capacity v : Nat) : e.accepts capacity v = true ↔
    v < capacity ∧ (v + capacity - e.consumer) % capacity ≤ (e.producer + capacity - e.consumer) % capacity := by
  unfold Evu.accepts
  rw [Bool.and_eq_true, decide_eq_true_eq, decide_eq_true_eq]

theorem Evu.consume_producer (e : Evu) (capacity v : Nat) : (e.consume capacity v).producer = e.producer := by
  unfold Evu.consume
  split
  · rfl
  · dsimp only
    split <;> rfl

theorem publish_memory (o : State) (hmem : w.st.tmc.mem = s.tmc.mem) : memoryKept s (publish o w) :=
  fun a => by rw [(publish_tmcKept o w).mem, hmem]

theorem Evu.consume_ignored {e : Evu} {capacity v : Nat} (h : e.accepts capacity v ≠ true ∨ v = e.consumer) : e.consume capacity v = e := by
  unfold Evu.consume
  rw [if_pos]
  rw [Bool.or_eq_true, Bool.not_eq_true', decide_eq_true_eq]
  exact h.imp_left eq_false_of_ne_true

theorem Evu.consume_emptied {e : Evu} {capacity v : Nat} (h : e.accepts capacity v = true) (hv : v ≠ e.consumer)
    (hempty : (e.producer + capacity - v) % capacity = 0) :
    e.consume capacity v = { e with consumer := v, asserted := false, coalesceAt := none } := by
  unfold Evu.consume
  rw [h, decide_eq_false hv, if_neg (by decide)]
  exact if_pos hempty

theorem Evu.consume_left {e : Evu} {capacity v : Nat} (h : e.accepts capacity v = true) (hv : v ≠ e.consumer)
    (hleft : (e.producer + capacity - v) % capacity ≠ 0) : e.consume capacity v = { e with consumer := v } := by
  unfold Evu.consume
  rw [h, decide_eq_false hv, if_neg (by decide)]
  exact if_neg hleft

/-- Settles O57: a consumer index by its acceptance, the timer and the tick. -/
theorem consumerIndexAndAttention : Obligations.ConsumerIndexAndAttention := by
  refine ⟨fun s h hfind => ?_, fun s hdue => ?_, fun s hdue => ?_⟩
  · show ∃ t, execConsumerIndexWrite s = .next t ∧ _
    refine wordTaken hfind rfl rfl ?_
    generalize hw : Work.map _ _ = w
    have hst : w.st = (s.setTbp { s.tbp with handed := s.tbp.handed.erase h }).setEvu (s.evu.consume s.capacity h.value.toNat) := by
      rw [← hw]
      rfl
    generalize s.setTbp { s.tbp with handed := s.tbp.handed.erase h } = o
    have hkept := (publish_published o w).evu
    have hevu : EvuKept (s.evu.consume s.capacity h.value.toNat) (publish o w).evu := by
      rw [hst] at hkept
      exact hkept
    have hframe := publish_frame o w hst
    have hstays : (publish o w).evu.producer = s.evu.producer ∧ memoryKept s (publish o w) ∧ publish o w = { s with
        tmc := (publish o w).tmc, tbp := { s.tbp with handed := s.tbp.handed.erase h }, swq := (publish o w).swq, evu := (publish o w).evu } :=
      ⟨hevu.producer.trans (Evu.consume_producer _ _ _), publish_memory o (by rw [hst]; rfl), hframe⟩
    refine ⟨fun hin => ?_, fun hout => ?_, hstays⟩
    · rw [← Evu.accepts_iff] at hin
      by_cases hsame : h.value.toNat = s.evu.consumer
      · rw [Evu.consume_ignored (.inr hsame)] at hevu
        exact ⟨hevu.consumer.trans hsame.symm, fun hne => absurd hsame hne, fun _ => ⟨hevu.asserted, hevu.coalesceAt⟩⟩
      · by_cases hempty : (s.evu.producer + s.capacity - h.value.toNat) % s.capacity = 0
        · rw [Evu.consume_emptied hin hsame hempty] at hevu
          exact ⟨hevu.consumer, fun _ _ => ⟨hevu.asserted, hevu.coalesceAt⟩, fun h => (h.elim hsame (fun h => h hempty)).elim⟩
        · rw [Evu.consume_left hin hsame hempty] at hevu
          exact ⟨hevu.consumer, fun _ h => absurd h hempty, fun _ => ⟨hevu.asserted, hevu.coalesceAt⟩⟩
    · rw [← Evu.accepts_iff] at hout
      rw [Evu.consume_ignored (.inl hout)] at hevu
      exact ⟨hevu.consumer, hevu.asserted, hevu.coalesceAt⟩
  · show ∃ t, execCoalescingTimerExpiry s = .next t ∧ _
    refine answered hdue ?_
    generalize hw : Work.map _ _ = w
    have hst : w.st = s.setEvu s.evu.assert := hw ▸ rfl
    have hevu := (publish_published s w).evu
    rw [hst] at hevu
    have hframe := publish_frame s w hst
    exact ⟨hevu.asserted, hevu.coalesceAt, publish_memory s (by rw [hst]; rfl), hframe⟩
  · show ∃ t, execUptimeTick s = .next t ∧ _
    refine answered (decide_eq_true hdue) ?_
    generalize hw : Work.map _ _ = w
    have hst : w.st = s.setPlu { s.plu with uptime := s.timestamp / 1000000, uptimeAt := s.plu.uptimeAt + sec 1 } := hw ▸ rfl
    have hplu : (publish s w).plu = { s.plu with uptime := s.timestamp / 1000000, uptimeAt := s.plu.uptimeAt + sec 1 } := by
      rw [publish_plu, hst]
      rfl
    have hframe := publish_frame s w hst
    refine ⟨by rw [hplu], by rw [hplu], publish_background s (by rw [hst]; rfl) (by rw [hst]; rfl) (by rw [hst]; rfl), ?_⟩
    rw [hplu]
    exact hframe

/-! ### The layout checks (Table 10.2-1) -/

/-- What a search finds that goes through its list in an order: the first element of it that is looked for. -/
theorem find_first {α : Type} {r : α → α → Prop} {p : α → Bool} {d : α} : ∀ {l : List α}, l.Pairwise r → d ∈ l → p d = true →
    (∀ x ∈ l, p x = true → ¬r x d) → l.find? p = some d
  | a :: l, hsorted, hd, hp, hfirst => by
    obtain ⟨ha, hl⟩ := List.pairwise_cons.1 hsorted
    rcases List.mem_cons.1 hd with rfl | hd
    · exact List.find?_cons_of_pos hp
    · rw [List.find?_cons_of_neg (fun hpa => hfirst a List.mem_cons_self hpa (ha d hd))]
      exact find_first hl hd hp (fun x hx => hfirst x (List.mem_cons_of_mem a hx))

theorem Layout.region_eq (l : Layout) (k : Nat) : l.region k = (l.baseOf k, l.sizeOf k) := by
  rcases k with _ | _ | _ | _ | _ | k <;> rfl

theorem Layout.sizeOf_pos (l : Layout) (k : Nat) : 0 < l.sizeOf k := by
  rcases k with _ | _ | _ | _ | _ | k
  · exact (by decide : 0 < 4096)
  · exact (by decide : 0 < 262144)
  · exact (by decide : 0 < 262144)
  · exact (by decide : 0 < 12288)
  · exact (by decide : 0 < 4096)
  · exact Nat.add_pos_left (by decide) _

theorem mem_regions {k : Nat} : k ∈ [1, 2, 3, 4, 5] ↔ 1 ≤ k ∧ k ≤ 5 := by
  simp only [List.mem_cons, List.not_mem_nil, or_false]
  omega

section Layouts

variable {l : Layout} {size d i j k : Nat}

theorem misplaced_iff : misplaced l k ↔
    k ∈ [1, 2, 3, 4, 5] ∧ decide ((l.region k).1 % (if k ≤ 2 then 262144 else 4096) ≠ 0) = true := by
  rw [mem_regions, decide_eq_true_eq, Layout.region_eq, misplaced, and_assoc, Nat.dvd_iff_mod_eq_zero]

theorem tooHigh_iff : tooHigh l size k ↔ k ∈ [1, 2, 3, 4, 5] ∧ decide (size < (l.region k).1 + (l.region k).2) = true := by
  have hpos := l.sizeOf_pos k
  rw [mem_regions, decide_eq_true_eq, Layout.region_eq, tooHigh, and_assoc]
  refine and_congr_right fun _ => and_congr_right fun _ => ?_
  dsimp only
  omega

theorem meets_iff : l.meets i j = true ↔ ∃ x, l.baseOf i ≤ x ∧ x < l.baseOf i + l.sizeOf i ∧ l.baseOf j ≤ x ∧ x < l.baseOf j + l.sizeOf j := by
  have hi := l.sizeOf_pos i
  have hj := l.sizeOf_pos j
  unfold Layout.meets
  rw [Bool.and_eq_true, decide_eq_true_eq, decide_eq_true_eq, Layout.region_eq, Layout.region_eq]
  dsimp only
  constructor
  · rintro ⟨h1, h2⟩
    exact ⟨max (l.baseOf i) (l.baseOf j), by omega⟩
  · rintro ⟨x, h1, h2, h3, h4⟩
    omega

/-- The pairs of regions, by the lower number, then the higher. -/
def regionPairs : List (Nat × Nat) :=
  [(0, 1), (0, 2), (0, 3), (0, 4), (0, 5), (1, 2), (1, 3), (1, 4), (1, 5), (2, 3), (2, 4), (2, 5), (3, 4), (3, 5), (4, 5)]

theorem overlaps_eq (l : Layout) : l.overlaps = regionPairs.find? (fun p => l.meets p.1 p.2) := rfl

theorem mem_regionPairs : (i, j) ∈ regionPairs ↔ i < j ∧ j ≤ 5 := by
  constructor
  · exact fun h => (by decide : ∀ p ∈ regionPairs, p.1 < p.2 ∧ p.2 ≤ 5) (i, j) h
  · rintro ⟨hij, hj⟩
    have hall : ∀ b : Fin 6, ∀ a : Fin b.1, (a.1, b.1) ∈ regionPairs := by decide
    exact hall ⟨j, by omega⟩ ⟨i, hij⟩

theorem shareByte_iff : shareByte l i j ↔ (i, j) ∈ regionPairs ∧ l.meets i j = true := by
  rw [mem_regionPairs, meets_iff, shareByte, and_assoc]

theorem misaligned_of_lowest (h : lowest (misplaced l) d) : l.misaligned = some d := by
  obtain ⟨hd, hlow⟩ := h
  obtain ⟨hmem, hp⟩ := misplaced_iff.1 hd
  exact find_first (r := fun a b => a < b) (by decide) hmem hp (fun x hx hpx hlt => hlow x hlt (misplaced_iff.2 ⟨hx, hpx⟩))

theorem outside_of_lowest (h : lowest (tooHigh l size) d) : l.outside size = some d := by
  obtain ⟨hd, hlow⟩ := h
  obtain ⟨hmem, hp⟩ := tooHigh_iff.1 hd
  exact find_first (r := fun a b => a < b) (by decide) hmem hp (fun x hx hpx hlt => hlow x hlt (tooHigh_iff.2 ⟨hx, hpx⟩))

theorem overlaps_of_first (h : shareByte l i j) (hfirst : ∀ m n, shareByte l m n → i < m ∨ (i = m ∧ j ≤ n)) : l.overlaps = some (i, j) := by
  obtain ⟨hmem, hp⟩ := shareByte_iff.1 h
  rw [overlaps_eq]
  refine find_first (r := fun a b => a.1 < b.1 ∨ (a.1 = b.1 ∧ a.2 < b.2)) (by decide) hmem hp (fun x hx hpx hlt => ?_)
  have hx := hfirst x.1 x.2 (shareByte_iff.2 ⟨hx, hpx⟩)
  dsimp only at hlt
  omega

theorem misaligned_none (h : ∀ k, ¬misplaced l k) : l.misaligned = none :=
  List.find?_eq_none.2 fun k hk hp => h k (misplaced_iff.2 ⟨hk, hp⟩)

theorem outside_none (h : ∀ k, ¬tooHigh l size k) : l.outside size = none :=
  List.find?_eq_none.2 fun k hk hp => h k (tooHigh_iff.2 ⟨hk, hp⟩)

theorem overlaps_none (h : ∀ i j, ¬shareByte l i j) : l.overlaps = none := by
  rw [overlaps_eq]
  exact List.find?_eq_none.2 fun p hp hm => h p.1 p.2 (shareByte_iff.2 ⟨hp, hm⟩)

/-- The first check that a layout fails. -/
theorem check_of_fails {r : ArmResult} (h : layoutFails l size r d) : l.check size = some (r, d) := by
  unfold Layout.check
  rcases h with ⟨hcap, rfl, rfl⟩ | ⟨hcap, hlow, rfl⟩ | ⟨hcap, hmis, hlow, rfl⟩ | ⟨hcap, hmis, hout, rfl, i, j, hshare, hfirst, rfl⟩
  · rw [if_pos hcap]
  · rw [if_neg (by omega), misaligned_of_lowest hlow]
  · rw [if_neg (by omega), misaligned_none hmis, outside_of_lowest hlow]
  · rw [if_neg (by omega), misaligned_none hmis, outside_none hout, overlaps_of_first hshare hfirst]

theorem check_of_passes (h : layoutPasses l size) : l.check size = none := by
  obtain ⟨hcap, hmis, hout, hover⟩ := h
  unfold Layout.check
  rw [if_neg (by omega), misaligned_none hmis, outside_none hout, overlaps_none hover]

end Layouts

theorem ofCopy_of_frozen {m : Memory} {l : Layout} (h : layoutFrozen m l) : Layout.ofCopy m = l := by
  obtain ⟨stage, live, ports, licence, ring, cap, reserves⟩ := l
  obtain ⟨hstage, hlive, hports, hlicence, hring, hcap, hreserves⟩ := h
  dsimp only at hstage hlive hports hlicence hring hcap hreserves
  have hvec : (Layout.ofCopy m).reserves = reserves := by
    refine Vector.ext fun i hi => ?_
    have hget := hreserves ⟨i, hi⟩
    refine Eq.trans ?_ hget.symm
    interval_cases i <;> rfl
  unfold Layout.ofCopy copyNat at hvec ⊢
  rw [hstage, hlive, hports, hlicence, hring, hcap, ← hvec]

/-! ### ARM -/

/-- A policy control word with a new sequence that asks for the command is taken, and its sequence is seen. -/
theorem policyWordTaken {fits : Nat → Bool} {op : BitVec 64 → Work → Work} {Q : State → Prop} {h : Handed}
    (hfind : s.tbp.handed.find? (fun x => x.word.isPolicy) = some h) (hnew : wordSequence h.value ≠ s.plu.seen)
    (hfits : fits (wordCode h.value) = true)
    (hQ : Q (publish (s.setTbp { s.tbp with handed := s.tbp.handed.erase h }) (op h.value (Work.start
      ((s.setTbp { s.tbp with handed := s.tbp.handed.erase h }).setPlu { s.plu with seen := wordSequence h.value }))))) :
    ∃ t, onPolicyWord s fits op = .next t ∧ Q t :=
  wordTaken hfind (decide_eq_false hnew) hfits hQ

/-- What is left by a policy control word whose work has changed the PLU alone. -/
theorem policy_left {x : Plu} {b : Tbp} (o : State) (hst : w.st = (s.setTbp b).setPlu x) (hinUse : x.inUse = s.plu.inUse)
    (hcopy : x.copy = s.plu.copy) : (publish o w).plu = x ∧ (publish o w).plu.inUse = s.plu.inUse ∧ (publish o w).plu.copy = s.plu.copy ∧
      backgroundKept s (publish o w) ∧ publish o w = { s with
        tmc := (publish o w).tmc, tbp := b, swq := (publish o w).swq, evu := (publish o w).evu, plu := (publish o w).plu } := by
  have hplu : (publish o w).plu = x := by rw [publish_plu, hst]; rfl
  have hframe := publish_frame o w hst
  refine ⟨hplu, by rw [hplu, hinUse], by rw [hplu, hcopy],
    publish_background o (by rw [hst]; rfl) (by rw [hst]; rfl) (by rw [hst]; rfl), ?_⟩
  rw [hplu]
  exact hframe

/-- The freeze of a layout and its checks. -/
theorem beginArming_st {l : Layout} (w : Work) (seq : Nat) (hl : layoutFrozen w.st.plu.copy l) :
    (∀ r d, layoutFails l (memoryBytes w.st.tmc.density) r d → (beginArming w seq).st = w.st.setPlu { w.st.plu with
      part := .armFailed, layout := none, result := r, detail := d, armSeq := seq }) ∧
    (layoutPasses l (memoryBytes w.st.tmc.density) → (beginArming w seq).st = w.st.setPlu { w.st.plu with
      part := .arming, layout := some l, fill := .filling, started := seq, result := .inProgress, detail := 0, armSeq := seq }) := by
  unfold beginArming
  dsimp only
  rw [ofCopy_of_frozen hl]
  exact ⟨fun r d h => by rw [check_of_fails h]; rfl, fun h => by rw [check_of_passes h]; rfl⟩

/-- An ARM command changes the PLU alone. -/
theorem armCommand_plu (w : Work) (seq : Nat) : ∃ x : Plu, (armCommand w seq).st = w.st.setPlu x ∧ x.inUse = w.st.plu.inUse ∧
    x.copy = w.st.plu.copy ∧ x.seen = w.st.plu.seen ∧ x.armSeq = seq := by
  have hbegin : ∃ x : Plu, (beginArming w seq).st = w.st.setPlu x ∧ x.inUse = w.st.plu.inUse ∧ x.copy = w.st.plu.copy ∧
      x.seen = w.st.plu.seen ∧ x.armSeq = seq := by
    unfold beginArming
    dsimp only
    generalize Layout.check _ _ = r
    rcases r with _ | ⟨r, d⟩ <;> exact ⟨_, rfl, rfl, rfl, rfl, rfl⟩
  unfold armCommand
  cases w.st.plu.part with
  | unconfigured => exact hbegin
  | armFailed => exact hbegin
  | arming => exact ⟨_, rfl, rfl, rfl, rfl, rfl⟩
  | armed => exact ⟨_, rfl, rfl, rfl, rfl, rfl⟩

theorem armCommand_begins (w : Work) (seq : Nat) (h : w.st.plu.part = .unconfigured ∨ w.st.plu.part = .armFailed) :
    armCommand w seq = beginArming w seq := by
  unfold armCommand
  rcases h with h | h <;> rw [h]

theorem armCommand_answered (w : Work) (seq : Nat) :
    (w.st.plu.part = .arming → armCommand w seq = armResult w .busy 0 seq) ∧
    (w.st.plu.part = .armed → armCommand w seq = armResult w .alreadyArmed 0 seq) := by
  unfold armCommand
  exact ⟨fun h => by rw [h], fun h => by rw [h]⟩

/-- Settles O58: ARM in each part state, and the two other kinds of word. -/
theorem armIsDecidedByPartStateAndLayout : Obligations.ArmIsDecidedByPartStateAndLayout := by
  refine ⟨fun s h hfind hnew hcode => ?_, fun s h hfind hnew hcode => ?_, fun s h hfind hnew hcode => ?_⟩
  · show ∃ t, execArm s = .next t ∧ _
    refine policyWordTaken hfind hnew (decide_eq_true hcode) ?_
    generalize hw : Work.start _ = w
    have hst : w.st = (s.setTbp { s.tbp with handed := s.tbp.handed.erase h }).setPlu { s.plu with seen := wordSequence h.value } := hw ▸ rfl
    have hpart : w.st.plu.part = s.plu.part := by rw [hst]; rfl
    have hlayout : w.st.plu.layout = s.plu.layout := by rw [hst]; rfl
    have hcopy : w.st.plu.copy = s.plu.copy := by rw [hst]; rfl
    have hdensity : w.st.tmc.density = s.tmc.density := by rw [hst]; rfl
    obtain ⟨x, hx, hxuse, hxcopy, hxseen, hxseq⟩ := armCommand_plu w (wordSequence h.value)
    have hleft : (armCommand w (wordSequence h.value)).st = (s.setTbp { s.tbp with handed := s.tbp.handed.erase h }).setPlu x := by
      rw [hx, hst]
      rfl
    obtain ⟨hplu, huse, hcopied, hback, hframe⟩ := policy_left (s.setTbp { s.tbp with handed := s.tbp.handed.erase h }) hleft
      (hxuse.trans (by rw [hst]; rfl)) (hxcopy.trans hcopy)
    obtain ⟨hbusy, halready⟩ := armCommand_answered w (wordSequence h.value)
    have hresult : ∀ y : Plu, (armCommand w (wordSequence h.value)).st = w.st.setPlu y → x = y := fun y hy => by
      rw [← State.setPlu_plu w.st x, ← hx, hy]
      rfl
    dsimp only
    rw [hplu]
    rw [hplu] at huse hcopied hframe
    refine ⟨hxseen.trans (by rw [hst]; rfl), hxseq, fun hp => ?_, fun hp => ?_, fun l r d hp hl hfails => ?_, fun l hp hl hpasses => ?_,
      huse, hcopied, hback, hframe⟩
    · rw [hresult _ (by rw [hbusy (hpart.trans hp)]; rfl)]
      exact ⟨hpart.trans hp, rfl, rfl, hlayout⟩
    · rw [hresult _ (by rw [halready (hpart.trans hp)]; rfl)]
      exact ⟨hpart.trans hp, rfl, rfl, hlayout⟩
    · obtain ⟨hf, -⟩ := beginArming_st w (wordSequence h.value) (l := l) (hcopy ▸ hl)
      rw [hresult _ ((congrArg Work.st (armCommand_begins w _ (hpart ▸ hp))).trans (hf r d (hdensity ▸ hfails)))]
      exact ⟨rfl, rfl, rfl, rfl⟩
    · obtain ⟨-, hp'⟩ := beginArming_st w (wordSequence h.value) (l := l) (hcopy ▸ hl)
      rw [hresult _ ((congrArg Work.st (armCommand_begins w _ (hpart ▸ hp))).trans (hp' (hdensity ▸ hpasses)))]
      exact ⟨rfl, rfl, rfl, rfl⟩
  · show ∃ t, execPolicyCommandNone s = .next t ∧ _
    refine policyWordTaken hfind hnew (by rw [hcode]; rfl) ?_
    exact policy_left (x := { s.plu with seen := wordSequence h.value }) _ rfl rfl rfl
  · show ∃ t, execPolicyBadCommand s = .next t ∧ _
    refine policyWordTaken hfind hnew (decide_eq_true hcode) ?_
    exact policy_left (x := { s.plu with
      seen := wordSequence h.value, result := .badCommand, detail := wordCode h.value, armSeq := wordSequence h.value }) _ rfl rfl rfl

end Sys2Proof.Machine
end

section
/-! PROOFS. What the commands that settle leave: the units that take no part in settling, what is asked of the ports, and the blades of the
other slots. -/

set_option Elab.async false

namespace Sys2Proof.Machine

variable {r s t u : State} {w : Work}

/-! ### The frame of a command that settles -/

/-- What settling leaves, and what the work on links, blades and ports before it leaves with it. -/
structure Admits (s t : State) : Prop where
  pending : t.pending = s.pending
  now : t.now = s.now
  pins : t.pins = s.pins
  mem : t.tmc.mem = s.tmc.mem
  marks : t.tmc.marks = s.tmc.marks
  tbp : t.tbp = s.tbp
  ziu : t.ziu = s.ziu
  ftu : t.ftu = s.ftu
  evu : t.evu = s.evu
  plu : t.plu = s.plu
  portUnits : t.lu.portUnits = s.lu.portUnits
  xdPorts : t.lu.xdPorts = s.lu.xdPorts
  reserves : t.lu.reserves = s.lu.reserves
  slots : t.lu.slots = s.lu.slots
  fifo : t.lu.fifo = s.lu.fifo
  program : t.lu.program = s.lu.program
  psus : t.pbu.psus = s.pbu.psus
  hold : t.pbu.hold = s.pbu.hold

theorem Admits.refl (s : State) : Admits s s := ⟨rfl, rfl, rfl, rfl, rfl, rfl, rfl, rfl, rfl, rfl, rfl, rfl, rfl, rfl, rfl, rfl, rfl, rfl⟩

theorem Admits.trans (h : Admits r s) (g : Admits s t) : Admits r t where
  pending := g.pending.trans h.pending
  now := g.now.trans h.now
  pins := g.pins.trans h.pins
  mem := g.mem.trans h.mem
  marks := g.marks.trans h.marks
  tbp := g.tbp.trans h.tbp
  ziu := g.ziu.trans h.ziu
  ftu := g.ftu.trans h.ftu
  evu := g.evu.trans h.evu
  plu := g.plu.trans h.plu
  portUnits := g.portUnits.trans h.portUnits
  xdPorts := g.xdPorts.trans h.xdPorts
  reserves := g.reserves.trans h.reserves
  slots := g.slots.trans h.slots
  fifo := g.fifo.trans h.fifo
  program := g.program.trans h.program
  psus := g.psus.trans h.psus
  hold := g.hold.trans h.hold

theorem Settled.admits (h : Settled s t) : Admits s t where
  pending := h.pending
  now := h.now
  pins := h.pins
  mem := by rw [h.tmc]
  marks := by rw [h.tmc]
  tbp := h.tbp
  ziu := h.ziu
  ftu := h.ftu
  evu := h.evu
  plu := h.plu
  portUnits := h.portUnits
  xdPorts := h.xdPorts
  reserves := h.reserves
  slots := h.slots
  fifo := h.fifo
  program := h.program
  psus := h.psus
  hold := h.hold

theorem admits_setLink (s : State) (b : Slot) (l : Link) : Admits s (s.setLink b l) := { Admits.refl s with }
theorem admits_setBlade (s : State) (b : Slot) (x : Blade) : Admits s (s.setBlade b x) := { Admits.refl s with }

/-- The frame of a command that has not changed the units that settling leaves. -/
theorem Admits.frame (h : Admits s w.st) (o : State) : admissionFrame s (publish o w) := by
  refine ⟨publish_background o h.mem h.marks h.evu, fun f => ?_, ?_, ?_, ?_, ?_, ?_, ?_, ?_⟩
  · rw [publish_lu]
    cases f
    · exact h.portUnits
    · exact h.xdPorts
  · rw [publish_lu, h.slots]
  · rw [publish_lu, h.fifo]
  · rw [publish_lu, h.program]
  · rw [publish_lu, h.reserves]
  · rw [publish_pbu, h.psus]
  · rw [publish_pbu, h.hold]
  · have hframe := publish_frame o w rfl
    rw [hframe]
    rw [← h.pending, ← h.now, ← h.pins, ← h.tbp, ← h.ziu, ← h.ftu, ← h.plu]

theorem Admits.pinsFrame {x : Pins} (h : Admits (s.setPins x) w.st) (o : State) : admissionFrame { s with pins := (publish o w).pins } (publish o w) := by
  have hframe := h.frame o
  rw [publish_pins, h.pins]
  exact hframe

theorem Admits.ziuFrame {x : Ziu} (h : Admits (s.setZiu x) w.st) (o : State) : admissionFrame { s with ziu := (publish o w).ziu } (publish o w) := by
  have hframe := h.frame o
  rw [publish_ziu, h.ziu]
  exact hframe

theorem Admits.ftuFrame {x : Ftu} (h : Admits (s.setFtu x) w.st) (o : State) : admissionFrame { s with ftu := (publish o w).ftu } (publish o w) := by
  have hframe := h.frame o
  rw [publish_ftu, h.ftu]
  exact hframe

theorem Admits.luFrame {x : Lu} (h : Admits (s.setLu x) w.st) (o : State) : admissionFrame { s with lu := (publish o w).lu } (publish o w) := by
  obtain ⟨hback, -, -, -, -, -, hpsus, hhold, hframe⟩ := h.frame o
  exact ⟨hback, fun f => rfl, rfl, rfl, rfl, rfl, hpsus, hhold, hframe⟩

/-! ### What is asked of the ports -/

theorem PortKept.asks {x y : Port} (h : PortKept x y) : y.asks = x.asks := by
  unfold Port.asks
  rw [h.desired, h.request, h.priority, h.lastSeq, h.optic]

theorem Settled.asks (h : Settled s w.st) (o : State) (q : PortRef) : ((publish o w).port q).asks = (s.port q).asks := (h.port q).asks

end Sys2Proof.Machine
end

section
/-! PROOFS. The loss and the stop of links, their waits, the ends of transmissions, and the messages that are counted. -/

set_option Elab.async false

namespace Sys2Proof.Machine

variable {r s t u : State} {w : Work} {b : Slot}

/-! ### What a command on one link leaves -/

/-- With a change of the links as well. -/
theorem TmcMoved.linkFrame {x : Vector Link 8} (h : TmcMoved (s.setBlc x) w.st) (o : State) : backgroundKept s (publish o w) ∧
    publish o w = { s with tmc := (publish o w).tmc, swq := (publish o w).swq, blc := (publish o w).blc, evu := (publish o w).evu } := by
  have hbackground := h.background o
  have hframe := h.frame o
  rw [congrArg State.blc hframe]
  exact ⟨hbackground, hframe⟩

/-- With a change of the links and of the PAU as well. -/
theorem TmcMoved.linkBladeFrame {x : Vector Link 8} {y : Pau} (h : TmcMoved ((s.setBlc x).setPau y) w.st) (o : State) :
    backgroundKept s (publish o w) ∧ publish o w = { s with tmc := (publish o w).tmc, swq := (publish o w).swq, blc := (publish o w).blc
                                                            pau := (publish o w).pau, evu := (publish o w).evu } := by
  have hbackground := h.background o
  have hframe := h.frame o
  rw [congrArg State.blc hframe, congrArg State.pau hframe]
  exact ⟨hbackground, hframe⟩

/-- What is left where a work has changed one link alone. -/
theorem link_left {l : Link} (o : State) (hst : w.st = s.setLink b l) : (publish o w).link b = l ∧
    (∀ c, c ≠ b → (publish o w).link c = s.link c) ∧ backgroundKept s (publish o w) ∧
    publish o w = { s with tmc := (publish o w).tmc, swq := (publish o w).swq, blc := (publish o w).blc, evu := (publish o w).evu } := by
  have hmoved : TmcMoved (s.setBlc (s.setLink b l).blc) w.st := by
    rw [hst]
    exact .refl _
  refine ⟨?_, fun c hc => ?_, hmoved.linkFrame o⟩
  · rw [publish_link, hst, State.link_setLink, if_pos rfl]
  · rw [publish_link, hst, State.link_setLink, if_neg hc]

/-! ### The losses of links -/

theorem Abandoned.admits (h : Abandoned b s t) : Admits (s.setZiu t.ziu) t := by
  have hrest := h.rest
  have hmem := h.mem
  have hmarks := h.marks
  generalize t.tmc = x, t.ziu = z, t.blc = y, t.swq = q at hrest hmem hmarks
  subst hrest
  exact { Admits.refl _ with mem := hmem, marks := hmarks }

/-- A link that has ended its work: what it and its blade are then, and what all else keeps. -/
structure LinkEnded (b : Slot) (l : Link) (x : Blade) (s t : State) : Prop where
  admits : Admits (s.setZiu t.ziu) t
  ports : ∀ q, PortKept (s.port q) (t.port q)
  others : ∀ c, c ≠ b → (s.blade c).state ≠ .waitPower → t.blade c = s.blade c ∧ LinkKept (s.link c) (t.link c)
  owes : t.ziu.ackSet = s.ziu.ackSet.filter (fun c => decide (c ≠ b))
  epoch : t.ziu.epoch = s.ziu.epoch
  link : LinkKept l (t.link b)
  blade : t.blade b = x

theorem LinkEnded.settled {l : Link} {x : Blade} (h : LinkEnded b l x s t) (g : Settled t u) (hx : x.state ≠ .waitPower) :
    LinkEnded b l x s u := by
  have hb : (t.blade b).state ≠ .waitPower := by rw [h.blade]; exact hx
  refine ⟨?_, fun q => (h.ports q).trans (g.port q), fun c hc hs => ?_, by rw [g.ziu]; exact h.owes, by rw [g.ziu]; exact h.epoch,
    h.link.trans (g.link b hb), (g.blade b hb).trans h.blade⟩
  · rw [g.ziu]
    exact h.admits.trans g.admits
  · obtain ⟨hblade, hlink⟩ := h.others c hc hs
    have ht : (t.blade c).state ≠ .waitPower := by rw [hblade]; exact hs
    exact ⟨(g.blade c ht).trans hblade, hlink.trans (g.link c ht)⟩

theorem Abandoned.ended {l : Link} {x : Blade} (h : Abandoned b s u) : LinkEnded b l x s ((u.setLink b l).setBlade b x) := by
  have hpau : u.pau = s.pau := h.pau
  refine ⟨(h.admits.trans (admits_setLink u b l)).trans (admits_setBlade _ b x), fun q => ?_, fun c hc hs => ⟨?_, ?_⟩, h.ackSet, h.epoch, ?_, ?_⟩
  · rw [State.port_setBlade, State.port_setLink]
    unfold State.port
    rw [hpau]
    exact .refl _
  · rw [State.blade_setBlade, if_neg hc, State.blade_setLink]
    unfold State.blade
    rw [hpau]
  · rw [State.link_setBlade, State.link_setLink, if_neg hc, h.link, if_neg hc]
    exact .refl _
  · rw [State.link_setBlade, State.link_setLink, if_pos rfl]
    exact .refl _
  · rw [State.blade_setBlade, if_pos rfl]

/-- The record of a blade whose link has been lost. -/
def Blade.afterLoss (x : Blade) (repeated : Bool) (cause : BladeCause) : Blade :=
  if repeated then { x with state := .faulted, cause := .repeatedLoss, base := 0, powerEn := false }
  else { x with state := .lost, cause := cause, powerEn := true }

theorem Blade.afterLoss_state (x : Blade) (repeated : Bool) (cause : BladeCause) : (x.afterLoss repeated cause).state ≠ .waitPower := by
  cases repeated <;> (intro h; cases h)

/-- A loss of a link ends its work. -/
theorem loseLink_ended (w : Work) (b : Slot) (cause : BladeCause) : LinkEnded b ((w.st.link b).emptied.lose w.st.now)
    ((w.st.blade b).afterLoss ((w.st.link b).repeatedLoss w.st.now) cause) w.st (loseLink w b cause).st := by
  obtain ⟨u, habandoned, hsettled⟩ := loseLink_spec w b cause
  exact habandoned.ended.settled hsettled (Blade.afterLoss_state _ _ _)

theorem reached_faultBlade_loose {k : Scope} (h : Reached k s w) (b : Slot) (c : BladeCause) : Reached k.noBlades s (faultBlade w b c) := by
  unfold faultBlade
  dsimp only
  exact reached_bladeOutOfService (reached_releaseBase ((((Loose.refl b w).setBlade _).stopLink.moveBlade _).reached h) _) b

theorem reached_bladeLost_loose {k : Scope} (h : Reached k s w) (b : Slot) (c : BladeCause) : Reached k.noBlades s (bladeLost w b c) := by
  unfold bladeLost
  exact reached_bladeStopsWaiting (((Loose.refl b w).moveBlade _).reached h) b

/-- A link that holds no order where a work stands holds none behind what follows of it. -/
theorem Reached.idle {k : Scope} {v : Work} (h : ∀ s, Reached k s v → Reached k.noBlades s w) (hrecords : v.recordsWhole)
    (hidle : (v.st.link b).idle) : (w.st.link b).idle :=
  (h v.st ⟨.refl _, hrecords⟩).st.idle b hidle

theorem Link.lose_idle (l : Link) (now : Nat) : (l.emptied.lose now).idle := fun _ => by
  unfold Link.lose
  split <;> exact l.emptied_free

/-- A lost link holds no order. -/
theorem loseLink_idle (h : w.recordsWhole) (b : Slot) (cause : BladeCause) : ((loseLink w b cause).st.link b).idle := by
  have hw1 := (reached_abandonLink (k := ⟨False, False, False, False, False⟩) (s := w.st) ⟨.refl _, h⟩ b).records
  have hlink : (abandonLink w b).st.link b = (w.st.link b).emptied := by rw [(abandonLink_abandoned w b).link, if_pos rfl]
  unfold loseLink
  dsimp only
  generalize abandonLink w b = v at hw1 hlink ⊢
  have hv : ((v.map fun s => s.setLink b ((s.link b).lose s.now)).st.link b).idle := by
    rw [Work.map_st, State.link_setLink, if_pos rfl, hlink]
    exact Link.lose_idle _ _
  split
  · exact Reached.idle (k := ⟨False, False, False, False, False⟩) (fun s hs => reached_faultBlade_loose hs b _) hw1 hv
  · exact Reached.idle (k := ⟨False, False, False, False, False⟩) (fun s hs => reached_bladeLost_loose hs b _) hw1 hv

theorem settle_idle (h : w.recordsWhole) (hidle : (w.st.link b).idle) : ((settle w).st.link b).idle :=
  Reached.idle (k := ⟨False, False, False, False, False⟩) (fun _ hs => (reached_settle hs).noBlades) h hidle

theorem loseLink_records (h : w.recordsWhole) (b : Slot) (cause : BladeCause) : (loseLink w b cause).recordsWhole :=
  (reached_loseLink (k := ⟨False, False, False, False, False⟩) (s := w.st) ⟨.refl _, h⟩ b cause).records

/-- The state of a link behind a loss. -/
theorem Link.lose_cases (l : Link) (now : Nat) :
    (l.repeatedLoss now = false → (l.emptied.lose now).state = .lost ∧ (l.emptied.lose now).holdoffAt = some (now + sec 1)) ∧
    (l.repeatedLoss now = true → (l.emptied.lose now).state = .down ∧ (l.emptied.lose now).losses = []) := by
  have hsame : l.emptied.repeatedLoss now = l.repeatedLoss now := rfl
  unfold Link.lose
  rw [hsame]
  constructor
  · intro h
    rw [h]
    exact ⟨rfl, rfl⟩
  · intro h
    rw [h]
    exact ⟨rfl, rfl⟩

theorem Link.lose_not_up (l : Link) (now : Nat) : (l.emptied.lose now).state ≠ .up := by
  unfold Link.lose
  split <;> (intro h; cases h)

theorem Link.lose_fetches (l : Link) (now : Nat) (tag : FetchTag) : (l.emptied.lose now).fetches.get tag = none := by
  unfold Link.lose
  split <;> exact Vector.get_replicate 4 none tag

/-- What the loss of a link leaves at the end of its command. -/
theorem loseLink_left (s : State) (b : Slot) (cause : BladeCause) {t : State}
    (ht : t = publish s (settle (loseLink (Work.start s) b cause))) :
    (∀ tag, (t.link b).fetches.get tag = none) ∧ (∀ tag, (t.link b).orders.get tag = none) ∧ (t.link b).queue = [] ∧ b ∉ t.ziu.ackSet ∧
      ((s.link b).repeatedLoss s.now = false → (t.link b).state = .lost ∧ (t.link b).holdoffAt = some (s.now + sec 1) ∧
        (t.blade b).state = .lost ∧ (t.blade b).cause = cause) ∧
      ((s.link b).repeatedLoss s.now = true → (t.link b).state = .down ∧ (t.link b).losses = [] ∧
        (t.blade b).state = .faulted ∧ (t.blade b).cause = .repeatedLoss ∧ (t.blade b).powerEn = false ∧ (t.blade b).base = 0) ∧
      (∀ q, (t.port q).asks = (s.port q).asks) ∧ otherBladesKept s t b ∧ admissionFrame { s with ziu := t.ziu } t := by
  subst ht
  have hrecords := (Reached.start (k := ⟨False, False, False, False, False⟩) s).records
  have hidle := settle_idle (loseLink_records hrecords b cause) (loseLink_idle hrecords b cause)
  have hend := (loseLink_ended (Work.start s) b cause).settled (settle_settled _) (Blade.afterLoss_state _ _ _)
  generalize settle (loseLink (Work.start s) b cause) = w at hidle hend ⊢
  rw [Work.start_st] at hend
  obtain ⟨hlost, hdown⟩ := Link.lose_cases (s.link b) s.now
  obtain ⟨hqueue, horders⟩ := hidle (by rw [hend.link.state]; exact Link.lose_not_up _ _)
  have hblade : (publish s w).blade b = (s.blade b).afterLoss ((s.link b).repeatedLoss s.now) cause := hend.blade
  refine ⟨fun tag => ?_, horders, hqueue, ?_, fun hr => ?_, fun hr => ?_, fun q => (hend.ports q).asks, fun c hc hs => (hend.others c hc hs).1,
    hend.admits.ziuFrame s⟩
  · rw [publish_link, hend.link.fetches]
    exact Link.lose_fetches _ _ _
  · rw [publish_ziu, hend.owes]
    simp
  · obtain ⟨hstate, hholdoff⟩ := hlost hr
    rw [hblade, hr]
    exact ⟨hend.link.state.trans hstate, hend.link.holdoffAt.trans hholdoff, rfl, rfl⟩
  · obtain ⟨hstate, hlosses⟩ := hdown hr
    rw [hblade, hr]
    exact ⟨hend.link.state.trans hstate, hend.link.losses.trans hlosses, rfl, rfl, rfl, rfl⟩

/-- Settles O41: each of the four occasions is the loss of the link. -/
theorem lossOfALinkLosesTheBlade : Obligations.LossOfALinkLosesTheBlade := by
  rintro b c cause s (⟨rfl, rfl, hup⟩ | ⟨rfl, rfl, hup, hdue⟩ | ⟨tag, o, d, rfl, rfl, hup, ho, hd, hdue⟩ | ⟨rfl, rfl, hwait, hdue⟩)
  · exact answered (op := fun w => settle (loseLink w b .engineReset)) (linkUp_of_state hup) (loseLink_left s b _ rfl)
  · have hc : (s.linkUp b && ranOut (s.link b).keepAt s.now) = true := by rw [linkUp_of_state hup, hdue]; rfl
    exact answered (op := fun w => settle (loseLink w b .keepalive)) hc (loseLink_left s b _ rfl)
  · have hc : (s.linkUp b && ranOut (((s.link b).orders.get tag).bind (·.deadline)) s.now) = true := by
      rw [linkUp_of_state hup, ho, Option.bind_some, hd, ranOut_some rfl hdue]
      rfl
    exact answered (op := fun w => settle (loseLink w b .orderTimeout)) hc (loseLink_left s b _ rfl)
  · have hc : ((s.link b).state.waits && ranOut (s.link b).helloAt s.now) = true := by rw [hwait, hdue]; rfl
    show ∃ t, execHelloWaitExpiry b s = .next t ∧ _
    refine answered hc ?_
    have hnot : ¬(s.link b).state = .firstWait := by rw [hwait]; decide
    rw [if_neg hnot]
    exact loseLink_left s b _ rfl

/-! ### The end of an acknowledgement period -/

/-- A blade that has been forced out of UP, with its link. -/
def State.forcedOff (s : State) (b : Slot) : Prop :=
  ((s.link b).state = .lost ∧ (s.blade b).state = .lost ∧ (s.blade b).cause = .epochTimeout) ∨
    ((s.link b).state = .down ∧ (s.blade b).state = .faulted ∧ (s.blade b).cause = .repeatedLoss)

theorem State.forcedOff.kept (h : s.forcedOff b) (hblade : t.blade b = s.blade b) (hlink : (t.link b).state = (s.link b).state) :
    t.forcedOff b := by
  unfold State.forcedOff
  rw [hblade, hlink]
  exact h

theorem State.forcedOff.not_waiting (h : s.forcedOff b) : (s.blade b).state ≠ .waitPower := by
  rcases h with ⟨-, h, -⟩ | ⟨-, h, -⟩ <;> (rw [h]; decide)

theorem loseLink_forcedOff (w : Work) (b : Slot) : (loseLink w b .epochTimeout).st.forcedOff b := by
  have hend := loseLink_ended w b .epochTimeout
  obtain ⟨hlost, hdown⟩ := Link.lose_cases (w.st.link b) w.st.now
  unfold State.forcedOff
  rw [hend.link.state, hend.blade]
  cases hr : (w.st.link b).repeatedLoss w.st.now
  · exact .inl ⟨(hlost hr).1, rfl, rfl⟩
  · exact .inr ⟨(hdown hr).1, rfl, rfl⟩

/-- What the losses of some links leave. -/
structure Forced (l : List Slot) (s t : State) : Prop where
  admits : Admits (s.setZiu t.ziu) t
  ports : ∀ q, PortKept (s.port q) (t.port q)
  owes : ∀ c ∈ t.ziu.ackSet, c ∈ s.ziu.ackSet ∧ c ∉ l
  epoch : t.ziu.epoch = s.ziu.epoch
  forced : ∀ b, b ∈ l ∨ s.forcedOff b → t.forcedOff b

theorem Admits.ziu_trans (h : Admits (r.setZiu s.ziu) s) (g : Admits (s.setZiu t.ziu) t) : Admits (r.setZiu t.ziu) t :=
  Admits.trans (s := s.setZiu t.ziu) { h with ziu := rfl } g

theorem forced_foldl : ∀ (l : List Slot) (w : Work), Forced l w.st (l.foldl (fun w b => loseLink w b .epochTimeout) w).st
  | [], w => ⟨Admits.refl _, fun _ => .refl _, fun c hc => ⟨hc, List.not_mem_nil⟩, rfl, fun b h => h.resolve_left List.not_mem_nil⟩
  | a :: l, w => by
    have hend := loseLink_ended w a .epochTimeout
    have hoff := loseLink_forcedOff w a
    have ih := forced_foldl l (loseLink w a .epochTimeout)
    refine ⟨hend.admits.ziu_trans ih.admits, fun q => (hend.ports q).trans (ih.ports q), fun c hc => ?_, ih.epoch.trans hend.epoch,
      fun b hb => ih.forced b ?_⟩
    · obtain ⟨hin, hout⟩ := ih.owes c hc
      rw [hend.owes, List.mem_filter, decide_eq_true_eq] at hin
      exact ⟨hin.1, fun h => (List.mem_cons.1 h).elim hin.2 hout⟩
    · by_cases e : b = a
      · exact .inr (e ▸ hoff)
      · refine hb.imp (fun h => (List.mem_cons.1 h).resolve_left e) (fun h => ?_)
        obtain ⟨hblade, hlink⟩ := hend.others b e h.not_waiting
        exact h.kept hblade hlink.state

/-- Settles O32: each blade that owes is lost in turn, and none is left to owe. -/
theorem ackTimeoutForcesBladesOff : Obligations.AckTimeoutForcesBladesOff := by
  intro s at0 hzone hat hdue
  show ∃ t, execAckTimeout s = .next t ∧ _
  refine answered (by rw [hzone, ranOut_some hat hdue]; rfl) ?_
  unfold ackTimeoutWork
  dsimp only
  generalize hw0 : (Work.setZiu (Work.start s) _).raise _ _ = w0
  have hst : w0.st = s.setZiu { s.ziu with ackAt := none } := by rw [← hw0]; rfl
  have hforced := forced_foldl s.ziu.ackSet w0
  have hsettled := settle_settled (s.ziu.ackSet.foldl (fun w b => loseLink w b .epochTimeout) w0)
  rw [Work.start_st]
  generalize s.ziu.ackSet.foldl (fun w b => loseLink w b .epochTimeout) w0 = v at hforced hsettled ⊢
  generalize settle v = w at hsettled ⊢
  rw [hst] at hforced
  have hadmits : Admits (s.setZiu v.st.ziu) w.st := by
    refine Admits.trans ?_ hsettled.admits
    have h := hforced.admits
    exact h
  refine ⟨?_, ?_, fun b hb => ?_, fun q => ((hforced.ports q).trans (hsettled.port q)).asks, hadmits.ziuFrame s⟩
  · rw [publish_ziu, hsettled.ziu]
    exact List.eq_nil_iff_forall_not_mem.2 fun c hc => (hforced.owes c hc).2 (hforced.owes c hc).1
  · rw [publish_ziu, hsettled.ziu, hforced.epoch]
    rfl
  · have hoff := hforced.forced b (.inl hb)
    have h : w.st.forcedOff b := hoff.kept (hsettled.blade b hoff.not_waiting) (hsettled.link b hoff.not_waiting).state
    exact h

/-! ### A first wait that runs out -/

/-- A fault of a blade whose link is DOWN. -/
theorem faultBlade_settled {v : Work} (cause : BladeCause) (hdown : (v.st.link b).state = .down) : Settled
    (v.st.setBlade b { v.st.blade b with state := .faulted, cause := cause, base := 0, powerEn := false }) (faultBlade v b cause).st := by
  have hoff : ((v.setBlade b { v.st.blade b with powerEn := false }).st.link b).state = .down := hdown
  have hbase : ∀ (u : Work) (n : Nat), (releaseBase u n).st = u.st := fun u n => by
    unfold releaseBase
    split <;> rfl
  unfold faultBlade
  dsimp only
  rw [stopLink_of_down hoff]
  refine settled_bladeOutOfService ?_ b
  rw [hbase, moveBlade_st]
  have htwice : ∀ (x y : Blade), (v.st.setBlade b x).setBlade b y = v.st.setBlade b y := fun x y => by
    simp [State.setBlade, State.setPau, Vector.put]
  rw [Work.setBlade_st, htwice, State.blade_setBlade, if_pos rfl]
  exact .refl _

/-- The end of a first wait. -/
theorem faultStopped_ended (w : Work) (b : Slot) (cause : BladeCause) (hlink : (w.st.link b).state ≠ .down) :
    LinkEnded b (w.st.link b).emptied.downed { w.st.blade b with state := .faulted, cause := cause, base := 0, powerEn := false } w.st
      (faultBlade (stopLink w b) b cause).st := by
  have habandoned := abandonLink_abandoned w b
  have hblade : (stopLink w b).st.blade b = w.st.blade b := by
    rw [stopLink_of_not_down hlink]
    show (abandonLink w b).st.blade b = _
    unfold State.blade
    rw [habandoned.pau]
  have hsettled := faultBlade_settled (b := b) (v := stopLink w b) cause (stopLink_down w b)
  have hst : (stopLink w b).st = (abandonLink w b).st.setLink b (w.st.link b).emptied.downed := by
    rw [stopLink_of_not_down hlink, Work.map_st, habandoned.link, if_pos rfl]
  rw [hblade, hst] at hsettled
  exact habandoned.ended.settled hsettled nofun

/-! ### Waits and transmissions -/

theorem sent_data {l : Link} {d : FetchData} (now : Nat) (h : l.sending = some ⟨.fetchData d, true⟩) (hd : d.status ≠ .overrun) :
    (l.sent now).fetches.get d.tag = none := by
  unfold Link.sent
  rw [h]
  dsimp only
  rw [if_neg hd, Vector.get_put, if_pos rfl]

theorem sent_order {l : Link} {tag : OrderTag} {o : Order} {x : OutOrder} (now : Nat) (h : l.sending = some ⟨.order tag o, true⟩)
    (hx : l.orders.get tag = some x) : (l.sent now).orders.get tag = some { x with deadline := some (now + msec 250) } := by
  unfold Link.sent
  rw [h]
  dsimp only
  rw [Vector.get_put, if_pos rfl, hx]
  rfl

/-- The end of a transmission leaves what waits. -/
theorem sent_waiting (l : Link) (now : Nat) : (l.sent now).sending = none ∧ (l.sent now).welcome = l.welcome ∧ (l.sent now).notice = l.notice := by
  unfold Link.sent
  split
  · split <;> exact ⟨rfl, rfl, rfl⟩
  · exact ⟨rfl, rfl, rfl⟩
  · exact ⟨rfl, rfl, rfl⟩

theorem pump_welcome {l : Link} {e : Nat} (hfree : l.sending = none) (hstate : l.state.sends = true) (h : l.welcome = some e) :
    l.pump.sending = some ⟨.welcome e, true⟩ ∧ l.pump.welcome = none := by
  unfold Link.pump
  rw [hfree, hstate, if_neg (by decide), h]
  exact ⟨rfl, rfl⟩

theorem pump_notice {l : Link} {e : Nat} (hfree : l.sending = none) (hstate : l.state.sends = true) (hwelcome : l.welcome = none)
    (h : l.notice = some e) : l.pump.sending = some ⟨.epoch e, true⟩ ∧ l.pump.notice = none := by
  unfold Link.pump
  rw [hfree, hstate, if_neg (by decide), hwelcome, h]
  exact ⟨rfl, rfl⟩

/-- Taking the next message changes no order that is outstanding already. -/
theorem pump_order {l : Link} {tag : OrderTag} {x : OutOrder} (h : l.orders.get tag = some x) : l.pump.orders.get tag = some x := by
  have htake : l.takeOrder.orders.get tag = some x := by
    unfold Link.takeOrder
    split
    · next o rest free _ hfree =>
      have hnone := List.find?_some hfree
      dsimp only
      rw [Vector.get_put]
      split
      · next e =>
        rw [← e, h] at hnone
        cases hnone
      · exact h
    · exact h
  unfold Link.pump
  split
  · exact h
  · split
    · exact h
    · split
      · exact h
      · split
        · exact htake
        · split
          · split
            · exact htake
            · exact h
          · unfold Link.takeData
            split <;> exact h

/-- Settles O42: the two waits, and what goes at the end of a transmission. -/
theorem linkWaitsAndTransmissionsEnd : Obligations.LinkWaitsAndTransmissionsEnd := by
  refine ⟨fun b s hstate hdue => ?_, fun b s hstate hdue => ?_, fun b s m hm => ?_⟩
  · show ∃ t, execLostHoldoffExpiry b s = .next t ∧ _
    exact answered (by rw [hstate, hdue]; rfl) (link_left (b := b) s rfl)
  · show ∃ t, execHelloWaitExpiry b s = .next t ∧ _
    refine answered (by rw [hstate, hdue]; rfl) ?_
    rw [if_pos hstate]
    have hend := (faultStopped_ended (Work.start s) b .helloTimeout (by rw [Work.start_st, hstate]; decide)).settled (settle_settled _) nofun
    generalize settle _ = w at hend ⊢
    have hblade : (publish s w).blade b = { s.blade b with state := .faulted, cause := .helloTimeout, base := 0, powerEn := false } := hend.blade
    rw [hblade]
    exact ⟨hend.link.state, hend.link.losses, rfl, rfl, rfl, rfl, fun q => (hend.ports q).asks, fun c hc hs => (hend.others c hc hs).1,
      hend.admits.ziuFrame s⟩
  · show ∃ t, execTransmissionComplete b s = .next t ∧ _
    refine answered (by rw [hm]; rfl) ?_
    generalize hw : Work.map _ _ = w
    obtain ⟨hlink, hothers, hback, hframe⟩ := link_left (b := b) (w := w) (l := ((s.link b).sent s.now).pump) s (by rw [← hw]; rfl)
    obtain ⟨hfree, hwelcome, hnotice⟩ := sent_waiting (s.link b) s.now
    have hstate := sent_state (s.link b) s.now
    refine ⟨fun d hd hover => ?_, fun tag o x ho hx => ?_, fun e hs he => ?_, fun e hs hnone he => ?_, hothers, hback, hframe⟩
    · rw [hlink, (Link.pump_kept _).fetches]
      exact sent_data _ (hm.trans (congrArg some hd)) hover
    · rw [hlink]
      exact pump_order (sent_order _ (hm.trans (congrArg some ho)) hx)
    · rw [hlink]
      exact pump_welcome hfree (hstate ▸ hs) (hwelcome.trans he)
    · rw [hlink]
      exact pump_notice hfree (hstate ▸ hs) (hwelcome.trans hnone) (hnotice.trans he)

end Sys2Proof.Machine
end

section
/-! PROOFS. The messages of the links that are counted, the layout of messages on the wire, and FETCH. -/

set_option Elab.async false

namespace Sys2Proof.Machine

variable {r s t u : State} {w : Work} {b : Slot}

/-! ### One event, or none, handed to the EVU -/

/-- A command without an event leaves the intake. -/
theorem publish_no_event (o : State) (h : w.events = []) : (publish o w).evu.intake = w.st.evu.intake := by
  have hu : Asked w.st (stateWritten o w) := asked_stateWritten o w
  rw [publish_evu, publishState_evu, (evuRest_intake_lostTotal _).1, h, List.foldl_nil, hu.evu]

/-- The one event of a command without a unit is taken by an armed part with room. -/
theorem publish_one_event (o : State) {e : Event} (h : w.events = [⟨none, e⟩]) (hpart : w.st.plu.part = .armed)
    (hroom : w.st.evu.intake.length < 32) : (publish o w).evu.intake =
      w.st.evu.intake ++ [⟨(w.st.evu.sequence + 1) % 65536, w.st.timestamp, e⟩] := by
  have hu : Asked w.st (stateWritten o w) := asked_stateWritten o w
  rw [(publish_direct_event o h).1, handEvent_taken e (hu.armed.trans (decide_eq_true hpart)) (by rw [hu.evu]; exact hroom), State.setEvu_evu,
    hu.evu, hu.timestamp]

/-! ### Counted messages -/

/-- A message counted on its link: the count, and the moment at which the changed count is written. -/
def State.counted (s : State) (b : Slot) : State :=
  (s.setLink b { s.link b with errors := (s.link b).errors + 1 }).setBlade b
    { s.blade b with errorsAt := some ((s.blade b).errorsAt.getD (endOfSecond s.now)) }

theorem linkError_st (h : (w.st.link b).errors < 65535) : (linkError w b).st = w.st.counted b := by
  have hmin : min 65535 ((w.st.link b).errors + 1) = (w.st.link b).errors + 1 := by omega
  unfold linkError
  rw [if_neg (by omega)]
  show (countLinkError w.st b).setBlade b _ = _
  unfold countLinkError
  rw [hmin]
  rfl

theorem linkError_events (w : Work) (b : Slot) : (linkError w b).events = w.events := by
  unfold linkError
  split <;> rfl

theorem linkError_full (h : 65535 ≤ (w.st.link b).errors) : linkError w b = w := if_pos h

/-- What is left of a message that has been counted. -/
theorem counted_left (o : State) (hst : w.st = s.counted b) :
    (publish o w).link b = { s.link b with errors := (s.link b).errors + 1 } ∧ (∀ c, c ≠ b → (publish o w).link c = s.link c) ∧
      ((publish o w).blade b).state = (s.blade b).state ∧ backgroundKept s (publish o w) ∧ publish o w = { s with
        tmc := (publish o w).tmc, swq := (publish o w).swq, blc := (publish o w).blc, pau := (publish o w).pau, evu := (publish o w).evu } := by
  have hmoved : TmcMoved ((s.setBlc w.st.blc).setPau w.st.pau) w.st := by
    rw [hst]
    exact .refl _
  have hlink : ∀ c, (publish o w).link c = if c = b then { s.link b with errors := (s.link b).errors + 1 } else s.link c := fun c => by
    rw [publish_link, hst]
    exact State.link_setLink _ _ _ _
  refine ⟨by rw [hlink, if_pos rfl], fun c hc => by rw [hlink, if_neg hc], ?_, hmoved.linkBladeFrame o⟩
  have hblade : (publish o w).blade b = w.st.blade b := rfl
  rw [hblade, hst]
  unfold State.counted
  rw [State.blade_setBlade, if_pos rfl]

/-! ### The layout of messages -/

/-- The bytes that the CRC of a message covers. -/
def wireCovered (type slot tag : Byte) (body : List Byte) : List Byte := [type, slot] ++ leBytes 2 body.length ++ [tag] ++ body

theorem wireMessage_eq (type slot tag : Byte) (body : List Byte) : wireMessage type slot tag body =
    wireCovered type slot tag body ++ [(crc16 (wireCovered type slot tag body) >>> 8).truncate 8, (crc16 (wireCovered type slot tag body)).truncate 8] :=
  rfl

theorem wireCovered_length (type slot tag : Byte) (body : List Byte) : (wireCovered type slot tag body).length = body.length + 5 := by
  simp [wireCovered]
  omega

theorem engineBodyLength_le {type n : Nat} (h : engineBodyLength type = some n) : n ≤ 6 := by
  unfold engineBodyLength at h
  split_ifs at h <;> (cases h; decide)

/-- A laid out message passes the reception checks that its fields meet. -/
theorem receptionFailure_wire {type slot tag : Byte} {body : List Byte} (hlength : engineBodyLength type.toNat = some body.length)
    (hslot : type.toNat = 1 ∨ slot.toNat = b.1) (htag : type.toNat = 2 → tag.toNat ≤ 3)
    (hresult : type.toNat = 5 → ((wireMessage type slot tag body).getD 5 0#8).toNat ≤ 1) :
    receptionFailure b (wireMessage type slot tag body) = none := by
  have hshort : body.length < 65536 := Nat.lt_of_le_of_lt (engineBodyLength_le hlength) (by decide)
  have hlen : (wireMessage type slot tag body).length = body.length + 7 := by
    rw [wireMessage_eq, List.length_append, wireCovered_length]
    rfl
  have hcut : (wireMessage type slot tag body).length - 2 = (wireCovered type slot tag body).length := by
    rw [hlen, wireCovered_length]
    omega
  have htype : (wireMessage type slot tag body).getD 0 0#8 = type := rfl
  have hslot' : (wireMessage type slot tag body).getD 1 0#8 = slot := rfl
  have htag' : (wireMessage type slot tag body).getD 4 0#8 = tag := rfl
  have hfield : leNat (((wireMessage type slot tag body).drop 2).take 2) = body.length := by
    have hbytes : ((wireMessage type slot tag body).drop 2).take 2 = leBytes 2 body.length := rfl
    rw [hbytes, leNat_leBytes]
    exact Nat.mod_eq_of_lt hshort
  unfold receptionFailure
  dsimp only
  rw [hcut, wireMessage_eq, List.take_left, List.drop_left, ← wireMessage_eq, if_neg (by rw [hlen]; simp), htype, hlength]
  dsimp only
  rw [hfield, hlen, hslot', htag', if_neg (by simp), if_neg (by omega), if_neg (by omega), if_neg (by omega)]

theorem byteOf_toNat {n : Nat} (h : n < 256) : (byteOf n).toNat = n := by
  unfold byteOf
  rw [BitVec.toNat_ofNat]
  exact Nat.mod_eq_of_lt h

theorem byteOf_slot (b : Slot) : (byteOf b.1).toNat = b.1 := byteOf_toNat (Nat.lt_trans b.2 (by decide))

/-- A laid out message of an engine passes the checks. -/
theorem receptionFailure_none (b : Slot) (m : EngineMessage) : receptionFailure b (m.wire b) = none := by
  cases m with
  | hello => exact receptionFailure_wire rfl (.inl rfl) (fun h => by cases h) (fun h => by cases h)
  | fetch tag first count =>
    refine receptionFailure_wire rfl (.inr (byteOf_slot b)) (fun _ => ?_) (fun h => by cases h)
    rw [byteOf_toNat (Nat.lt_trans tag.2 (by decide))]
    exact Nat.le_of_lt_succ tag.2
  | status => exact receptionFailure_wire rfl (.inr (byteOf_slot b)) (fun h => by cases h) (fun h => by cases h)
  | portNote => exact receptionFailure_wire rfl (.inr (byteOf_slot b)) (fun h => by cases h) (fun h => by cases h)
  | orderAck tag result =>
    refine receptionFailure_wire rfl (.inr (byteOf_slot b)) (fun h => by cases h) (fun _ => ?_)
    show (byteOf (OrderResult.code result)).toNat ≤ 1
    cases result <;> decide
  | epochAck => exact receptionFailure_wire rfl (.inr (byteOf_slot b)) (fun h => by cases h) (fun h => by cases h)
  | reset => exact receptionFailure_wire rfl (.inr (byteOf_slot b)) (fun h => by cases h) (fun h => by cases h)

theorem ofNat_leBytes (v : BitVec 16) : BitVec.ofNat 16 (leNat (leBytes 2 v.toNat)) = v := by
  rw [leNat_leBytes]
  have h := v.isLt
  exact BitVec.eq_of_toNat_eq (by rw [BitVec.toNat_ofNat]; omega)

theorem ofNat_leBytes32 (v : BitVec 32) : BitVec.ofNat 32 (leNat (leBytes 4 v.toNat)) = v := by
  rw [leNat_leBytes]
  have h := v.isLt
  exact BitVec.eq_of_toNat_eq (by rw [BitVec.toNat_ofNat]; omega)

/-- A laid out message of an engine spells itself. -/
theorem ofBytes_wire (b : Slot) (m : EngineMessage) : EngineMessage.ofBytes (m.wire b) = some m := by
  cases m with
  | hello hdrSlot hdrTag rev bodySlot ports base =>
    have h : EngineMessage.ofBytes (EngineMessage.wire b (.hello hdrSlot hdrTag rev bodySlot ports base)) =
        some (.hello hdrSlot hdrTag rev bodySlot ports (BitVec.ofNat 16 (leNat (leBytes 2 base.toNat)))) := rfl
    rw [h, ofNat_leBytes]
  | fetch tag first count =>
    have h : EngineMessage.ofBytes (EngineMessage.wire b (.fetch tag first count)) =
        some (.fetch (Fin.ofNat 4 (byteOf tag.1).toNat) (BitVec.ofNat 16 (leNat (leBytes 2 first.toNat))) count) := rfl
    rw [h, ofNat_leBytes, byteOf_toNat (Nat.lt_trans tag.2 (by decide)), Fin.ofNat_val_eq_self]
  | status => rfl
  | portNote => rfl
  | orderAck tag result => cases result <;> rfl
  | epochAck epoch =>
    have h : EngineMessage.ofBytes (EngineMessage.wire b (.epochAck epoch)) =
        some (.epochAck (BitVec.ofNat 32 (leNat (leBytes 4 epoch.toNat)))) := rfl
    rw [h, ofNat_leBytes32]
  | reset => rfl

/-- Settles O43: a message is counted once, with the event of its reason, and laid out bytes are their message. -/
theorem invalidMessageIsCounted : Obligations.InvalidMessageIsCounted := by
  refine ⟨fun b raw f s hf hstate herrors => ?_, fun b m s => ⟨receptionFailure_none b m, ofBytes_wire b m, ?_⟩⟩
  · show ∃ t, execInvalidMessage b raw s = .next t ∧ _
    unfold execInvalidMessage
    rw [hf]
    refine answered (decide_eq_true hstate) ?_
    have hcounted : (linkError (Work.start s) b).st = s.counted b := linkError_st herrors
    have hevents : (linkError (Work.start s) b).events = [] := linkError_events _ b
    unfold discardMessage linkFault
    generalize linkError (Work.start s) b = w at hcounted hevents ⊢
    cases hr : f.reason with
    | none =>
      obtain ⟨hlink, hothers, -, hback, hframe⟩ := counted_left s hcounted
      refine ⟨hlink, hothers, (fun _ h => by cases h), fun _ => ?_, hback, hframe⟩
      rw [publish_no_event s hevents, hcounted]
      rfl
    | some r =>
      obtain ⟨hlink, hothers, -, hback, hframe⟩ := counted_left (w := w.raiseDirect (linkEvent b r (raw.getD 0 0#8).toNat (raw.getD 4 0#8).toNat)) s hcounted
      refine ⟨hlink, hothers, fun r' h hpart hroom => ?_, fun h => (by rw [h] at hr; cases hr), hback, hframe⟩
      obtain rfl := Option.some.inj h
      have hone := publish_one_event (w := w.raiseDirect (linkEvent b r (raw.getD 0 0#8).toNat (raw.getD 4 0#8).toNat)) s
        (e := linkEvent b r (raw.getD 0 0#8).toNat (raw.getD 4 0#8).toNat) (by
          show w.events ++ _ = _
          rw [hevents]
          rfl) (by rw [Work.raiseDirect_st, hcounted]; exact hpart) (by rw [Work.raiseDirect_st, hcounted]; exact hroom)
      rw [Work.raiseDirect_st, hcounted] at hone
      exact hone
  · have hexec : exec (.invalidMessage b (m.wire b)) s = takeMessage b m s := by
      show execInvalidMessage b (m.wire b) s = _
      unfold execInvalidMessage
      rw [receptionFailure_none, ofBytes_wire]
    rw [hexec]
    cases m <;> rfl

end Sys2Proof.Machine
end

section
/-! PROOFS. FETCH: the binding, the refusals, the full window and a tag in use. -/

set_option Elab.async false

namespace Sys2Proof.Machine

variable {r s t u : State} {w : Work} {b : Slot}

/-! ### The keepalive -/

/-- What a valid message leaves of its link before it is acted on. -/
def Link.alive (l : Link) (now : Nat) : Link := if l.state = .up then { l with keepAt := some (now + sec 2) } else l

theorem State.setLink_self (s : State) (b : Slot) : s.setLink b (s.link b) = s := by
  have h : Vector.put s.blc b (s.link b) = s.blc := by
    unfold Vector.put State.link
    exact Vector.set_getElem_self b.2
  show { s with blc := Vector.put s.blc b (s.link b) } = s
  rw [h]

theorem keepAlive_st (w : Work) (b : Slot) : (keepAlive w b).st = w.st.setLink b ((w.st.link b).alive w.st.now) ∧
    (keepAlive w b).events = w.events := by
  unfold keepAlive Link.alive
  dsimp only
  split
  · exact ⟨rfl, rfl⟩
  · exact ⟨(State.setLink_self _ _).symm, rfl⟩

theorem Link.alive_of_up {l : Link} (h : l.state = .up) (now : Nat) : l.alive now = { l with keepAt := some (now + sec 2) } := if_pos h

theorem Link.alive_of_waits {l : Link} (h : l.state.waits = true) (now : Nat) : l.alive now = l := if_neg fun hup => by
  rw [hup] at h
  cases h

theorem Link.alive_fields (l : Link) (now : Nat) : (l.alive now).state = l.state ∧ (l.alive now).fetches = l.fetches ∧ (l.alive now).ready = l.ready ∧
    (l.alive now).sending = l.sending ∧ (l.alive now).errors = l.errors := by
  unfold Link.alive
  split <;> exact ⟨rfl, rfl, rfl, rfl, rfl⟩

/-! ### The window -/

theorem windowFull_iff (l : Link) : l.windowFull = true ↔ ∀ k, l.fetches.get k ≠ none := by
  unfold Link.windowFull
  rw [List.all_eq_true]
  constructor
  · intro h k hk
    have hmem : l.fetches.get k ∈ l.fetches.toList := Vector.mem_toList_iff.2 (Vector.getElem_mem k.2)
    have hsome := h _ hmem
    rw [hk] at hsome
    cases hsome
  · intro h x hx
    obtain ⟨i, hi, rfl⟩ := Vector.mem_iff_getElem.1 (Vector.mem_toList_iff.1 hx)
    exact Option.isSome_iff_ne_none.2 (h ⟨i, hi⟩)

theorem overrunWaits_iff (l : Link) (tag : FetchTag) : l.overrunWaits tag = true ↔ ∃ d ∈ l.ready, d.tag = tag ∧ d.status = .overrun := by
  unfold Link.overrunWaits
  simp only [List.any_eq_true, Bool.and_eq_true, decide_eq_true_eq]

/-! ### A FETCH on a free tag -/

/-- A link with a fetch on one of its tags. -/
def Link.holding (l : Link) (tag : FetchTag) (f : FetchSlot) : Link := { l with fetches := Vector.put l.fetches tag (some f) }

/-- A FETCH that is answered without lines. -/
theorem fetchRefused_link {st : FetchStatus} {first count : Nat} {tag : FetchTag} (h : fetchRefusal s b first count = some st) :
    (∀ c, c ≠ b → (fetchOnFreeTag s b tag first count).link c = s.link c) ∧
    LinkKept ((s.link b).holding tag ⟨first, count, none, [], false⟩)
      ((fetchOnFreeTag s b tag first count).link b) ∧
    ((fetchOnFreeTag s b tag first count).link b).holdsData ⟨tag, s.ziu.epoch, st, []⟩ ∧
    TmcMoved (s.setBlc (fetchOnFreeTag s b tag first count).blc) (fetchOnFreeTag s b tag first count) := by
  have heq : fetchOnFreeTag s b tag first count = queueData (occupyTag s b tag first count none) b ⟨tag, s.ziu.epoch, st, []⟩ := by
    unfold fetchOnFreeTag
    rw [h]
  have hocc : ∀ c, (occupyTag s b tag first count none).link c = if c = b then
      ((s.link b).holding tag ⟨first, count, none, [], false⟩) else s.link c :=
    fun c => State.link_setLink _ _ _ _
  rw [heq]
  refine ⟨fun c hc => ?_, ?_, queueData_holdsData _ _ _, ⟨rfl, rfl, rfl⟩⟩
  · rw [queueData_link, if_neg hc, hocc, if_neg hc]
  · rw [queueData_link, if_pos rfl, hocc, if_pos rfl]
    have hpump := Link.pump_kept { (s.link b).holding tag ⟨first, count, none, [], false⟩ with
      ready := (s.link b).ready ++ [⟨tag, s.ziu.epoch, st, []⟩] }
    exact ⟨hpump.1, hpump.2, hpump.3, hpump.4, hpump.5, hpump.6, hpump.7, hpump.8⟩

/-- A FETCH that is bound. -/
theorem bindFetch_left (s : State) (b : Slot) (tag : FetchTag) (first count : Nat) :
    Asked ((s.setLink b ((s.link b).holding tag ⟨first, count, some (s.ziu.liveBank, s.ziu.epoch), [], false⟩)).setZiu
      { s.ziu with inFlight := Vector.put s.ziu.inFlight s.ziu.liveBank (s.ziu.inFlight.get s.ziu.liveBank + 1) }) (bindFetch s b tag first count) ∧
    ∀ l i, s.plu.layout = some l → i < count →
      (bindFetch s b tag first count).asked ⟨.fetch b tag i, l.bankLine s.ziu.liveBank (first + i) / 64⟩ := by
  unfold bindFetch
  dsimp only
  cases hl : s.plu.layout with
  | none =>
    refine ⟨.refl _, fun l i h => ?_⟩
    cases h
  | some l =>
    refine ⟨asked_presentAll _ _, fun l' i h hi => ?_⟩
    obtain rfl := Option.some.inj h
    exact presentAll_asked (List.mem_map.2 ⟨i, List.mem_range.2 hi, rfl⟩) _

/-- The answer of a FETCH on a free tag of an UP link. -/
theorem fetchRefusal_up (h : (s.link b).state = .up) (first count : Nat) :
    (s.pbu.hold = true → fetchRefusal s b first count = some .hold) ∧
    (s.pbu.hold = false → (count = 0 ∨ 4 < count ∨ first = 0 ∨ 4096 < first + count) → fetchRefusal s b first count = some .range) ∧
    (s.pbu.hold = false → ¬(count = 0 ∨ 4 < count ∨ first = 0 ∨ 4096 < first + count) → fetchRefusal s b first count = none) := by
  have hup : ¬(s.link b).state ≠ .up := fun hne => hne h
  unfold fetchRefusal
  rw [if_neg hup]
  refine ⟨fun hhold => if_pos hhold, fun hhold hrange => ?_, fun hhold hrange => ?_⟩
  · rw [hhold, if_neg (by decide)]
    by_cases hc : count = 0 ∨ 4 < count
    · exact if_pos hc
    · rw [if_neg hc]
      exact if_pos (by omega)
  · rw [hhold, if_neg (by decide), if_neg (by omega), if_neg (by omega)]

/-- A valid FETCH on a link that waits or is UP. -/
theorem exec_fetch {tag : FetchTag} {first : BitVec 16} {count : Byte} {Q : State → Prop} (h : (s.link b).state.waits = true ∨ (s.link b).state = .up)
    (hQ : ∀ w, w.st = s.setLink b ((s.link b).alive s.now) → w.events = [] → Q (publish s (fetchTaken w b tag first.toNat count.toNat))) :
    ∃ t, exec (.fetch b tag first count) s = .next t ∧ Q t := by
  show ∃ t, takeFetch b tag first count s = .next t ∧ _
  have hc : ((s.link b).state.waits || s.linkUp b) = true := by
    rw [Bool.or_eq_true]
    exact h.imp_right linkUp_of_state
  obtain ⟨hst, hevents⟩ := keepAlive_st (Work.start s) b
  exact answered hc (hQ _ hst hevents)

/-- A FETCH on a free tag. -/
theorem fetchTaken_free {tag : FetchTag} (first count : Nat) (h : (w.st.link b).fetches.get tag = none) :
    fetchTaken w b tag first count = w.map (fun s => fetchOnFreeTag s b tag first count) := by
  have hfull : ¬(w.st.link b).windowFull = true := by
    rw [windowFull_iff]
    exact fun hall => hall tag h
  have hfree : ¬((w.st.link b).fetches.get tag).isSome = true := by
    rw [h]
    decide
  unfold fetchTaken
  dsimp only
  rw [if_neg hfull, if_neg hfree]

/-- What an answer without lines leaves of a FETCH. -/
theorem fetchRefused_left {l : Link} {tag : FetchTag} {first count : Nat} {st : FetchStatus} (o : State) (hst : w.st = s.setLink b l)
    (hfree : l.fetches.get tag = none) (h : fetchRefusal w.st b first count = some st) :
    (∀ c, c ≠ b → (publish o (fetchTaken w b tag first count)).link c = s.link c) ∧
    LinkKept (l.holding tag ⟨first, count, none, [], false⟩) ((publish o (fetchTaken w b tag first count)).link b) ∧
    ((publish o (fetchTaken w b tag first count)).link b).holdsData ⟨tag, s.ziu.epoch, st, []⟩ ∧
    TmcMoved (s.setBlc (fetchTaken w b tag first count).st.blc) (fetchTaken w b tag first count).st := by
  have hlink : w.st.link b = l := by rw [hst, State.link_setLink, if_pos rfl]
  obtain ⟨hothers, hkept, hholds, hmoved⟩ := fetchRefused_link (tag := tag) h
  rw [fetchTaken_free first count (hlink ▸ hfree)]
  refine ⟨fun c hc => (hothers c hc).trans ?_, hlink ▸ hkept, ?_, ?_⟩
  · rw [hst, State.link_setLink, if_neg hc]
  · rw [show s.ziu.epoch = w.st.ziu.epoch by rw [hst]; rfl]
    exact hholds
  · rw [Work.map_st]
    generalize fetchOnFreeTag w.st b tag first count = t at hmoved ⊢
    rw [hst] at hmoved
    exact hmoved

/-- The bound FETCH of an UP link. -/
theorem fetchBound_left {l : Link} {tag : FetchTag} {first count : Nat} (o : State) (hst : w.st = s.setLink b l)
    (hfree : l.fetches.get tag = none) (h : fetchRefusal w.st b first count = none) :
    (publish o (fetchTaken w b tag first count)).link b = l.holding tag ⟨first, count, some (s.ziu.liveBank, s.ziu.epoch), [], false⟩ ∧
    (publish o (fetchTaken w b tag first count)).ziu =
      { s.ziu with inFlight := Vector.put s.ziu.inFlight s.ziu.liveBank (s.ziu.inFlight.get s.ziu.liveBank + 1) } ∧
    (∀ lay i, s.plu.layout = some lay → i < count →
      (publish o (fetchTaken w b tag first count)).asked ⟨.fetch b tag i, lay.bankLine s.ziu.liveBank (first + i) / 64⟩) ∧
    backgroundKept s (publish o (fetchTaken w b tag first count)) ∧ publish o (fetchTaken w b tag first count) = { s with
      tmc := (publish o (fetchTaken w b tag first count)).tmc, swq := (publish o (fetchTaken w b tag first count)).swq
      ziu := (publish o (fetchTaken w b tag first count)).ziu, blc := (publish o (fetchTaken w b tag first count)).blc
      evu := (publish o (fetchTaken w b tag first count)).evu } := by
  have hlink : w.st.link b = l := by rw [hst, State.link_setLink, if_pos rfl]
  have hbind : fetchOnFreeTag w.st b tag first count = bindFetch w.st b tag first count := by
    unfold fetchOnFreeTag
    rw [h]
  obtain ⟨hleft, hasked⟩ := bindFetch_left w.st b tag first count
  rw [fetchTaken_free first count (hlink ▸ hfree)]
  generalize hv : w.map (fun s => fetchOnFreeTag s b tag first count) = v
  have hvst : v.st = bindFetch w.st b tag first count := by rw [← hv, Work.map_st, hbind]
  rw [← hvst, hlink] at hleft
  rw [← hvst] at hasked
  have hziu : w.st.ziu = s.ziu := by rw [hst]; rfl
  have hplu : w.st.plu = s.plu := by rw [hst]; rfl
  rw [hziu] at hleft hasked
  rw [hplu] at hasked
  have hmoved := hleft.moved
  have hrest := hmoved.rest
  refine ⟨?_, ?_, fun lay i hlay hi => (hasked lay i hlay hi).publish rfl o, ?_⟩
  · rw [publish_link]
    unfold State.link
    rw [hrest]
    exact (State.link_setLink _ _ _ _).trans (if_pos rfl)
  · rw [publish_ziu, hrest]
    rfl
  · have hzone : TmcMoved ((s.setBlc v.st.blc).setZiu v.st.ziu) v.st := by
      rw [hst] at hmoved hrest
      refine ⟨hmoved.mem, hmoved.marks, ?_⟩
      rw [congrArg State.blc hrest, congrArg State.ziu hrest]
      exact hrest
    have hback := hzone.background o
    have hframe := hzone.frame o
    rw [congrArg State.blc hframe, congrArg State.ziu hframe]
    exact ⟨hback, hframe⟩

/-! ### Counted FETCHes -/

/-- A message counted on its link, up to the last count. -/
theorem linkError_link (w : Work) (b c : Slot) : (linkError w b).st.link c =
    if c = b then { w.st.link b with errors := max (w.st.link b).errors (min 65535 ((w.st.link b).errors + 1)) } else w.st.link c := by
  by_cases h : (w.st.link b).errors < 65535
  · have hmax : max (w.st.link b).errors (min 65535 ((w.st.link b).errors + 1)) = (w.st.link b).errors + 1 := by omega
    rw [linkError_st h, hmax]
    exact State.link_setLink _ _ _ _
  · have hmax : max (w.st.link b).errors (min 65535 ((w.st.link b).errors + 1)) = (w.st.link b).errors := by omega
    rw [linkError_full (by omega), hmax]
    split
    · next e => rw [e]
    · rfl

theorem linkError_moved (w : Work) (b : Slot) :
    TmcMoved ((w.st.setBlc (linkError w b).st.blc).setPau (linkError w b).st.pau) (linkError w b).st := by
  by_cases h : (w.st.link b).errors < 65535
  · rw [linkError_st h]
    exact .refl _
  · rw [linkError_full (by omega)]
    exact .refl _

/-- The count behind a keepalive. -/
theorem aliveError_left {v : Work} (o : State) (hst : v.st = s.setLink b ((s.link b).alive s.now))
    (hlink : ∀ c, c ≠ b → w.st.link c = (linkError v b).st.link c)
    (hmoved : TmcMoved ((linkError v b).st.setBlc w.st.blc) w.st)
    (hkept : LinkKept ((linkError v b).st.link b) (w.st.link b)) :
    ((publish o w).link b).errors = max (s.link b).errors (min 65535 ((s.link b).errors + 1)) ∧
      ((publish o w).link b).fetches = (s.link b).fetches ∧
      ((s.link b).state = .up → ((publish o w).link b).keepAt = some (s.now + sec 2)) ∧
      (∀ c, c ≠ b → (publish o w).link c = s.link c) ∧ backgroundKept s (publish o w) ∧ publish o w = { s with
        tmc := (publish o w).tmc, swq := (publish o w).swq, blc := (publish o w).blc, pau := (publish o w).pau, evu := (publish o w).evu } := by
  have hv : v.st.link b = (s.link b).alive s.now := by rw [hst, State.link_setLink, if_pos rfl]
  obtain ⟨-, hfetches, -, -, herrors⟩ := Link.alive_fields (s.link b) s.now
  rw [linkError_link, if_pos rfl, hv, herrors] at hkept
  refine ⟨hkept.errors, hkept.fetches.trans hfetches, fun hup => ?_, fun c hc => ?_, ?_⟩
  · rw [publish_link, hkept.keepAt, Link.alive_of_up hup]
  · rw [publish_link, hlink c hc, linkError_link, if_neg hc, hst, State.link_setLink, if_neg hc]
  · have hcount := linkError_moved v b
    rw [hst] at hcount
    generalize (linkError v b).st = e at hmoved hcount
    have hall : TmcMoved ((s.setBlc w.st.blc).setPau w.st.pau) w.st := by
      refine ⟨hmoved.mem.trans hcount.mem, hmoved.marks.trans hcount.marks, ?_⟩
      have h1 := hmoved.rest
      have h2 := hcount.rest
      rw [h2] at h1
      rw [congrArg State.pau h1]
      exact h1
    exact hall.linkBladeFrame o

/-- A refused FETCH on an UP link. -/
theorem fetchAnswered_up {l : Link} {tag : FetchTag} {d : FetchData} {f : FetchSlot} {o : State}
    (h : (∀ c, c ≠ b → (publish o w).link c = s.link c) ∧ LinkKept ({ l with keepAt := some (s.now + sec 2) }.holding tag f) ((publish o w).link b) ∧
      ((publish o w).link b).holdsData d ∧ TmcMoved (s.setBlc w.st.blc) w.st) :
    ((publish o w).link b).keepAt = some (s.now + sec 2) ∧ ((publish o w).link b).errors = l.errors ∧ ((publish o w).link b).holdsData d ∧
      (publish o w).ziu = s.ziu ∧ backgroundKept s (publish o w) ∧ publish o w = { s with
        tmc := (publish o w).tmc, swq := (publish o w).swq, ziu := (publish o w).ziu, blc := (publish o w).blc, evu := (publish o w).evu } := by
  obtain ⟨-, hkept, hholds, hmoved⟩ := h
  obtain ⟨hback, hframe⟩ := hmoved.linkFrame o
  have hziu := congrArg State.ziu hframe
  refine ⟨hkept.keepAt, hkept.errors, hholds, hziu, hback, ?_⟩
  rw [hziu]
  exact hframe

/-- Settles O35: by the link's state, its window and its tag. -/
theorem fetchBindsToTheLiveBank : Obligations.FetchBindsToTheLiveBank := by
  refine ⟨fun b tag first count s hup hfree => ?_, fun b tag first count s hwaits hfree => ?_, fun b tag first count s hstate hfull => ?_,
    fun b tag first count s hstate hroom hused => ?_, fun b tag first count s hstate => ?_⟩
  · refine exec_fetch (.inr hup) fun w hst _ => ?_
    rw [Link.alive_of_up hup] at hst
    have hpbu : w.st.pbu = s.pbu := by rw [hst]; rfl
    obtain ⟨hhold, hrange, hbound⟩ := fetchRefusal_up (s := w.st) (b := b) (by rw [hst, State.link_setLink, if_pos rfl]; exact hup)
      first.toNat count.toNat
    rw [hpbu] at hhold hrange hbound
    have hrefused := fun st h => fetchRefused_left (first := first.toNat) (count := count.toNat) (st := st) s hst hfree h
    by_cases h1 : s.pbu.hold = true
    · obtain ⟨hkeep, herrors, hholds, hziu, hrest⟩ := fetchAnswered_up (hrefused _ (hhold h1))
      exact ⟨hkeep, herrors, fun h => absurd (h1.symm.trans h) (by decide), fun _ => ⟨hholds, hziu⟩, fun h => absurd (h1.symm.trans h) (by decide),
        hrest⟩
    · have h1 : s.pbu.hold = false := by simpa using h1
      by_cases h2 : count.toNat = 0 ∨ 4 < count.toNat ∨ first.toNat = 0 ∨ 4096 < first.toNat + count.toNat
      · obtain ⟨hkeep, herrors, hholds, hziu, hrest⟩ := fetchAnswered_up (hrefused _ (hrange h1 h2))
        exact ⟨hkeep, herrors, fun _ _ _ _ _ => by omega, fun h => absurd (h1.symm.trans h) (by decide), fun _ _ => ⟨hholds, hziu⟩, hrest⟩
      · obtain ⟨hlink, hziu, hasked, hrest⟩ := fetchBound_left s hst hfree (hbound h1 h2)
        refine ⟨by rw [hlink]; rfl, by rw [hlink]; rfl, fun _ _ _ _ _ => ⟨?_, hziu, hasked⟩, fun h => absurd (h1.symm.trans h) (by decide),
          fun _ h => absurd h h2, hrest⟩
        rw [hlink]
        exact (Vector.get_put _ _ _ _).trans (if_pos rfl)
  · refine exec_fetch (.inl hwaits) fun w hst _ => ?_
    rw [Link.alive_of_waits hwaits] at hst
    have hrefusal : fetchRefusal w.st b first.toNat count.toNat = some .notReady := by
      refine if_pos ?_
      rw [hst, State.link_setLink, if_pos rfl]
      intro h
      rw [h] at hwaits
      cases hwaits
    obtain ⟨hothers, hkept, hholds, hmoved⟩ := fetchRefused_left (tag := tag) s hst hfree hrefusal
    exact ⟨hholds, hkept.fetches, hkept.errors, hkept.keepAt, hothers, hmoved.linkFrame s⟩
  · refine exec_fetch hstate fun w hst _ => ?_
    have hlink : w.st.link b = (s.link b).alive s.now := by rw [hst, State.link_setLink, if_pos rfl]
    obtain ⟨-, hfetches, hready, hsending, -⟩ := Link.alive_fields (s.link b) s.now
    have hwindow : (w.st.link b).windowFull = true := (windowFull_iff _).2 (by rw [hlink, hfetches]; exact hfull)
    have hwaits : (w.st.link b).overrunWaits tag = true ↔ ∃ d ∈ (s.link b).ready, d.tag = tag ∧ d.status = .overrun := by
      rw [overrunWaits_iff, hlink, hready]
    have hepoch : (linkError w b).st.ziu.epoch = s.ziu.epoch := by rw [(linkError_moved w b).rest, hst]; rfl
    have herror := linkError_link w b b
    rw [if_pos rfl, hlink] at herror
    unfold fetchTaken
    dsimp only
    rw [if_pos hwindow]
    by_cases hover : (w.st.link b).overrunWaits tag = true
    · rw [if_pos hover]
      obtain ⟨herrors, hkept, hkeep, hothers, hrest⟩ := aliveError_left s hst (fun _ _ => rfl) (.refl _) (.refl _)
      refine ⟨herrors, hkept, fun h => ?_, fun _ => ?_, hkeep, hothers, hrest⟩
      · obtain ⟨d, hd, htag, hstatus⟩ := hwaits.1 hover
        exact absurd hstatus (h d hd htag)
      · rw [publish_link, herror]
        exact ⟨hready, hsending⟩
    · rw [if_neg hover]
      have hlinks := queueData_link (linkError w b).st b
      obtain ⟨herrors, hkept, hkeep, hothers, hrest⟩ := aliveError_left
        (w := (linkError w b).map (fun s => queueData s b ⟨tag, s.ziu.epoch, .overrun, []⟩)) s hst
        (fun c hc => (queueData_link _ _ _ _).trans (if_neg hc)) ⟨rfl, rfl, rfl⟩ (by
          rw [Work.map_st, queueData_link, if_pos rfl]
          have hpump := Link.pump_kept { (linkError w b).st.link b with
            ready := ((linkError w b).st.link b).ready ++ [⟨tag, (linkError w b).st.ziu.epoch, .overrun, []⟩] }
          exact ⟨hpump.1, hpump.2, hpump.3, hpump.4, hpump.5, hpump.6, hpump.7, hpump.8⟩)
      refine ⟨herrors, hkept, fun _ => ?_, fun h => absurd (hwaits.2 h) hover, hkeep, hothers, hrest⟩
      have hholds := queueData_holdsData (linkError w b).st b ⟨tag, (linkError w b).st.ziu.epoch, .overrun, []⟩
      rw [hepoch] at hholds
      rw [publish_link, Work.map_st, hepoch]
      exact hholds
  · refine exec_fetch hstate fun w hst hevents => ?_
    have hlink : w.st.link b = (s.link b).alive s.now := by rw [hst, State.link_setLink, if_pos rfl]
    obtain ⟨-, hfetches, hready, hsending, -⟩ := Link.alive_fields (s.link b) s.now
    have hwindow : ¬(w.st.link b).windowFull = true := by
      rw [windowFull_iff, hlink, hfetches]
      obtain ⟨k, hk⟩ := hroom
      exact fun h => h k hk
    have hsome : ((w.st.link b).fetches.get tag).isSome = true := by
      rw [hlink, hfetches]
      exact Option.isSome_iff_ne_none.2 hused
    have herror := linkError_link w b b
    rw [if_pos rfl, hlink] at herror
    have hfault : fetchTaken w b tag first.toNat count.toNat = (linkError w b).raiseDirect (linkEvent b .fetchTagReuse 2 tag.1) := by
      unfold fetchTaken
      dsimp only
      rw [if_neg hwindow, if_pos hsome]
      rfl
    rw [hfault]
    obtain ⟨herrors, hkept, hkeep, hothers, hrest⟩ := aliveError_left
      (w := (linkError w b).raiseDirect (linkEvent b .fetchTagReuse 2 tag.1)) s hst (fun _ _ => rfl) (.refl _) (.refl _)
    have hmoved := linkError_moved w b
    have hevu : (linkError w b).st.evu = s.evu := by rw [hmoved.rest, hst]; rfl
    have hplu : (linkError w b).st.plu = s.plu := by rw [hmoved.rest, hst]; rfl
    have htime : (linkError w b).st.timestamp = s.timestamp := by
      unfold State.timestamp
      rw [hmoved.rest, hst]
      rfl
    refine ⟨herrors, hkept, ?_, ?_, hkeep, hothers, fun hpart hplace => ?_, hrest⟩
    · rw [publish_link, Work.raiseDirect_st, herror]
      exact hready
    · rw [publish_link, Work.raiseDirect_st, herror]
      exact hsending
    · have hone := publish_one_event (w := (linkError w b).raiseDirect (linkEvent b .fetchTagReuse 2 tag.1)) s
        (e := linkEvent b .fetchTagReuse 2 tag.1) (by
          show (linkError w b).events ++ _ = _
          rw [linkError_events, hevents]
          rfl) (by rw [Work.raiseDirect_st, hplu]; exact hpart) (by rw [Work.raiseDirect_st, hevu]; exact hplace)
      rw [Work.raiseDirect_st, hevu, htime] at hone
      exact hone
  · have hc : ((s.link b).state.waits || s.linkUp b) = false := by
      unfold State.linkUp
      rcases hstate with h | h <;> (rw [h]; rfl)
    show takeFetch b tag first count s = _
    exact act_of_not s _ hc

end Sys2Proof.Machine
end

section
/-! PROOFS. HELLO: accepted, refused, or on a link that is UP. -/

set_option Elab.async false

namespace Sys2Proof.Machine

variable {r s t u : State} {w : Work} {b : Slot}

/-- The link that an accepted HELLO makes. -/
def Link.greeted (l : Link) (now ports : Nat) : Link :=
  { l with state := .up, helloAt := none, portCount := some ports, keepAt := some (now + sec 2), dataRun := 0 }

/-- The blade that an accepted HELLO makes. -/
def Blade.greeted (x : Blade) (ports base : Nat) : Blade :=
  { x with state := .up, portCount := some ports, cause := .none, base := min 8000 base, powerEn := true }

theorem clampNat_low (n x : Nat) : clampNat 0 n x = min n x := by
  unfold clampNat
  omega

theorem bladeUp_st (w : Work) (b : Slot) (ports base : Nat) :
    (bladeUp w b ports base).st = w.st.setBlade b ((w.st.blade b).greeted ports base) := by
  have hmove := moveBlade_st w b { w.st.blade b with state := .up, portCount := some ports, cause := .none, base := clampNat 0 8000 base }
  have hgreeted : (w.st.blade b).greeted ports base =
      { w.st.blade b with state := .up, portCount := some ports, cause := .none, base := clampNat 0 8000 base, powerEn := true } := by
    rw [clampNat_low]
    rfl
  rw [hgreeted]
  unfold bladeUp
  dsimp only
  split
  · exact hmove
  · exact hmove

theorem sendWelcome_link (s : State) (b c : Slot) :
    (sendWelcome s b).link c = if c = b then ({ s.link b with welcome := some s.ziu.epoch } : Link).pump else s.link c := by
  unfold sendWelcome pumpLink
  rw [State.link_setLink, State.link_setLink, if_pos rfl, State.link_setLink]
  split <;> rfl

theorem sendWelcome_admits (s : State) (b : Slot) : Admits s (sendWelcome s b) := (admits_setLink _ _ _).trans (admits_setLink _ _ _)

/-- What an accepted HELLO makes of the link, the blade and all else. -/
theorem helloAccepted_left (w : Work) (b : Slot) (ports base : Nat) :
    Admits w.st (helloAccepted w b ports base).st ∧ (∀ q, PortKept (w.st.port q) ((helloAccepted w b ports base).st.port q)) ∧
    LinkKept ((w.st.link b).greeted w.st.now ports) ((helloAccepted w b ports base).st.link b) ∧
    (helloAccepted w b ports base).st.blade b = (w.st.blade b).greeted ports base ∧
    (∀ c, c ≠ b → (w.st.blade c).state ≠ .waitPower → (helloAccepted w b ports base).st.blade c = w.st.blade c) := by
  have hsettled : Settled ((sendWelcome (w.st.setLink b ((w.st.link b).greeted w.st.now ports)) b).setBlade b ((w.st.blade b).greeted ports base))
      (helloAccepted w b ports base).st := by
    refine settled_settle (settled_reconcile (settled_budgetStep _ ?_) b)
    have h := bladeUp_st ((w.setLink b ((w.st.link b).greeted w.st.now ports)).map (fun s => sendWelcome s b)) b ports base
    refine Eq.subst (motive := fun x => Settled _ x) h.symm (.refl _)
  generalize helloAccepted w b ports base = v at hsettled ⊢
  refine ⟨?_, fun q => hsettled.port q, ?_, ?_, fun c hc hs => ?_⟩
  · exact ((((admits_setLink w.st b _).trans (sendWelcome_admits _ b)).trans (admits_setBlade _ b _)).trans hsettled.admits)
  · refine LinkKept.trans ?_ (hsettled.link b (by rw [State.blade_setBlade, if_pos rfl]; exact nofun))
    rw [State.link_setBlade, sendWelcome_link, if_pos rfl, State.link_setLink, if_pos rfl]
    have h := Link.pump_kept ({ (w.st.link b).greeted w.st.now ports with
      welcome := some (w.st.setLink b ((w.st.link b).greeted w.st.now ports)).ziu.epoch } : Link)
    exact ⟨h.1, h.2, h.3, h.4, h.5, h.6, h.7, h.8⟩
  · rw [hsettled.blade b (by rw [State.blade_setBlade, if_pos rfl]; exact nofun), State.blade_setBlade, if_pos rfl]
  · have hblade : ((sendWelcome (w.st.setLink b ((w.st.link b).greeted w.st.now ports)) b).setBlade b ((w.st.blade b).greeted ports base)).blade c =
        w.st.blade c := by
      rw [State.blade_setBlade, if_neg hc]
      rfl
    rw [hsettled.blade c (by rw [hblade]; exact hs), hblade]

/-- The checks of a HELLO. -/
theorem helloRefused_iff (b : Slot) (hdrSlot rev bodySlot ports : Byte) : helloRefused b hdrSlot.toNat rev.toNat bodySlot.toNat ports.toNat = true ↔
    ¬(rev = 1#8 ∧ hdrSlot.toNat = b.1 ∧ bodySlot.toNat = b.1 ∧ (ports = 24#8 ∨ ports = 32#8 ∨ ports = 48#8)) := by
  have hval : ∀ (x : Byte) (n : Nat), n < 256 → (x = BitVec.ofNat 8 n ↔ x.toNat = n) := fun x n hn => by
    rw [BitVec.toNat_eq, BitVec.toNat_ofNat, Nat.mod_eq_of_lt (by simpa using hn)]
  have h1 := hval rev 1 (by decide)
  have h24 := hval ports 24 (by decide)
  have h32 := hval ports 32 (by decide)
  have h48 := hval ports 48 (by decide)
  rw [h1, h24, h32, h48]
  unfold helloRefused
  simp only [Bool.or_eq_true, decide_eq_true_eq, Bool.not_eq_true', Bool.or_eq_false_iff, decide_eq_false_iff_not]
  omega

/-- A HELLO on a link that waits. -/
theorem exec_hello {hdrSlot hdrTag rev bodySlot ports : Byte} {base : BitVec 16} (h : (s.link b).state.waits = true) :
    exec (.hello b hdrSlot hdrTag rev bodySlot ports base) s =
      if helloRefused b hdrSlot.toNat rev.toNat bodySlot.toNat ports.toNat then finish s (linkFault (Work.start s) b .badHello 1 hdrTag.toNat)
      else finish s (helloAccepted (Work.start s) b ports.toNat base.toNat) := by
  show takeHello b hdrSlot hdrTag rev bodySlot ports base s = _
  unfold takeHello
  generalize (s.link b).state = st at h
  cases st
  case down => cases h
  case lost => cases h
  case up => cases h
  all_goals rfl

/-- What is left where a WELCOME is queued on a link that is UP. -/
theorem sendWelcome_left (s : State) (b : Slot) (hup : (s.link b).state = .up) :
    (((sendWelcome s b).link b).welcome = some s.ziu.epoch ∨ ((sendWelcome s b).link b).sending = some ⟨.welcome s.ziu.epoch, true⟩) ∧
    ((sendWelcome s b).link b).keepAt = (s.link b).keepAt := by
  have hkept := Link.pump_kept ({ s.link b with welcome := some s.ziu.epoch } : Link)
  rw [sendWelcome_link, if_pos rfl]
  refine ⟨?_, hkept.keepAt⟩
  cases hbusy : (s.link b).sending with
  | some m =>
    refine .inl ?_
    unfold Link.pump
    rw [if_pos (by rw [hbusy]; rfl)]
  | none => exact .inr (pump_welcome (l := { s.link b with welcome := some s.ziu.epoch }) hbusy (by rw [hup]; rfl) rfl).1

/-- Settles O34: on a waiting link the checks decide; on an UP link a WELCOME is queued. -/
theorem helloMakesTheLinkUp : Obligations.HelloMakesTheLinkUp := by
  intro b hdrSlot hdrTag rev bodySlot ports base s
  refine ⟨fun hwaits hrev hslot hbody hports => ?_, fun hwaits hbad herrors => ?_, fun hup => ?_⟩
  · have hgood : ¬helloRefused b hdrSlot.toNat rev.toNat bodySlot.toNat ports.toNat = true := by
      rw [helloRefused_iff]
      exact fun h => h ⟨hrev, hslot, hbody, hports⟩
    rw [exec_hello hwaits, if_neg hgood]
    refine finished ?_
    obtain ⟨hadmits, hkept, hlink, hblade, hothers⟩ := helloAccepted_left (Work.start s) b ports.toNat base.toNat
    generalize helloAccepted (Work.start s) b ports.toNat base.toNat = w at hadmits hkept hlink hblade hothers ⊢
    have hb : (publish s w).blade b = (s.blade b).greeted ports.toNat base.toNat := hblade
    rw [hb]
    exact ⟨hlink.state, hlink.portCount, hlink.keepAt, hlink.helloAt, rfl, rfl, rfl, rfl, rfl, fun q => (hkept q).asks, hothers, hadmits.frame s⟩
  · rw [exec_hello hwaits, if_pos ((helloRefused_iff ..).2 hbad)]
    refine finished ?_
    obtain ⟨hlink, -, hblade, hback, hframe⟩ := counted_left (b := b) (s := s) (w := linkFault (Work.start s) b .badHello 1 hdrTag.toNat) s
      (linkError_st herrors)
    exact ⟨hlink, hblade, hback, hframe⟩
  · have hexec : exec (.hello b hdrSlot hdrTag rev bodySlot ports base) s = finish s ((Work.start s).map (fun s => sendWelcome s b)) := by
      show takeHello b hdrSlot hdrTag rev bodySlot ports base s = _
      unfold takeHello
      rw [hup]
    rw [hexec]
    refine finished ?_
    generalize hw : Work.map _ _ = w
    have hst : w.st = sendWelcome s b := by rw [← hw]; rfl
    obtain ⟨hwelcome, hkeep⟩ := sendWelcome_left s b hup
    have hmoved : TmcMoved (s.setBlc w.st.blc) w.st := by
      rw [hst]
      exact .refl _
    obtain ⟨hback, hframe⟩ := hmoved.linkFrame s
    rw [← hst] at hwelcome hkeep
    exact ⟨hwelcome, hkeep, hback, hframe⟩

end Sys2Proof.Machine
end

section
/-! PROOFS. The budget computation: the figures, the supply by its redundancy mode, and the shed selection in its order. -/

set_option Elab.async false

namespace Sys2Proof.Machine

variable {r s t u : State} {w : Work} {p q : PortRef} {x : Port}

/-! ### Sums over the ports -/

theorem foldl_add_eq {α : Type} (f : α → Nat) (l : List α) : l.foldl (fun acc x => acc + f x) 0 = (l.map f).sum := by
  rw [List.sum_eq_foldl, List.foldl_map]

theorem sum_set {α : Type} (f : α → Nat) (x : α) : ∀ (l : List α) (i : Nat) (h : i < l.length),
    ((l.set i x).map f).sum + f l[i] = (l.map f).sum + f x
  | y :: l, 0, _ => by
    simp only [List.set_cons_zero, List.map_cons, List.sum_cons, List.getElem_cons_zero]
    omega
  | y :: l, i + 1, h => by
    have ih := sum_set f x l i (by simpa using h)
    simp only [List.set_cons_succ, List.map_cons, List.sum_cons, List.getElem_cons_succ]
    omega

theorem sum_put {α : Type} {n : Nat} (f : α → Nat) (v : Vector α n) (i : Fin n) (x : α) :
    (Vector.put v i x).toList.foldl (fun acc x => acc + f x) 0 + f (v.get i) = v.toList.foldl (fun acc x => acc + f x) 0 + f x := by
  have h := sum_set f x v.toList i.1 (by rw [Vector.length_toList]; exact i.2)
  rw [foldl_add_eq, foldl_add_eq]
  unfold Vector.put
  rw [Vector.toList_set]
  rw [Vector.getElem_toList] at h
  exact h

/-- What the change of one port does to a sum over all ports. -/
theorem sumAll_setPort (s : State) (p : PortRef) (x : Port) (f : Port → Nat) :
    (s.setPort p x).sumAll f + f (s.port p) = s.sumAll f + f x := by
  have hslot := sum_put f (s.pau.ports.get p.slot) p.port x
  have hall := sum_put (fun v => sumPorts v f) s.pau.ports p.slot (Vector.put (s.pau.ports.get p.slot) p.port x)
  have hsum : (s.setPort p x).sumAll f + sumPorts (s.pau.ports.get p.slot) f =
      s.sumAll f + sumPorts (Vector.put (s.pau.ports.get p.slot) p.port x) f := hall
  have hport : sumPorts (Vector.put (s.pau.ports.get p.slot) p.port x) f + f (s.port p) = sumPorts (s.pau.ports.get p.slot) f + f x := hslot
  omega

/-! ### The figures -/

theorem computeFigures_eq (s : State) : computeFigures s = { s.pbu with
    supply := s.supplyOf.1
    reserved := s.supplyOf.1 * (100 - s.plu.inUse.reserve) / 100
    ceiling := s.plu.inUse.thermalBase * s.pbu.derate / 100
    available := min (s.supplyOf.1 * (100 - s.plu.inUse.reserve) / 100) (s.plu.inUse.thermalBase * s.pbu.derate / 100)
    redundancyLost := s.supplyOf.2
    holdoffAt := if s.pbu.available < min (s.supplyOf.1 * (100 - s.plu.inUse.reserve) / 100) (s.plu.inUse.thermalBase * s.pbu.derate / 100)
      then some (s.now + sec s.plu.inUse.holdoff) else s.pbu.holdoffAt } := rfl

theorem usableOf_uncounted {i : Bay} (h : (s.pbu.psus.get i).counted = false) : s.usableOf i = 0 := by
  unfold State.usableOf usable
  rw [h]
  rfl

/-- The bays whose supply is counted. -/
def State.countedBays (s : State) : List Bay := (indices 4).filter (fun i => (s.pbu.psus.get i).counted)

theorem mem_countedBays (s : State) (i : Bay) : i ∈ s.countedBays ↔ (s.pbu.psus.get i).counted = true := by
  unfold State.countedBays
  rw [List.mem_filter]
  exact ⟨fun h => h.2, fun h => ⟨mem_indices i, h⟩⟩

theorem countedIn_indices (s : State) : s.countedIn (indices 4) = s.countedBays.length := rfl

/-- With one supply counted, the usable capacities add up to its own. -/
theorem usableSum_of_one {i : Bay} (h : ∀ j, (s.pbu.psus.get j).counted = true → j = i) : s.usableSum (indices 4) = s.usableOf i := by
  have hzero : ∀ j, j ≠ i → s.usableOf j = 0 := fun j hj => usableOf_uncounted (by
    cases hc : (s.pbu.psus.get j).counted with
    | true => exact absurd (h j hc) hj
    | false => rfl)
  have hsum : s.usableSum (indices 4) = 0 + s.usableOf 0 + s.usableOf 1 + s.usableOf 2 + s.usableOf 3 := rfl
  match i with
  | 0 => rw [hsum, hzero 1 (by decide), hzero 2 (by decide), hzero 3 (by decide)]; omega
  | 1 => rw [hsum, hzero 0 (by decide), hzero 2 (by decide), hzero 3 (by decide)]; omega
  | 2 => rw [hsum, hzero 0 (by decide), hzero 1 (by decide), hzero 3 (by decide)]; omega
  | 3 => rw [hsum, hzero 0 (by decide), hzero 1 (by decide), hzero 2 (by decide)]; omega

/-- Neither of two bays is counted. -/
theorem countedIn_pair (s : State) (i j : Bay) :
    s.countedIn [i, j] = 0 ↔ ¬(s.pbu.psus.get i).counted = true ∧ ¬(s.pbu.psus.get j).counted = true := by
  unfold State.countedIn
  rw [List.length_eq_zero_iff, List.filter_eq_nil_iff, List.forall_mem_cons, List.forall_mem_singleton]

/-- The number of counted supplies decides with none, with one and with more. -/
theorem countedIn_cases (s : State) :
    (s.countedIn (indices 4) = 0 ↔ ∀ i, ¬(s.pbu.psus.get i).counted = true) ∧
    (∀ i, (s.pbu.psus.get i).counted = true → (∀ j, (s.pbu.psus.get j).counted = true → j = i) → s.countedIn (indices 4) = 1) ∧
    (∀ i j, i ≠ j → (s.pbu.psus.get i).counted = true → (s.pbu.psus.get j).counted = true → 2 ≤ s.countedIn (indices 4)) := by
  have hnodup : s.countedBays.Nodup := (nodup_indices 4).filter _
  rw [countedIn_indices]
  simp only [← mem_countedBays]
  refine ⟨?_, fun i hi hone => ?_, fun i j hne hi hj => ?_⟩
  · rw [List.length_eq_zero_iff, List.eq_nil_iff_forall_not_mem]
  · have hperm : s.countedBays.Perm [i] := (List.perm_ext_iff_of_nodup hnodup (List.nodup_singleton i)).2 fun j =>
      ⟨fun hj => List.mem_singleton.2 (hone j hj), fun hj => List.mem_singleton.1 hj ▸ hi⟩
    exact hperm.length_eq
  · have hsub : [i, j] ⊆ s.countedBays := List.cons_subset.2 ⟨hi, List.cons_subset.2 ⟨hj, List.nil_subset _⟩⟩
    exact ((List.nodup_cons.2 ⟨by simpa using hne, List.nodup_singleton j⟩).subperm hsub).length_le

/-- The supply and its alarm, computed afresh, are those of the redundancy modes. -/
theorem supplyLaw_of (hsupply : t.pbu.supply = t.supplyOf.1) (hlost : t.pbu.redundancyLost = t.supplyOf.2) : supplyLaw t := by
  obtain ⟨hnone, hone, htwo⟩ := countedIn_cases t
  have hmax : t.usableMax = max (max (t.usableOf 0) (t.usableOf 1)) (max (t.usableOf 2) (t.usableOf 3)) := by
    show max (max (max (max 0 (t.usableOf 0)) (t.usableOf 1)) (t.usableOf 2)) (t.usableOf 3) = _
    omega
  have hall : t.usableSum (indices 4) = t.usableOf 0 + t.usableOf 1 + t.usableOf 2 + t.usableOf 3 := by
    show 0 + t.usableOf 0 + t.usableOf 1 + t.usableOf 2 + t.usableOf 3 = _
    omega
  have hpair : ∀ i j, t.usableSum [i, j] = t.usableOf i + t.usableOf j := fun i j => by
    show 0 + t.usableOf i + t.usableOf j = _
    omega
  unfold State.supplyOf at hsupply hlost
  refine ⟨fun h => ?_, fun ⟨k, hk⟩ => ?_⟩
  · rw [if_pos (hnone.2 h)] at hsupply hlost
    exact ⟨hsupply, hlost⟩
  · have hn : ¬t.countedIn (indices 4) = 0 := fun h => hnone.1 h k hk
    rw [if_neg hn] at hsupply hlost
    refine ⟨fun hmode => ?_, fun hmode => ⟨fun i hi honly => ?_, fun i j hne hi hj => ?_⟩, fun hmode => ?_⟩
    · rw [hmode] at hsupply hlost
      exact ⟨hsupply.trans hall, hlost⟩
    · rw [hmode] at hsupply hlost
      dsimp only at hsupply hlost
      rw [if_pos (hone i hi honly)] at hsupply hlost
      exact ⟨hsupply.trans (usableSum_of_one honly), hlost⟩
    · have hmany := htwo i j hne hi hj
      rw [hmode] at hsupply hlost
      dsimp only at hsupply hlost
      rw [if_neg (by omega)] at hsupply hlost
      refine ⟨hlost, ?_⟩
      rw [hsupply, hall, hmax]
    · rw [hmode] at hsupply hlost
      dsimp only at hsupply hlost
      simp only [countedIn_pair, hpair] at hsupply hlost
      refine ⟨fun hlow => ?_, fun hhigh => ?_, fun hboth => ?_⟩
      · rw [if_pos hlow] at hsupply hlost
        exact ⟨hsupply, hlost⟩
      · have hlow : ¬(¬(t.pbu.psus.get 0).counted = true ∧ ¬(t.pbu.psus.get 1).counted = true) := by
          rintro ⟨h0, h1⟩
          obtain ⟨h2, h3⟩ := hhigh
          match k with
          | 0 => exact h0 hk
          | 1 => exact h1 hk
          | 2 => exact h2 hk
          | 3 => exact h3 hk
        rw [if_neg hlow, if_pos hhigh] at hsupply hlost
        exact ⟨hsupply, hlost⟩
      · rw [if_neg fun h => hboth.1.elim h.1 h.2, if_neg fun h => hboth.2.elim h.1 h.2] at hsupply hlost
        exact ⟨hsupply, hlost⟩

/-! ### The shed order -/

theorem mem_portList_iff (s : State) (b : Slot) (e : PortRef × Port) : e ∈ s.portList b ↔ e.1.slot = b ∧ e.2 = s.port e.1 := by
  constructor
  · intro h
    refine ⟨?_, (mem_portList h).symm⟩
    have hzip := (List.of_mem_zip h).1
    obtain ⟨i, -, hi⟩ := List.mem_map.1 hzip
    rw [← hi]
  · rintro ⟨rfl, hport⟩
    obtain ⟨⟨b, i⟩, x⟩ := e
    unfold State.portList
    refine List.mem_iff_getElem.2 ⟨i.1, by simp [show (indices 48).length = 48 from rfl], ?_⟩
    have hfin : indices 48 = List.finRange 48 := by decide
    simp only [List.getElem_zip, List.getElem_map, hfin, List.getElem_finRange]
    exact Prod.ext rfl hport.symm

theorem portList_sorted (s : State) (b : Slot) : (s.portList b).Pairwise (fun e f => e.1.port < f.1.port) := by
  have hfst : (s.portList b).map (·.1) = (indices 48).map (fun i => ⟨b, i⟩) := by
    unfold State.portList
    exact List.map_fst_zip (by simp [show (indices 48).length = 48 from rfl])
  have hsorted : (indices 48).Pairwise (· < ·) := by decide
  rw [← List.pairwise_map (f := fun e : PortRef × Port => e.1) (R := fun p q : PortRef => p.port < q.port), hfst, List.pairwise_map]
  exact hsorted

theorem sheddable_iff (x : Port) : x.sheddable = true ↔ (x.state = .online ∨ x.state = .goingUp) ∧ x.leaving = .clear := by
  unfold Port.sheddable
  simp only [Bool.and_eq_true, Bool.or_eq_true, decide_eq_true_eq]

theorem mem_shedCandidates (s : State) (e : PortRef × Port) :
    e ∈ shedCandidates s none ↔ s.shedCandidate e.1 ∧ e.2 = s.port e.1 := by
  unfold shedCandidates State.shedCandidate
  rw [List.mem_flatMap]
  constructor
  · rintro ⟨b, -, he⟩
    split at he
    · next hup =>
      obtain ⟨hlist, hshed⟩ := List.mem_filter.1 he
      obtain ⟨rfl, hport⟩ := (mem_portList_iff s b e).1 (List.mem_reverse.1 hlist)
      rw [Bool.and_eq_true] at hup
      rw [hport] at hshed
      obtain ⟨hstate, hleaving⟩ := (sheddable_iff _).1 hshed
      exact ⟨⟨of_decide_eq_true hup.1, hstate, hleaving⟩, hport⟩
    · exact absurd he List.not_mem_nil
  · rintro ⟨⟨hup, hstate, hleaving⟩, hport⟩
    refine ⟨e.1.slot, List.mem_reverse.2 (mem_indices _), ?_⟩
    have hb : s.up e.1.slot = true := decide_eq_true hup
    rw [hb, if_pos (show (true && decide ((none : Option Slot) ≠ some e.1.slot)) = true from rfl)]
    refine List.mem_filter.2 ⟨List.mem_reverse.2 ((mem_portList_iff s _ e).2 ⟨rfl, hport⟩), ?_⟩
    rw [hport]
    exact (sheddable_iff _).2 ⟨hstate, hleaving⟩

/-- The candidates stand by slot descending, then by port descending. -/
theorem shedCandidates_sorted (s : State) : (shedCandidates s none).Pairwise
    (fun e f => f.1.slot < e.1.slot ∨ (e.1.slot = f.1.slot ∧ f.1.port < e.1.port)) := by
  have hslot : ∀ (b : Slot) (e : PortRef × Port),
      e ∈ (if s.up b && decide ((none : Option Slot) ≠ some b) then (s.portList b).reverse.filter (fun e => e.2.sheddable) else []) → e.1.slot = b := by
    intro b e he
    split at he
    · exact ((mem_portList_iff s b e).1 (List.mem_reverse.1 (List.mem_filter.1 he).1)).1
    · exact absurd he List.not_mem_nil
  have hsorted : (indices 8).Pairwise (· < ·) := by decide
  unfold shedCandidates
  refine List.pairwise_flatMap.2 ⟨fun b _ => ?_, (List.pairwise_reverse.2 hsorted).imp fun hlt e he f hf => ?_⟩
  · split
    · refine ((List.pairwise_reverse.2 (portList_sorted s b)).imp_of_mem fun he hf hlt => ?_).filter _
      obtain ⟨he, -⟩ := (mem_portList_iff s b _).1 (List.mem_reverse.1 he)
      obtain ⟨hf, -⟩ := (mem_portList_iff s b _).1 (List.mem_reverse.1 hf)
      exact .inr ⟨he.trans hf.symm, hlt⟩
    · exact .nil
  · rw [hslot _ e he, hslot _ f hf]
    exact .inl hlt

theorem mem_shedOrder (l : List (PortRef × Port)) (e : PortRef × Port) : e ∈ shedOrder l ↔ e ∈ l := by
  unfold shedOrder
  simp only [List.mem_flatMap, List.mem_filter, decide_eq_true_eq, mem_indices, true_and, exists_and_left, exists_eq', and_true]

/-- The candidates in shed order stand one before the other. -/
theorem shedOrder_sorted (s : State) : (shedOrder (shedCandidates s none)).Pairwise (fun e f => s.shedsBefore e.1 f.1) := by
  have hport : ∀ e ∈ shedCandidates s none, e.2 = s.port e.1 := fun e he => ((mem_shedCandidates s e).1 he).2
  have hsorted : (indices 8).Pairwise (· < ·) := by decide
  unfold shedOrder
  refine List.pairwise_flatMap.2 ⟨fun q _ => ?_, hsorted.imp fun hlt e he f hf => ?_⟩
  · refine List.Pairwise.imp_of_mem ?_ ((shedCandidates_sorted s).filter _)
    intro e f he hf h
    obtain ⟨hem, heq⟩ := List.mem_filter.1 he
    obtain ⟨hfm, hfq⟩ := List.mem_filter.1 hf
    rw [hport e hem, decide_eq_true_eq] at heq
    rw [hport f hfm, decide_eq_true_eq] at hfq
    exact .inr ⟨heq.trans hfq.symm, h⟩
  · obtain ⟨hem, heq⟩ := List.mem_filter.1 he
    obtain ⟨hfm, hfq⟩ := List.mem_filter.1 hf
    rw [hport e hem, decide_eq_true_eq] at heq
    rw [hport f hfm, decide_eq_true_eq] at hfq
    refine .inl ?_
    rw [heq, hfq]
    exact hlt

theorem shedsBefore_asymm (h : s.shedsBefore p q) : ¬s.shedsBefore q p := by
  unfold State.shedsBefore at h ⊢
  simp only [Fin.lt_def, Fin.ext_iff] at h ⊢
  omega

/-! ### The shed selection -/

/-- What a selection makes of a port. -/
def Port.shedOff (x : Port) : Port :=
  if x.state = .online then { x with state := .goingDown, cause := .power, leaving := .clear } else { x with leaving := .power }

theorem handOrder_rest (s : State) (b : Slot) (o : Order) : handOrder s b o = { s with blc := (handOrder s b o).blc } := by
  unfold handOrder pumpLink
  split <;> rfl

theorem toGoingDown_rest (w : Work) (p : PortRef) (c : PortCause) : (toGoingDown w p c).st =
    { w.st.setPort p { w.st.port p with state := .goingDown, cause := c, leaving := .clear } with blc := (toGoingDown w p c).st.blc } := by
  unfold toGoingDown
  dsimp only
  split
  · exact handOrder_rest _ _ _
  · rfl

/-- One selection. -/
theorem leavePort_rest (w : Work) (p : PortRef) (h : (w.st.port p).sheddable = true) : (leavePort w p .power).st =
    { w.st.setPort p (w.st.port p).shedOff with blc := (leavePort w p .power).st.blc } := by
  obtain ⟨hstate, -⟩ := (sheddable_iff _).1 h
  rcases hstate with hs | hs
  · have heq : leavePort w p .power = toGoingDown w p .power := by
      unfold leavePort
      rw [hs]
      rfl
    rw [heq, Port.shedOff, if_pos hs]
    exact toGoingDown_rest w p _
  · have heq : leavePort w p .power = w.setPort p { w.st.port p with leaving := .power } := by
      unfold leavePort
      rw [hs]
      rfl
    rw [heq, Port.shedOff, if_neg (by rw [hs]; nofun)]
    rfl

theorem leavePort_pau (w : Work) (p : PortRef) (h : (w.st.port p).sheddable = true) :
    (leavePort w p .power).st.pau = (w.st.setPort p (w.st.port p).shedOff).pau := by
  rw [leavePort_rest w p h]

theorem leavePort_plu (w : Work) (p : PortRef) (h : (w.st.port p).sheddable = true) : (leavePort w p .power).st.plu = w.st.plu := by
  rw [leavePort_rest w p h]
  rfl

theorem sheddable_draw (h : x.sheddable = true) : x.departing = false := by
  obtain ⟨hstate, hleaving⟩ := (sheddable_iff _).1 h
  unfold Port.departing
  rw [hleaving]
  rcases hstate with hs | hs <;> rw [hs] <;> rfl

theorem shedOff_departing (h : x.sheddable = true) : x.shedOff.departing = true := by
  obtain ⟨hstate, -⟩ := (sheddable_iff _).1 h
  unfold Port.departing Port.shedOff
  rcases hstate with hs | hs
  · rw [if_pos hs]
    rfl
  · rw [if_neg (by rw [hs]; nofun), Bool.or_eq_true]
    exact .inr rfl

/-- The projected draw of a state is that of its ports, of the charged base draws and of the tunables in use. -/
theorem projected_congr (hpau : t.pau = s.pau) (hplu : t.plu = s.plu) : t.projected = s.projected := by
  unfold State.projected State.baseDraw State.sumAll
  rw [hpau, hplu]

/-- A selection takes the port's draw off the projected draw. -/
theorem projected_leavePort (w : Work) (p : PortRef) (h : (w.st.port p).sheddable = true) :
    (leavePort w p .power).st.projected + (w.st.port p).draw w.st.plu.inUse = w.st.projected := by
  have hrest := leavePort_rest w p h
  have hsum := sumAll_setPort w.st p (w.st.port p).shedOff (fun x => if x.departing then 0 else x.draw w.st.plu.inUse)
  have hprojected : (leavePort w p .power).st.projected = (w.st.setPort p (w.st.port p).shedOff).projected :=
    projected_congr (leavePort_pau w p h) (leavePort_plu w p h)
  rw [sheddable_draw h, shedOff_departing h] at hsum
  rw [hprojected]
  show w.st.baseDraw + (w.st.setPort p (w.st.port p).shedOff).sumAll (fun x => if x.departing then 0 else x.draw w.st.plu.inUse) +
    (w.st.port p).draw w.st.plu.inUse = w.st.baseDraw + w.st.sumAll (fun x => if x.departing then 0 else x.draw w.st.plu.inUse)
  simp only [if_true, Bool.false_eq_true, if_false] at hsum
  omega

/-- What the selection of the first `k` of some candidates leaves, with the figure A. -/
structure ShedRun (a : Nat) (l : List (PortRef × Port)) (k : Nat) (s t : State) : Prop where
  le : k ≤ l.length
  rest : t = { s with blc := t.blc, pau := { s.pau with ports := t.pau.ports } }
  other : ∀ q, (∀ e ∈ l.take k, e.1 ≠ q) → t.port q = s.port q
  shed : ∀ e ∈ l.take k, t.port e.1 = e.2.shedOff
  stops : k = l.length ∨ t.projected ≤ a
  needed : ∀ e, (l.take k).getLast? = some e → a < t.projected + e.2.draw s.plu.inUse
  same : k = 0 → t = s

theorem selectShed_run (a : Nat) : ∀ (l : List (PortRef × Port)) (n : Nat) (w : Work), (l.map (·.1)).Nodup →
    (∀ e ∈ l, e.2 = w.st.port e.1 ∧ e.2.sheddable = true) →
    ∃ k, ShedRun a l k w.st (selectShed a l w.st.projected n w).1.st ∧
      (selectShed a l w.st.projected n w).2 = (n + k, (selectShed a l w.st.projected n w).1.st.projected)
  | [], n, w, _, _ => ⟨0, ⟨Nat.zero_le _, rfl, fun _ _ => rfl, fun _ h => (nomatch h), .inl rfl, fun _ h => (nomatch h), fun _ => rfl⟩, rfl⟩
  | (p, x) :: l, n, w, hnodup, hl => by
    obtain ⟨hx, hshed⟩ := hl (p, x) List.mem_cons_self
    obtain ⟨hp, htail⟩ := List.nodup_cons.1 hnodup
    dsimp only at hx hshed hp
    subst hx
    unfold selectShed
    split
    · next hle => exact ⟨0, ⟨Nat.zero_le _, rfl, fun _ _ => rfl, fun _ h => (nomatch h), .inr hle, fun _ h => (nomatch h), fun _ => rfl⟩, rfl⟩
    · next hgt =>
      have hprojected := projected_leavePort w p hshed
      have hrest := leavePort_rest w p hshed
      have hport : ∀ q, (leavePort w p .power).st.port q = if q = p then (w.st.port p).shedOff else w.st.port q := fun q => by
        rw [hrest]
        exact State.port_setPort _ _ _ _
      have hne : ∀ e ∈ l, e.1 ≠ p := fun e he h => hp (List.mem_map.2 ⟨e, he, h⟩)
      have ih := selectShed_run a l (n + 1) (leavePort w p .power) htail fun e he => by
        rw [hport, if_neg (hne e he)]
        exact hl e (List.mem_cons_of_mem _ he)
      have hsub : w.st.projected - (w.st.port p).draw w.st.plu.inUse = (leavePort w p .power).st.projected := by omega
      rw [hsub]
      obtain ⟨k, hrun, hcount⟩ := ih
      generalize selectShed a l (leavePort w p .power).st.projected (n + 1) (leavePort w p .power) = r at hrun hcount ⊢
      refine ⟨k + 1, ⟨Nat.succ_le_succ hrun.le, ?_, fun q hq => ?_, fun e he => ?_, ?_, fun e he => ?_, nofun⟩, by rw [hcount, Nat.add_right_comm]; rfl⟩
      · have h := hrun.rest
        rw [hrest] at h
        exact h
      · rw [List.take_succ_cons, List.forall_mem_cons] at hq
        rw [hrun.other q hq.2, hport, if_neg (Ne.symm hq.1)]
      · rw [List.take_succ_cons, List.mem_cons] at he
        rcases he with rfl | he
        · rw [hrun.other p fun e he => hne e (List.mem_of_mem_take he), hport, if_pos rfl]
        · exact hrun.shed e he
      · exact hrun.stops.imp (fun h => by rw [h]; rfl) id
      · have hinUse := leavePort_plu w p hshed
        have hneeded := hrun.needed
        rw [hinUse] at hneeded
        rw [List.take_succ_cons, List.getLast?_cons] at he
        cases hlast : (l.take k).getLast? with
        | some f =>
          rw [hlast] at he
          exact Option.some.inj he ▸ hneeded f hlast
        | none =>
          rw [hlast] at he
          obtain rfl := Option.some.inj he
          have hk : k = 0 := by
            have hle := hrun.le
            have hlength := congrArg List.length (List.getLast?_eq_none_iff.1 hlast)
            rw [List.length_take, List.length_nil] at hlength
            omega
          rw [hrun.same hk]
          show a < _ + (w.st.port p).draw w.st.plu.inUse
          omega

/-- A selection of the first candidates in shed order is the shed selection of R139. -/
theorem ShedRun.law {a k : Nat} (h : ShedRun a (shedOrder (shedCandidates s none)) k s u) (hpau : t.pau = u.pau) (hplu : t.plu = u.plu)
    (ha : t.pbu.available = a) (hcritical : t.pbu.powerCritical = decide (a < u.projected)) (hfits : s.projected ≤ a → k = 0) :
    shedLaw s t := by
  have hprojected : t.projected = u.projected := projected_congr hpau hplu
  have hport : ∀ q, t.port q = u.port q := fun q => by
    unfold State.port
    rw [hpau]
  have hsorted := shedOrder_sorted s
  have hmem : ∀ e, e ∈ shedOrder (shedCandidates s none) ↔ s.shedCandidate e.1 ∧ e.2 = s.port e.1 := fun e =>
    (mem_shedOrder _ e).trans (mem_shedCandidates s e)
  generalize shedOrder (shedCandidates s none) = l at h hsorted hmem
  have hcandidate : ∀ q, s.shedCandidate q → (s.port q).sheddable = true := fun q hq => (sheddable_iff _).2 hq.2
  have hchosen : ∀ q, s.shedCandidate q → (t.port q).departing = true → (q, s.port q) ∈ l.take k := fun q hq hdeparting => by
    by_contra hnot
    have hsame := h.other q fun e he hqe => hnot (by
      obtain ⟨-, hx⟩ := (hmem e).1 (List.mem_of_mem_take he)
      rw [← hqe, ← hx]
      exact he)
    rw [hport, hsame, sheddable_draw (hcandidate q hq)] at hdeparting
    cases hdeparting
  have hoff : ∀ q, (q, s.port q) ∈ l.take k → t.port q = (s.port q).shedOff := fun q hq => by
    rw [hport]
    exact h.shed _ hq
  have hgone : ∀ q, s.shedCandidate q → (q, s.port q) ∈ l.take k → (t.port q).departing = true := fun q hq hin => by
    rw [hoff q hin]
    exact shedOff_departing (hcandidate q hq)
  have hdone : ∀ q, (∀ e ∈ l.take k, e.1 ≠ q) → t.port q = s.port q := fun q hq => (hport q).trans (h.other q hq)
  refine ⟨by rw [hcritical, ha, hprojected, decide_eq_true_iff], fun hle => ?_, fun q hq => hdone q fun e he hqe => ?_, fun q hq => ?_,
    fun p q hp hq hbefore hdeparting => ?_, ?_, fun q hq hdeparting hlast => ?_⟩
  · rw [hpau, h.same (hfits (ha ▸ hle))]
  · exact hq (hqe ▸ ((hmem e).1 (List.mem_of_mem_take he)).1)
  · by_cases hin : (q, s.port q) ∈ l.take k
    · obtain ⟨-, hstate, hleaving⟩ := hq
      have heq := hoff q hin
      unfold Port.shedOff at heq
      rcases hstate with hs | hs
      · rw [if_pos hs] at heq
        rw [heq]
        exact .inr (.inl ⟨hs, rfl, rfl, rfl⟩)
      · rw [if_neg (by rw [hs]; nofun)] at heq
        exact .inr (.inr ⟨hs, heq⟩)
    · refine .inl (hdone q fun e he hqe => hin ?_)
      obtain ⟨-, hx⟩ := (hmem e).1 (List.mem_of_mem_take he)
      rw [← hqe, ← hx]
      exact he
  · refine hgone p hp ?_
    by_contra hnot
    have hin := hchosen q hq hdeparting
    have hdrop : (p, s.port p) ∈ l.drop k := by
      have hall := (hmem (p, s.port p)).2 ⟨hp, rfl⟩
      rw [← List.take_append_drop k l, List.mem_append] at hall
      exact hall.resolve_left hnot
    rw [← List.take_append_drop k l] at hsorted
    exact shedsBefore_asymm hbefore ((List.pairwise_append.1 hsorted).2.2 _ hin _ hdrop)
  · refine h.stops.symm.imp (fun hle => ?_) (fun hk q hq => hgone q hq ?_)
    · rw [hprojected, ha]
      exact hle
    · rw [hk, List.take_length]
      exact (hmem _).2 ⟨hq, rfl⟩
  · have hin := hchosen q hq hdeparting
    rw [ha, hprojected]
    refine h.needed (q, s.port q) ?_
    obtain ⟨l1, l2, hsplit⟩ := List.append_of_mem hin
    have hl2 : l2 = [] := by
      cases l2 with
      | nil => rfl
      | cons e l2 =>
        have he : e ∈ l.take k := by
          rw [hsplit]
          simp
        obtain ⟨hcand, hx⟩ := (hmem e).1 (List.mem_of_mem_take he)
        have hbefore : s.shedsBefore q e.1 := by
          have hpair := hsorted.sublist (List.take_sublist k l)
          rw [hsplit] at hpair
          exact (List.pairwise_cons.1 (List.pairwise_append.1 hpair).2.1).1 e List.mem_cons_self
        have hfalse := hlast e.1 hcand hbefore
        rw [hgone e.1 hcand (by rw [← hx]; exact he)] at hfalse
        cases hfalse
    rw [hsplit, hl2, List.getLast?_append]
    rfl

/-! ### The computation -/

theorem setCritical_st (w : Work) (c : Bool) : (setCritical w c).st = w.st.setPbu { w.st.pbu with powerCritical := c } := by
  unfold setCritical
  split
  · next h => rw [← h]; rfl
  · rfl

/-- What a computation of the budget leaves. -/
structure Budgeted (s t : State) : Prop where
  rest : t = { s with blc := t.blc, pau := { s.pau with ports := t.pau.ports }, pbu := t.pbu }
  pbu : t.pbu = { computeFigures s with powerCritical := t.pbu.powerCritical }
  shed : shedLaw s t

theorem shedCandidates_distinct (s : State) : ((shedOrder (shedCandidates s none)).map (·.1)).Nodup := by
  refine List.pairwise_map.2 ((shedOrder_sorted s).imp fun h heq => ?_)
  rw [heq] at h
  exact shedsBefore_asymm h h

theorem shedSelection_st (r : Option Slot) (w : Work) : (shedSelection r w).st =
    (selectShed w.st.pbu.available (shedOrder (shedCandidates w.st r)) w.st.projected 0 w).1.st.setPbu
      { (selectShed w.st.pbu.available (shedOrder (shedCandidates w.st r)) w.st.projected 0 w).1.st.pbu with
        powerCritical := decide (w.st.pbu.available <
          (selectShed w.st.pbu.available (shedOrder (shedCandidates w.st r)) w.st.projected 0 w).2.2) } := by
  unfold shedSelection
  dsimp only
  rw [setCritical_st]
  split <;> rfl

theorem budgeted_of {v : Work} (hst : v.st = s.setPbu (computeFigures s)) :
    Budgeted s (if v.st.pbu.available < v.st.projected then shedSelection none v else setCritical v false).st := by
  have hlaw : ∀ x : State, shedLaw v.st x → shedLaw s x := fun x h => by
    rw [hst] at h
    exact h
  have hcandidates : ∀ e ∈ shedOrder (shedCandidates v.st none), e.2 = v.st.port e.1 ∧ e.2.sheddable = true := fun e he => by
    obtain ⟨hcand, hx⟩ := (mem_shedCandidates _ e).1 ((mem_shedOrder _ e).1 he)
    exact ⟨hx, hx ▸ (sheddable_iff _).2 hcand.2⟩
  split
  · next hgt =>
    rw [shedSelection_st]
    obtain ⟨k, hrun, hcount⟩ := selectShed_run v.st.pbu.available _ 0 v (shedCandidates_distinct v.st) hcandidates
    generalize selectShed v.st.pbu.available _ v.st.projected 0 v = x at hrun hcount ⊢
    have hrest := hrun.rest
    have hpbu : x.1.st.pbu = computeFigures s := by rw [hrest, hst]; rfl
    refine ⟨?_, ?_, hlaw _ (hrun.law rfl rfl ?_ ?_ fun hle => absurd hgt (by omega))⟩
    · have h := congrArg (fun z : State => z.setPbu { x.1.st.pbu with powerCritical := decide (v.st.pbu.available < x.2.2) }) hrest
      rw [hst] at h ⊢
      exact h
    · show ({ x.1.st.pbu with powerCritical := _ } : Pbu) = _
      rw [hpbu]
      rfl
    · show x.1.st.pbu.available = _
      rw [hpbu, hst]
      rfl
    · rw [hcount]
      rfl
  · next hle =>
    rw [setCritical_st]
    have hsame : ShedRun v.st.pbu.available (shedOrder (shedCandidates v.st none)) 0 v.st v.st :=
      ⟨Nat.zero_le _, rfl, fun _ _ => rfl, fun _ h => (nomatch h), .inr (by omega), fun _ h => (nomatch h), fun _ => rfl⟩
    have hcritical : false = decide (v.st.pbu.available < v.st.projected) := (decide_eq_false hle).symm
    refine ⟨?_, ?_, hlaw _ (hsame.law rfl rfl rfl hcritical fun _ => rfl)⟩
    · rw [hst]
      rfl
    · rw [hst]
      rfl

/-- A budget computation computes the figures and makes the shed selection. -/
theorem computeBudget_budgeted (ended : Bool) (w : Work) : Budgeted w.st (computeBudget none ended w).st := by
  unfold computeBudget
  dsimp only
  refine budgeted_of ?_
  split <;> cases ended <;> rfl

theorem Budgeted.figures (h : Budgeted s t) : t.pbu.supply = s.supplyOf.1 ∧ t.pbu.redundancyLost = s.supplyOf.2 ∧ t.pbu.psus = s.pbu.psus ∧
    t.pbu.hold = s.pbu.hold ∧ t.pbu.reserved = s.supplyOf.1 * (100 - s.plu.inUse.reserve) / 100 ∧
    t.pbu.ceiling = s.plu.inUse.thermalBase * s.pbu.derate / 100 ∧ t.pbu.available = min t.pbu.reserved t.pbu.ceiling := by
  rw [h.pbu]
  exact ⟨rfl, rfl, rfl, rfl, rfl, rfl, rfl⟩

theorem Budgeted.supplyOf (h : Budgeted s t) : t.supplyOf = s.supplyOf ∧ t.usableOf = s.usableOf := by
  obtain ⟨-, -, hpsus, -⟩ := h.figures
  have hpins : t.pins = s.pins := by rw [h.rest]
  have hplu : t.plu = s.plu := by rw [h.rest]
  have husable : t.usableOf = s.usableOf := by
    unfold State.usableOf
    rw [hpsus, hpins]
  have hcounted : t.countedIn = s.countedIn := by
    unfold State.countedIn
    rw [hpsus]
  refine ⟨?_, husable⟩
  unfold State.supplyOf State.usableSum State.usableMax
  rw [husable, hcounted, hplu]

theorem Budgeted.supplyLaw (h : Budgeted s t) : supplyLaw t := by
  obtain ⟨hsupply, hlost, -⟩ := h.figures
  obtain ⟨heq, -⟩ := h.supplyOf
  exact supplyLaw_of (by rw [heq, hsupply]) (by rw [heq, hlost])

theorem Budgeted.derate (h : Budgeted s t) : t.pbu.derate = s.pbu.derate := by
  rw [h.pbu]
  rfl

theorem Budgeted.budgetLaw (h : Budgeted s t) : budgetLaw t := by
  obtain ⟨hsupply, -, -, -, hreserved, hceiling, havailable⟩ := h.figures
  have hplu : t.plu = s.plu := by rw [h.rest]
  refine ⟨h.supplyLaw, ?_, ?_, havailable⟩
  · rw [hreserved, hsupply, hplu]
  · rw [hceiling, hplu, h.derate]

/-- With no supply counted there is none. -/
theorem supplyLaw_none (h : supplyLaw t) (hnone : ∀ i, (t.pbu.psus.get i).counted = false) : t.pbu.supply = 0 :=
  (h.1 fun i hi => absurd ((hnone i).symm.trans hi) nofun).1

theorem budgetStep_budgeted (w : Work) (h : w.st.pbu.hold = false) : Budgeted w.st (budgetStep none w).st := by
  have heq : budgetStep none w = computeBudget none false w := by
    unfold budgetStep
    rw [h]
    rfl
  rw [heq]
  exact computeBudget_budgeted false w

/-- Settles O52: the change makes nothing due, so that the event settles by its budget alone. -/
theorem budgetFollowsItsFormulas : Obligations.BudgetFollowsItsFormulas := by
  intro i level s hlevel hhold
  show ∃ t, execLowLineChange i level s = .next t ∧ _
  refine answered (decide_eq_true hlevel) ?_
  dsimp only
  generalize hv : (if (s.pbu.psus.get i).state.settled = true then _ else _ : Work) = v
  obtain ⟨hst, hgrant, hrestore⟩ : v.st = s.setPins { s.pins with lowLine := Vector.put s.pins.lowLine i level } ∧ v.grantDue = false ∧
      v.restoreDue = false := by
    rw [← hv]
    split <;> exact ⟨rfl, rfl, rfl⟩
  have hbudgeted := budgetStep_budgeted v (by rw [hst]; exact hhold)
  rw [settle_of_notDue v hgrant hrestore]
  have hsettled : Settled (s.setPins { s.pins with lowLine := Vector.put s.pins.lowLine i level }) (budgetStep none v).st := by
    have h := settled_budgetStep none (Settled.refl v.st)
    rw [hst] at h
    exact h
  rw [hst] at hbudgeted
  generalize budgetStep none v = w at hbudgeted hsettled ⊢
  obtain ⟨hsupply, -, hpsus, -, hreserved, hceiling, havailable⟩ := hbudgeted.figures
  obtain ⟨-, husable⟩ := hbudgeted.supplyOf
  have hlaw := hbudgeted.supplyLaw
  have hnone : (∀ j, (s.pbu.psus.get j).counted = false) → w.st.pbu.supply = 0 := fun h => supplyLaw_none hlaw fun j => by
    rw [hpsus]
    exact h j
  have hreserved' : w.st.pbu.reserved = w.st.pbu.supply * (100 - s.plu.inUse.reserve) / 100 := by rw [hreserved, hsupply]; rfl
  have hceiling' : w.st.pbu.ceiling = s.plu.inUse.thermalBase * s.pbu.derate / 100 := hceiling
  refine ⟨hsettled.pins, hreserved', hceiling', havailable, hlaw, hbudgeted.shed, fun h => ?_, fun h => ?_, fun h => ?_, fun j c hj hc => ?_,
    fun hbounded => ?_, fun h1 h2 h3 h4 => ?_, hsettled.asks s, hsettled.admits.pinsFrame s⟩
  · rw [publish_pbu, havailable, hreserved', hnone h]
    omega
  · rw [publish_pbu, havailable, hceiling', h]
    omega
  · rw [publish_pbu, havailable, hceiling', h]
    omega
  · have h : (publish s w).usableOf j = w.st.usableOf j := rfl
    rw [h, husable, publish_pins, hsettled.pins]
    show usable (s.pbu.psus.get j) ((Vector.put s.pins.lowLine i level).get j) = _
    unfold usable
    rw [hj, hc]
    rfl
  · obtain ⟨hrange, -, -, hderate, -⟩ := hbounded
    simp only [Tunables.inRange, Bool.and_eq_true, decide_eq_true_iff, and_assoc] at hrange
    obtain ⟨hreserve, hbase, -⟩ := hrange
    exact ⟨hreserve, hbase, hderate⟩
  · rw [publish_pbu] at h1 ⊢
    rw [hreserved', h1, h2, havailable, hreserved', hceiling', h1, h2, h3, h4]
    decide

end Sys2Proof.Machine
end

section
/-! PROOFS. The figures of the budget under the grant round and the restore process, which follow the computation of the budget and
change none of them. -/

set_option Elab.async false

namespace Sys2Proof.Machine

variable {r s t u : State} {w : Work}

/-- The PBU but for what the grant round and the restore process may change. -/
def State.budgetView (s : State) : Pbu := { s.pbu with waitList := [], nextEntry := 0 }

/-- The same but for the restore process in HOLD, which is marked pending. -/
def State.figuresView (s : State) : Pbu := { s.budgetView with restorePending := false }

theorem budgetView_of_pbu (h : t.pbu = s.pbu) : t.budgetView = s.budgetView := by
  unfold State.budgetView
  rw [h]

@[simp] theorem budgetView_setPort (s : State) (p x) : (s.setPort p x).budgetView = s.budgetView := rfl

@[simp] theorem budgetView_orderPort (w : Work) (p a c) : (orderPort w p a c).st.budgetView = w.st.budgetView := by
  refine budgetView_of_pbu ?_
  show (handOrder _ _ _).pbu = _
  rw [handOrder_rest]

@[simp] theorem budgetView_joinLicence (w : Work) (p n) : (joinLicence w p n).st.budgetView = w.st.budgetView := rfl

@[simp] theorem budgetView_joinPower (w : Work) (p) : (joinPower w p).st.budgetView = w.st.budgetView := rfl

@[simp] theorem budgetView_leavePower (w : Work) (p) : (leavePower w p).st.budgetView = w.st.budgetView := rfl

@[simp] theorem budgetView_refuseXd (w : Work) (p) : (refuseXd w p).st.budgetView = w.st.budgetView := rfl

@[simp] theorem budgetView_toShed (w : Work) (p c) : (toShed w p c).st.budgetView = w.st.budgetView := by
  unfold toShed
  dsimp only
  split <;> rfl

@[simp] theorem budgetView_toGoingUp (w : Work) (p c a) : (toGoingUp w p c a).st.budgetView = w.st.budgetView := by
  unfold toGoingUp
  simp

@[simp] theorem budgetView_chargePort (w : Work) (p c) : (chargePort w p c).st.budgetView = w.st.budgetView := by
  unfold chargePort
  split <;> simp

@[simp] theorem budgetView_completeMove (w : Work) (p l q) : (completeMove w p l q).st.budgetView = w.st.budgetView := by
  unfold completeMove
  split
  · rfl
  · split
    · simp
    · unfold decideAdmission
      split
      · split <;> simp
      · simp

/-! ### The grant round -/

@[simp] theorem budgetView_grantHead (w : Work) (b e) : (grantHead w b e).st.budgetView = w.st.budgetView := by
  unfold grantHead
  rw [budgetView_completeMove]
  rfl

@[simp] theorem budgetView_reserveStep (a : Work × Bool) (b) : (reserveStep a b).1.st.budgetView = a.1.st.budgetView := by
  unfold reserveStep
  split
  · split <;> simp
  · rfl

@[simp] theorem budgetView_reservePass (w : Work) : (reservePass w).1.st.budgetView = w.st.budgetView := by
  have hfold : ∀ (l : List Slot) (a : Work × Bool), (l.foldl reserveStep a).1.st.budgetView = a.1.st.budgetView := by
    intro l
    induction l with
    | nil => exact fun _ => rfl
    | cons b l ih => exact fun a => (ih _).trans (budgetView_reserveStep a b)
  unfold reservePass
  rw [hfold]

@[simp] theorem budgetView_roundFrom : ∀ (n : Nat) (w : Work), (roundFrom n w).st.budgetView = w.st.budgetView
  | 0, _ => rfl
  | n + 1, w => by
    unfold roundFrom
    dsimp only
    split
    · rw [budgetView_roundFrom n, budgetView_reservePass]
    · split
      · rfl
      · split
        · rw [budgetView_roundFrom n, budgetView_grantHead]
          rfl
        · rfl

@[simp] theorem budgetView_grantIfDue (w : Work) : (grantIfDue w).st.budgetView = w.st.budgetView := by
  unfold grantIfDue
  split
  · have hround := budgetView_roundFrom (w.st.queued + 1) w
    unfold grantRound
    generalize roundFrom (w.st.queued + 1) w = v at hround ⊢
    exact hround
  · rfl

/-! ### The restore process -/

@[simp] theorem budgetView_powerBlade (w : Work) (b) : (powerBlade w b).st.budgetView = w.st.budgetView := by
  have hmove : ∀ x, (moveBlade w b x).st.budgetView = w.st.budgetView := fun x => by
    rw [moveBlade_st]
    rfl
  have hstart : ∀ s, (startLink s b).budgetView = s.budgetView := fun s => by
    unfold startLink
    dsimp only
    split <;> rfl
  unfold powerBlade
  rw [Work.map_st, hstart, hmove]

@[simp] theorem budgetView_restoreBlades : ∀ (l : List Slot) (w : Work), (restoreBlades l w).1.st.budgetView = w.st.budgetView
  | [], _ => rfl
  | b :: l, w => by
    unfold restoreBlades
    split
    · rw [budgetView_restoreBlades l, budgetView_powerBlade]
    · rfl

@[simp] theorem budgetView_restorePort (w : Work) (p) : (restorePort w p).st.budgetView = w.st.budgetView := by
  unfold restorePort
  split
  · exact budgetView_toGoingUp _ _ _ _
  · rfl

@[simp] theorem budgetView_restoreShed : ∀ (l : List PortRef) (w : Work), (restoreShed l w).1.st.budgetView = w.st.budgetView
  | [], _ => rfl
  | p :: l, w => by
    unfold restoreShed
    dsimp only
    split
    all_goals
      split
      · rw [budgetView_restoreShed l, budgetView_restorePort]
      · rfl

@[simp] theorem budgetView_restoreWaiting : ∀ (l : List PowerWait) (w : Work), (restoreWaiting l w).st.budgetView = w.st.budgetView
  | [], _ => rfl
  | e :: l, w => by
    have hnext : ∀ fits, (restoreWaiting l (completeMove (leavePower w e.port) e.port fits true)).st.budgetView = w.st.budgetView := fun fits => by
      rw [budgetView_restoreWaiting l, budgetView_completeMove, budgetView_leavePower]
    unfold restoreWaiting
    dsimp only
    split
    · exact budgetView_restoreWaiting l w
    · refine Eq.trans (apply_ite (fun v : Work => v.st.budgetView) _ _ _) ?_
      split
      all_goals
        split
        · exact hnext _
        · rfl

@[simp] theorem budgetView_restoreProcess (w : Work) : (restoreProcess w).st.budgetView = w.st.budgetView := by
  unfold restoreProcess
  dsimp only
  split
  · split <;> simp
  · simp

theorem figuresView_of_budgetView (h : t.budgetView = s.budgetView) : t.figuresView = s.figuresView := by
  unfold State.figuresView
  rw [h]

theorem figuresView_restoreIfDue (w : Work) : (restoreIfDue w).st.figuresView = w.st.figuresView := by
  unfold restoreIfDue
  split
  · show (restoreDueNow w).st.figuresView = w.st.figuresView
    unfold restoreDueNow
    split
    · rfl
    · split
      · rfl
      · exact figuresView_of_budgetView (budgetView_restoreProcess w)
  · rfl

/-! ### The law of the budget -/

/-- The law of the budget is about the figures, the supplies with their lines, and the tunables in use. -/
theorem budgetLaw_of_view (hview : t.figuresView = s.figuresView) (hpins : t.pins = s.pins) (hplu : t.plu = s.plu) (h : budgetLaw s) :
    budgetLaw t := by
  have hpbu : t.pbu = { s.pbu with waitList := t.pbu.waitList, nextEntry := t.pbu.nextEntry, restorePending := t.pbu.restorePending } := by
    have hfields := congrArg (fun x : Pbu =>
      { x with waitList := t.pbu.waitList, nextEntry := t.pbu.nextEntry, restorePending := t.pbu.restorePending }) hview
    exact hfields
  obtain ⟨tp, tn, tpi, tt, tb, ts, tz, tbl, tpa, tl, tpbu, tf, te, tplu⟩ := t
  dsimp only at hpbu hpins hplu
  subst hpins hplu
  rw [hpbu]
  exact h

/-! ### HOLD -/

theorem holdCondition_iff (s : State) : s.holdCondition = true ↔ (∀ i, (s.pbu.psus.get i).state ≠ .online) ∧ ∃ i, (s.pbu.psus.get i).state = .inputLost := by
  unfold State.holdCondition
  simp only [Bool.and_eq_true, List.all_eq_true, List.any_eq_true, decide_eq_true_eq, mem_indices, true_and, forall_const]

/-- Answering RETRY to some tags. -/
theorem retryTags (tag : BusTag) : ∀ (l : List BusTag) (s : State), (l.foldl retryTag s).tagSlot tag =
    (if tag ∈ l then ⟨none, some ⟨.retry, []⟩⟩ else s.tagSlot tag) ∧
    l.foldl retryTag s = s.setTbp { s.tbp with slots := (l.foldl retryTag s).tbp.slots }
  | [], s => ⟨(if_neg List.not_mem_nil).symm, rfl⟩
  | a :: l, s => by
    obtain ⟨hslot, hrest⟩ := retryTags tag l (retryTag s a)
    refine ⟨?_, hrest⟩
    have hone : (retryTag s a).tagSlot tag = if tag = a then ⟨none, some ⟨.retry, []⟩⟩ else s.tagSlot tag := tagSlot_setTag s a tag _
    rw [List.foldl_cons, hslot, hone]
    by_cases hl : tag ∈ l
    · rw [if_pos hl, if_pos (List.mem_cons_of_mem a hl)]
    · rw [if_neg hl]
      exact if_congr (by rw [List.mem_cons, or_iff_left hl]) rfl rfl

/-- What follows a change of a supply. -/
structure PsuFollowed (s t : State) : Prop where
  admits : Admits ((s.setTbp t.tbp).setPbu t.pbu) t
  psus : t.pbu.psus = s.pbu.psus
  ports : ∀ q, PortKept (s.port q) (t.port q)
  hold : t.pbu.hold = s.holdCondition
  frozen : t.pbu.hold = true → t.pbu = { s.pbu with hold := true } ∧ t.pau = s.pau ∧ t.blc = s.blc ∧ t.lu = s.lu
  law : t.pbu.hold = false → budgetLaw t
  declared : s.pbu.hold = false → t.pbu.hold = true → (s.tmc.initDone = true → t.tmc.holdTold = true) ∧
    (∀ tag, t.tagSlot tag = if tag ∈ s.tbp.heldReads.map (·.tag) ∨ tag ∈ s.tbp.heldWrites.map (·.tag) then ⟨none, some ⟨.retry, []⟩⟩
      else s.tagSlot tag) ∧
    t.tbp = { s.tbp with slots := t.tbp.slots, heldReads := [], heldWrites := [] }
  tbp : s.pbu.hold = true ∨ t.pbu.hold = false → t.tbp = s.tbp
  ended : s.pbu.hold = true → t.pbu.hold = false → t.tmc.holdTold = false

/-- HOLD is declared. -/
theorem declareHold_followed (w : Work) (hcondition : w.st.holdCondition = true) (hopen : w.st.pbu.hold = false) : PsuFollowed w.st (declareHold w).st := by
  have htmc : ∀ x : State, TmcMoved x (tmcHold x) ∧ (x.tmc.initDone = true → (tmcHold x).tmc.holdTold = true) := fun x => by
    unfold tmcHold
    cases hinit : x.tmc.initDone with
    | false => exact ⟨.refl x, nofun⟩
    | true => exact ⟨⟨rfl, rfl, rfl⟩, fun _ => rfl⟩
  have hst : (declareHold w).st = tmcHold (tbpHold (w.st.setPbu { w.st.pbu with hold := true })) := rfl
  obtain ⟨hmoved, htold⟩ := htmc (tbpHold (w.st.setPbu { w.st.pbu with hold := true }))
  rw [← hst] at hmoved htold
  generalize (declareHold w).st = t at hmoved htold
  have hrest : ∀ tag, (tbpHold (w.st.setPbu { w.st.pbu with hold := true })).tagSlot tag =
      (if tag ∈ w.st.tbp.heldReads.map (·.tag) ++ w.st.tbp.heldWrites.map (·.tag) then ⟨none, some ⟨.retry, []⟩⟩ else w.st.tagSlot tag) ∧
      tbpHold (w.st.setPbu { w.st.pbu with hold := true }) = (w.st.setPbu { w.st.pbu with hold := true }).setTbp { w.st.tbp with
        slots := (tbpHold (w.st.setPbu { w.st.pbu with hold := true })).tbp.slots, heldReads := [], heldWrites := [] } :=
    fun tag => retryTags tag _ _
  generalize tbpHold (w.st.setPbu { w.st.pbu with hold := true }) = u at hmoved htold hrest
  obtain ⟨-, hu⟩ := hrest 0
  have ht := hmoved.rest
  rw [hu] at ht
  have htbp : t.tbp = u.tbp := by rw [hmoved.rest]
  have hpbu : t.pbu = { w.st.pbu with hold := true } := by rw [ht]; rfl
  refine ⟨?_, by rw [hpbu], fun q => ?_, by rw [hpbu, hcondition], fun _ => ⟨hpbu, ?_, ?_, ?_⟩, fun h => ?_, fun _ _ => ⟨fun hinit => htold ?_, fun tag => ?_, ?_⟩,
    fun h => ?_, fun _ h => ?_⟩
  · have hmem : t.tmc.mem = w.st.tmc.mem := by rw [hmoved.mem, hu]; rfl
    have hmarks : t.tmc.marks = w.st.tmc.marks := by rw [hmoved.marks, hu]; rfl
    rw [htbp, hpbu]
    generalize t.tmc = x, t.swq = y at ht hmem hmarks
    subst ht
    exact { Admits.refl _ with mem := hmem, marks := hmarks, tbp := by rw [hu]; rfl }
  · rw [ht]
    exact .refl _
  · rw [ht]
    rfl
  · rw [ht]
    rfl
  · rw [ht]
    rfl
  · rw [hpbu] at h
    cases h
  · rw [hu]
    exact hinit
  · obtain ⟨hslot, -⟩ := hrest tag
    have htag : t.tagSlot tag = u.tagSlot tag := congrArg (fun x : Tbp => x.slots.get tag) htbp
    rw [htag, hslot]
    exact if_congr List.mem_append rfl rfl
  · rw [htbp, hu]
    rfl
  · rcases h with h | h
    · rw [hopen] at h
      cases h
    · rw [hpbu] at h
      cases h
  · rw [hpbu] at h
    cases h

theorem tmcHoldEnd_moved (s : State) : TmcMoved s (tmcHoldEnd s) ∧ (tmcHoldEnd s).tmc.holdTold = false := by
  have hasked := asked_resumePresentations (tmcRest (s.setTmc { s.tmc with
    holdTold := false, exiting := s.tmc.exiting || (s.tmc.holdTold && decide (s.tmc.power = .selfRefresh)) }))
  have hmoved : TmcMoved s (tmcRest (s.setTmc { s.tmc with
      holdTold := false, exiting := s.tmc.exiting || (s.tmc.holdTold && decide (s.tmc.power = .selfRefresh)) })) := ⟨rfl, rfl, rfl⟩
  exact ⟨hmoved.trans hasked.moved, hasked.tmc.holdTold⟩

theorem endHold_settled (w : Work) : Settled (tmcHoldEnd (w.st.setPbu { w.st.pbu with hold := false })) (endHold w).st ∧
    ∃ v, Budgeted (tmcHoldEnd (w.st.setPbu { w.st.pbu with hold := false })) v ∧ (endHold w).st.figuresView = v.figuresView := by
  have hbudgeted := computeBudget_budgeted true (w.map fun s => tmcHoldEnd (s.setPbu { s.pbu with hold := false }))
  have hsettled := settled_computeBudget none true (Settled.refl (w.map fun s => tmcHoldEnd (s.setPbu { s.pbu with hold := false })).st)
  unfold endHold
  dsimp only
  generalize computeBudget none true (w.map fun s => tmcHoldEnd (s.setPbu { s.pbu with hold := false })) = v at hbudgeted hsettled ⊢
  rw [Work.map_st] at hbudgeted hsettled
  refine ⟨?_, v.st, hbudgeted, ?_⟩
  · exact settled_ite hsettled (settled_ite (hsettled.setPbu _ rfl rfl rfl) hsettled)
  · split
    · rfl
    · split <;> rfl

/-- HOLD ends. -/
theorem endHold_followed (w : Work) (hcondition : w.st.holdCondition = false) :
    PsuFollowed w.st (restoreIfDue (grantIfDue (endHold w))).st := by
  obtain ⟨hended, v, hbudgeted, hview⟩ := endHold_settled w
  have hsettled := settled_restoreIfDue (settled_grantIfDue hended)
  have hviews : (restoreIfDue (grantIfDue (endHold w))).st.figuresView = v.figuresView := by
    rw [figuresView_restoreIfDue, figuresView_of_budgetView (budgetView_grantIfDue _), hview]
  obtain ⟨hmoved, htold⟩ := tmcHoldEnd_moved (w.st.setPbu { w.st.pbu with hold := false })
  generalize (restoreIfDue (grantIfDue (endHold w))).st = t at hsettled hviews
  generalize tmcHoldEnd (w.st.setPbu { w.st.pbu with hold := false }) = u at hbudgeted hsettled hmoved htold
  have hu := hmoved.rest
  have hhold : t.pbu.hold = false := by rw [hsettled.hold, hu]; rfl
  have htbp : t.tbp = w.st.tbp := by rw [hsettled.tbp, hu]; rfl
  have hpsus : t.pbu.psus = w.st.pbu.psus := by rw [hsettled.psus, hu]; rfl
  have hport : ∀ q, u.port q = w.st.port q := fun q => by rw [hu]; rfl
  refine ⟨?_, hpsus, fun q => ?_, by rw [hhold, hcondition], fun h => ?_, fun _ => ?_, fun _ h => ?_, fun _ => htbp, fun _ _ => ?_⟩
  · rw [htbp]
    have hadmits : Admits (w.st.setPbu { w.st.pbu with hold := false }) u := by
      have hmem := hmoved.mem
      have hmarks := hmoved.marks
      generalize u.tmc = x, u.swq = y at hu hmem hmarks
      subst hu
      exact { Admits.refl _ with mem := hmem, marks := hmarks }
    have h := hadmits.trans hsettled.admits
    exact { h with psus := rfl, hold := rfl }
  · rw [← hport q]
    exact hsettled.port q
  · rw [hhold] at h
    cases h
  · refine budgetLaw_of_view hviews ?_ ?_ hbudgeted.budgetLaw
    · rw [hsettled.pins, hbudgeted.rest]
    · rw [hsettled.plu, hbudgeted.rest]
  · rw [hhold] at h
    cases h
  · rw [hsettled.tmc]
    exact htold

/-- Neither is HOLD declared nor does it end. -/
theorem settle_followed (w : Work) (hsame : w.st.holdCondition = w.st.pbu.hold) (hgrant : w.grantDue = false) (hrestore : w.restoreDue = false) :
    PsuFollowed w.st (settle w).st := by
  have hsettled := settle_settled w
  have hlaw : w.st.pbu.hold = false → budgetLaw (settle w).st := fun h => by
    rw [settle_of_notDue w hgrant hrestore]
    exact (budgetStep_budgeted w h).budgetLaw
  have hfrozen : w.st.pbu.hold = true → (settle w).st = w.st := fun h => by
    rw [settle_of_notDue w hgrant hrestore]
    unfold budgetStep
    rw [h]
    rfl
  generalize (settle w).st = t at hsettled hlaw hfrozen
  have hhold := hsettled.hold
  refine ⟨?_, hsettled.psus, hsettled.port, by rw [hhold, hsame], fun h => ?_, fun h => hlaw (hhold ▸ h), fun h g => ?_, fun _ => hsettled.tbp, fun h g => ?_⟩
  · rw [hsettled.tbp]
    exact { hsettled.admits with psus := rfl, hold := rfl }
  · rw [hhold] at h
    rw [hfrozen h]
    exact ⟨by rw [← h], rfl, rfl, rfl⟩
  · rw [hhold, h] at g
    cases g
  · rw [hhold, h] at g
    cases g

theorem afterPsu_followed (w : Work) (hgrant : w.grantDue = false) (hrestore : w.restoreDue = false) : PsuFollowed w.st (afterPsu w).st := by
  unfold afterPsu
  dsimp only
  cases hc : w.st.holdCondition <;> cases hh : w.st.pbu.hold
  · rw [if_neg (by decide), if_neg (by decide)]
    exact settle_followed w (hc.trans hh.symm) hgrant hrestore
  · rw [if_neg (by decide), if_pos (by decide)]
    exact endHold_followed w hc
  · rw [if_pos (by decide)]
    exact declareHold_followed w hc hh
  · rw [if_neg (by decide), if_neg (by decide)]
    exact settle_followed w (hc.trans hh.symm) hgrant hrestore

/-! ### What a command on a supply leaves -/

/-- What is left of a command on the supplies: the lines, the records, HOLD with what follows, and all else. -/
theorem PsuFollowed.left {p : Pins} {x : Vector Psu 4} (o : State) (h : PsuFollowed ((s.setPins p).setPbu { s.pbu with psus := x }) w.st) :
    (publish o w).pins = p ∧ (publish o w).pbu.psus = x ∧ holdFollows s (publish o w) ∧ (∀ q, ((publish o w).port q).asks = (s.port q).asks) ∧
      admissionFrame { s with pins := (publish o w).pins, tbp := (publish o w).tbp, pbu := (publish o w).pbu } (publish o w) := by
  have hpins : w.st.pins = p := h.admits.pins
  have hpsus : w.st.pbu.psus = x := h.psus
  have htold : (publish o w).tmc.holdTold = w.st.tmc.holdTold := (publish_tmcKept o w).holdTold
  refine ⟨hpins, hpsus, ⟨?_, fun hhold => ?_, h.law, fun hs ht => ?_, h.tbp, fun hs ht => ?_⟩, fun q => (h.ports q).asks, ?_⟩
  · rw [publish_pbu, h.hold, holdCondition_iff, hpsus]
    exact Iff.rfl
  · obtain ⟨hpbu, hpau, hblc, hlu⟩ := h.frozen hhold
    refine ⟨?_, hpau, hblc, hlu⟩
    rw [publish_pbu, hpbu]
    rfl
  · obtain ⟨hdone, htags, htbp⟩ := h.declared hs ht
    exact ⟨fun hinit => htold.trans (hdone hinit), htags, htbp⟩
  · exact htold.trans (h.ended hs ht)
  · obtain ⟨hback, hfeature, hslots, hfifo, hprogram, hreserves, hpsus, hhold, hframe⟩ := h.admits.frame o
    rw [publish_pins, hpins]
    exact ⟨hback, hfeature, hslots, hfifo, hprogram, hreserves, rfl, rfl, hframe⟩

/-- The record of a supply that enters a state. -/
def Psu.entered (x : Psu) (st : PsuState) (now grace : Nat) : Psu :=
  { x with
    state := st
    graceAt := if st = .inputLost ∧ 0 < grace then some (now + msec grace) else none
    expired := decide (st = .inputLost) && decide (grace = 0) }

theorem movePsu_st (w : Work) (i : Bay) (x : Psu) (st : PsuState) :
    (movePsu w i x st).st = w.st.setPbu { w.st.pbu with psus := Vector.put w.st.pbu.psus i (x.entered st w.st.now w.st.plu.inUse.grace) } ∧
    (movePsu w i x st).grantDue = w.grantDue ∧ (movePsu w i x st).restoreDue = w.restoreDue := by
  unfold movePsu
  dsimp only
  split <;> split <;> exact ⟨rfl, rfl, rfl⟩

/-- The other bays keep their records. -/
theorem psus_put {t : State} {v : Vector Psu 4} {i : Bay} {x : Psu} (h : t.pbu.psus = Vector.put v i x) :
    t.pbu.psus.get i = x ∧ ∀ j, j ≠ i → t.pbu.psus.get j = v.get j := by
  rw [h]
  exact ⟨by rw [Vector.get_put, if_pos rfl], fun j hj => by rw [Vector.get_put, if_neg hj]⟩

/-- What is left of a command that moves a supply. -/
theorem movePsu_left (s : State) (p : Pins) (i : Bay) (x : Psu) (st : PsuState) {t : State}
    (ht : t = publish s (afterPsu (movePsu ((Work.start s).map fun s => s.setPins p) i x st))) :
    t.pins = p ∧ t.pbu.psus.get i = x.entered st s.now s.plu.inUse.grace ∧ (∀ j, j ≠ i → t.pbu.psus.get j = s.pbu.psus.get j) ∧ holdFollows s t ∧
      (∀ q, (t.port q).asks = (s.port q).asks) ∧ admissionFrame { s with pins := t.pins, tbp := t.tbp, pbu := t.pbu } t := by
  subst ht
  obtain ⟨hst, hgrant, hrestore⟩ := movePsu_st ((Work.start s).map fun s => s.setPins p) i x st
  have hfollowed := afterPsu_followed _ hgrant hrestore
  rw [hst] at hfollowed
  obtain ⟨hpins, hpsus, hhold, hports, hframe⟩ := PsuFollowed.left s hfollowed
  obtain ⟨hi, hothers⟩ := psus_put hpsus
  exact ⟨hpins, hi, hothers, hhold, hports, hframe⟩

/-- Settles O50: each is a move of the supply, with what follows it. -/
theorem supplySeatedSettledAndPulled : Obligations.SupplySeatedSettledAndPulled := by
  refine ⟨fun i s hpresent hempty => ?_, fun i s hpresent hseated => ?_, fun i code s hstate hdue => ?_⟩
  · show ∃ t, execPsuInserted i s = .next t ∧ _
    refine answered (by rw [hpresent]; rfl) ?_
    dsimp only
    rw [if_pos hempty]
    generalize ht : publish s _ = t
    obtain ⟨hpins, hi, hothers, hhold, hports, hframe⟩ := movePsu_left s { s.pins with psuPresent := Vector.put s.pins.psuPresent i true } i
      { s.pbu.psus.get i with settleAt := some (s.now + sec 2) } .settling ht.symm
    exact ⟨by rw [hi]; rfl, by rw [hi]; rfl, hothers, hpins, hhold, hports, hframe⟩
  · show ∃ t, execPsuRemoved i s = .next t ∧ _
    refine answered hpresent ?_
    dsimp only
    rw [if_neg hseated]
    generalize ht : publish s _ = t
    obtain ⟨hpins, hi, hothers, hhold, hports, hframe⟩ := movePsu_left s { s.pins with psuPresent := Vector.put s.pins.psuPresent i false } i
      { s.pbu.psus.get i with settleAt := none, capacity := none } .empty ht.symm
    exact ⟨by rw [hi]; rfl, by rw [hi]; rfl, by rw [hi]; rfl, by rw [hi]; rfl, by rw [hi]; rfl, hothers, hpins, hhold, hports, hframe⟩
  · show ∃ t, execSettleExpiry i code s = .next t ∧ _
    unfold execSettleExpiry
    have hc : (decide ((s.pbu.psus.get i).state = .settling) && ranOut (s.pbu.psus.get i).settleAt s.now) = true := by rw [hstate, hdue]; rfl
    refine answered hc ?_
    generalize ht : publish s _ = t
    obtain ⟨hpins, hi, hothers, hhold, hports, hframe⟩ := movePsu_left s { s.pins with capacity := Vector.put s.pins.capacity i code } i
      { s.pbu.psus.get i with settleAt := none, capacity := some (capacityOf code) } (settledState (s.pins.powerGood.get i) (s.pins.acOk.get i)) ht.symm
    refine ⟨by rw [hi]; rfl, ?_, hothers, hpins, hhold, hports, hframe⟩
    rw [hi]
    show settledState _ _ = _
    cases s.pins.powerGood.get i <;> cases s.pins.acOk.get i <;> rfl

theorem edge_left (s : State) (p : Pins) (i : Bay) (e : PsuEdge) {t : State}
    (ht : t = publish s (psuEdge ((Work.start s).map fun s => s.setPins p) i e)) :
    t.pins = p ∧ (t.pbu.psus.get i).state = (psuNext (s.pbu.psus.get i).state e (p.powerGood.get i) (p.acOk.get i)).getD (s.pbu.psus.get i).state ∧
      supplyMoved s t i := by
  have hne : ∀ st, psuNext (s.pbu.psus.get i).state e (p.powerGood.get i) (p.acOk.get i) = some st → st ≠ (s.pbu.psus.get i).state := by
    intro st hst heq
    subst heq
    generalize (s.pbu.psus.get i).state = x, p.powerGood.get i = g, p.acOk.get i = c at hst
    revert hst
    cases x <;> cases e <;> cases g <;> cases c <;> decide
  cases hnext : psuNext (s.pbu.psus.get i).state e (p.powerGood.get i) (p.acOk.get i) with
  | none =>
    have heq : psuEdge ((Work.start s).map fun s => s.setPins p) i e = (Work.start s).map fun s => s.setPins p := by
      unfold psuEdge
      dsimp only
      split
      · next st hst => exact absurd (hnext.symm.trans hst) nofun
      · rfl
    rw [heq] at ht
    subst ht
    generalize hw : (Work.start s).map _ = w
    have hadmits : Admits (s.setPins p) w.st := by
      rw [← hw]
      exact .refl _
    have hpbu : (publish s w).pbu = s.pbu := by rw [← hw]; rfl
    have htbp : (publish s w).tbp = s.tbp := by rw [← hw]; rfl
    have hport : ∀ q, (publish s w).port q = s.port q := fun q => by rw [← hw]; rfl
    refine ⟨hadmits.pins, by rw [hpbu]; rfl, fun _ => ⟨hpbu, htbp⟩, fun h => absurd (by rw [hpbu]) h, fun j _ => by rw [hpbu], fun q => by rw [hport], ?_⟩
    rw [hpbu, htbp]
    exact hadmits.pinsFrame s
  | some st =>
    have heq : psuEdge ((Work.start s).map fun s => s.setPins p) i e =
        afterPsu (movePsu ((Work.start s).map fun s => s.setPins p) i (s.pbu.psus.get i) st) := by
      unfold psuEdge
      dsimp only
      split
      · next st' hst => rw [Option.some.inj (hnext.symm.trans hst)]; rfl
      · next hst => exact absurd (hnext.symm.trans hst) nofun
    rw [heq] at ht
    obtain ⟨hpins, hi, hothers, hhold, hports, hframe⟩ := movePsu_left s p i _ st ht
    have hstate : (t.pbu.psus.get i).state = st := by rw [hi]; rfl
    refine ⟨hpins, hstate, fun h => absurd (hstate.symm.trans h) (hne st hnext), fun _ => hhold, hothers, hports, hframe⟩

/-- Settles O51: each edge moves the supply, or leaves it with all that follows a move. -/
theorem supplyFollowsItsLines : Obligations.SupplyFollowsItsLines := by
  refine ⟨fun i s hlevel => ?_, fun i s hlevel => ?_, fun i s hlevel => ?_, fun i s hlevel => ?_⟩
  · show ∃ t, execPowerGoodRise i s = .next t ∧ _
    refine answered (by rw [hlevel]; rfl) ?_
    generalize ht : publish s _ = t
    obtain ⟨hpins, hstate, hmoved⟩ := edge_left s { s.pins with powerGood := Vector.put s.pins.powerGood i true } i .pgRise ht.symm
    refine ⟨hpins, ?_, hmoved⟩
    rw [hstate, Vector.get_put, if_pos rfl]
    cases (s.pbu.psus.get i).state <;> cases s.pins.acOk.get i <;> rfl
  · show ∃ t, execPowerGoodFall i s = .next t ∧ _
    refine answered hlevel ?_
    generalize ht : publish s _ = t
    obtain ⟨hpins, hstate, hmoved⟩ := edge_left s { s.pins with powerGood := Vector.put s.pins.powerGood i false } i .pgFall ht.symm
    refine ⟨hpins, ?_, hmoved⟩
    rw [hstate, Vector.get_put, if_pos rfl]
    cases (s.pbu.psus.get i).state <;> cases s.pins.acOk.get i <;> rfl
  · show ∃ t, execAcOkRise i s = .next t ∧ _
    refine answered (by rw [hlevel]; rfl) ?_
    generalize ht : publish s _ = t
    obtain ⟨hpins, hstate, hmoved⟩ := edge_left s { s.pins with acOk := Vector.put s.pins.acOk i true } i .acRise ht.symm
    refine ⟨hpins, ?_, hmoved⟩
    rw [hstate, Vector.get_put, if_pos rfl]
    cases (s.pbu.psus.get i).state <;> cases s.pins.powerGood.get i <;> rfl
  · show ∃ t, execAcOkFall i s = .next t ∧ _
    refine answered hlevel ?_
    generalize ht : publish s _ = t
    obtain ⟨hpins, hstate, hmoved⟩ := edge_left s { s.pins with acOk := Vector.put s.pins.acOk i false } i .acFall ht.symm
    refine ⟨hpins, ?_, hmoved⟩
    rw [hstate, Vector.get_put, if_pos rfl]
    cases (s.pbu.psus.get i).state <;> cases s.pins.powerGood.get i <;> rfl

end Sys2Proof.Machine
end

section
/-! PROOFS. The restore process: its first candidate decides. -/

set_option Elab.async false

namespace Sys2Proof.Machine

variable {r s t u : State} {w : Work} {p q : PortRef} {b : Slot}

/-! ### The restore order -/

/-- A port stands before another in the restore order: higher priority first, then lower slot, then lower port. -/
def State.restoresBefore (s : State) (p q : PortRef) : Prop :=
  (s.port q).priority < (s.port p).priority ∨ ((s.port q).priority = (s.port p).priority ∧
    (p.slot < q.slot ∨ (p.slot = q.slot ∧ p.port < q.port)))

theorem restoresBefore_asymm (h : s.restoresBefore p q) : ¬s.restoresBefore q p := by
  unfold State.restoresBefore at h ⊢
  simp only [Fin.lt_def, Fin.ext_iff] at h ⊢
  omega

/-- The ports that the restore process may take out of SHED, with their records, by slot and port. -/
def State.shedPorts (s : State) : List (PortRef × Port) :=
  (indices 8).flatMap (fun b => if s.up b && !s.hot b then (s.portList b).filter (fun e => decide (e.2.state = .shed)) else [])

theorem restoreOrder_eq (s : State) : restoreOrder s =
    (indices 8).reverse.flatMap (fun q => (s.shedPorts.filter (fun e => decide (e.2.priority = q))).map (·.1)) := rfl

theorem mem_shedPorts (s : State) (e : PortRef × Port) : e ∈ s.shedPorts ↔ s.restorable e.1 ∧ e.2 = s.port e.1 := by
  unfold State.shedPorts State.restorable
  rw [List.mem_flatMap]
  constructor
  · rintro ⟨b, -, he⟩
    split at he
    · next hup =>
      obtain ⟨hlist, hshed⟩ := List.mem_filter.1 he
      obtain ⟨rfl, hport⟩ := (mem_portList_iff s b e).1 hlist
      rw [Bool.and_eq_true, Bool.not_eq_true'] at hup
      rw [hport, decide_eq_true_eq] at hshed
      exact ⟨⟨of_decide_eq_true hup.1, hup.2, hshed⟩, hport⟩
    · exact absurd he List.not_mem_nil
  · rintro ⟨⟨hup, hhot, hstate⟩, hport⟩
    refine ⟨e.1.slot, mem_indices _, ?_⟩
    have hb : s.up e.1.slot = true := decide_eq_true hup
    rw [hb, hhot, if_pos (by decide)]
    refine List.mem_filter.2 ⟨(mem_portList_iff s _ e).2 ⟨rfl, hport⟩, ?_⟩
    rw [hport]
    exact decide_eq_true hstate

theorem shedPorts_sorted (s : State) : s.shedPorts.Pairwise
    (fun e f => e.1.slot < f.1.slot ∨ (e.1.slot = f.1.slot ∧ e.1.port < f.1.port)) := by
  have hslot : ∀ (b : Slot) (e : PortRef × Port),
      e ∈ (if s.up b && !s.hot b then (s.portList b).filter (fun e => decide (e.2.state = .shed)) else []) → e.1.slot = b := by
    intro b e he
    split at he
    · exact ((mem_portList_iff s b e).1 (List.mem_filter.1 he).1).1
    · exact absurd he List.not_mem_nil
  have hsorted : (indices 8).Pairwise (· < ·) := by decide
  unfold State.shedPorts
  refine List.pairwise_flatMap.2 ⟨fun b _ => ?_, hsorted.imp fun hlt e he f hf => ?_⟩
  · split
    · refine ((portList_sorted s b).imp_of_mem fun he hf hlt => ?_).filter _
      obtain ⟨he, -⟩ := (mem_portList_iff s b _).1 he
      obtain ⟨hf, -⟩ := (mem_portList_iff s b _).1 hf
      exact .inr ⟨he.trans hf.symm, hlt⟩
    · exact .nil
  · rw [hslot _ e he, hslot _ f hf]
    exact .inl hlt

theorem mem_restoreOrder_iff (s : State) (p : PortRef) : p ∈ restoreOrder s ↔ s.restorable p := by
  rw [restoreOrder_eq]
  simp only [List.mem_flatMap, List.mem_map, List.mem_filter, List.mem_reverse, mem_indices, true_and, decide_eq_true_eq, mem_shedPorts]
  constructor
  · rintro ⟨-, e, ⟨⟨he, -⟩, -⟩, rfl⟩
    exact he
  · exact fun h => ⟨_, (p, s.port p), ⟨⟨h, rfl⟩, rfl⟩, rfl⟩

theorem restoreOrder_sorted (s : State) : (restoreOrder s).Pairwise s.restoresBefore := by
  have hport : ∀ e ∈ s.shedPorts, e.2 = s.port e.1 := fun e he => ((mem_shedPorts s e).1 he).2
  have hsorted : (indices 8).Pairwise (· < ·) := by decide
  rw [restoreOrder_eq]
  refine List.pairwise_flatMap.2 ⟨fun q _ => ?_, (List.pairwise_reverse.2 hsorted).imp fun hlt p hp q hq => ?_⟩
  · refine List.pairwise_map.2 (List.Pairwise.imp_of_mem ?_ ((shedPorts_sorted s).filter _))
    intro e f he hf h
    obtain ⟨hem, heq⟩ := List.mem_filter.1 he
    obtain ⟨hfm, hfq⟩ := List.mem_filter.1 hf
    rw [hport e hem, decide_eq_true_eq] at heq
    rw [hport f hfm, decide_eq_true_eq] at hfq
    exact .inr ⟨hfq.trans heq.symm, h⟩
  · obtain ⟨e, he, rfl⟩ := List.mem_map.1 hp
    obtain ⟨f, hf, rfl⟩ := List.mem_map.1 hq
    obtain ⟨hem, heq⟩ := List.mem_filter.1 he
    obtain ⟨hfm, hfq⟩ := List.mem_filter.1 hf
    rw [hport e hem, decide_eq_true_eq] at heq
    rw [hport f hfm, decide_eq_true_eq] at hfq
    refine .inl ?_
    rw [heq, hfq]
    exact hlt

/-- The first port of the restore order. -/
theorem restoreOrder_head (hp : s.restorable p) (hfirst : ∀ q, s.restorable q → q ≠ p → s.restoresBefore p q) :
    ∃ l, restoreOrder s = p :: l ∧ ∀ q ∈ l, q ≠ p := by
  have hsorted := restoreOrder_sorted s
  have hmem := mem_restoreOrder_iff s
  generalize restoreOrder s = l at hsorted hmem
  cases l with
  | nil => exact absurd ((hmem p).2 hp) List.not_mem_nil
  | cons a l =>
    obtain ⟨ha, -⟩ := List.pairwise_cons.1 hsorted
    have hself : ∀ q, ¬s.restoresBefore q q := fun q h => restoresBefore_asymm h h
    have hpa : a = p := by
      by_contra hne
      have hin : p ∈ l := (List.mem_cons.1 ((hmem p).2 hp)).resolve_left (Ne.symm hne)
      exact restoresBefore_asymm (ha p hin) (hfirst a ((hmem a).1 List.mem_cons_self) hne)
    subst hpa
    exact ⟨l, rfl, fun q hq hqa => hself a (hqa ▸ ha q hq)⟩

/-! ### The blades -/

theorem powerBlade_blade (w : Work) (b c : Slot) : (powerBlade w b).st.blade c = if c = b then
    { w.st.blade b with state := .powering, base := w.st.plu.inUse.defaultBase, debounced := false, powerEn := true } else w.st.blade c := by
  have hstart : ∀ s : State, (startLink s b).blade c = s.blade c := fun s => by
    unfold startLink
    dsimp only
    split <;> rfl
  unfold powerBlade
  rw [Work.map_st, hstart, moveBlade_st, State.blade_setBlade]
  rfl

/-- A blade that waits has been powered, and the rest of the process leaves it. -/
theorem restoreProcess_blade {rest : List Slot} (w : Work) (hwait : w.st.bladeWait = b :: rest)
    (hfits : ((w.st.plu.inUse.defaultBase + w.st.plu.inUse.margin : Nat) : Int) ≤ w.st.headroom) :
    (restoreProcess w).st.blade b = (powerBlade w b).st.blade b := by
  have hnodup : (b :: rest).Nodup := hwait ▸ (nodup_indices 8).filter _
  obtain ⟨hb, -⟩ := List.nodup_cons.1 hnodup
  have hrest : ∀ c ∈ rest, ((powerBlade w b).st.blade c).state = .waitPower := fun c hc => by
    have hne : c ≠ b := fun h => hb (h ▸ hc)
    have hin : c ∈ w.st.bladeWait := by rw [hwait]; exact List.mem_cons_of_mem b hc
    rw [powerBlade_blade, if_neg hne]
    exact of_decide_eq_true (List.mem_filter.1 hin).2
  have hone : restoreBlades (b :: rest) w = restoreBlades rest (powerBlade w b) := by
    conv => lhs; unfold restoreBlades
    rw [if_pos hfits]
  have hblades := settled_restoreBlades rest (powerBlade w b) hrest (.refl _)
  have hsettled : Settled (powerBlade w b).st (restoreProcess w).st := by
    unfold restoreProcess
    rw [hwait, hone]
    dsimp only
    refine settled_ite ?_ hblades
    have hshed := settled_restoreShed (restoreOrder (restoreBlades rest (powerBlade w b)).1.st) _ hblades
    exact settled_ite (settled_restoreWaiting _ _ hshed) hshed
  exact hsettled.blade b (by rw [powerBlade_blade, if_pos rfl]; nofun)

theorem restoreProcess_blade_stops {rest : List Slot} (w : Work) (hwait : w.st.bladeWait = b :: rest)
    (hover : w.st.headroom < ((w.st.plu.inUse.defaultBase + w.st.plu.inUse.margin : Nat) : Int)) : restoreProcess w = w := by
  have hstop : restoreBlades (b :: rest) w = (w, false) := if_neg (Int.not_le.2 hover)
  unfold restoreProcess
  rw [hwait, hstop]
  rfl

theorem restoreProcess_of_noBlade (w : Work) (hwait : w.st.bladeWait = []) : restoreProcess w =
    if (restoreShed (restoreOrder w.st) w).2 then
      restoreWaiting (restoreShed (restoreOrder w.st) w).1.st.pbu.waitList (restoreShed (restoreOrder w.st) w).1
    else (restoreShed (restoreOrder w.st) w).1 := by
  unfold restoreProcess
  rw [hwait]
  rfl

/-! ### The ports -/

theorem toGoingUp_port (w : Work) (p : PortRef) (c : PortConfig) (a : OrderAction) :
    (toGoingUp w p c a).st.port p = { w.st.port p with state := .goingUp, cause := .none, granted := some c } := by
  unfold toGoingUp
  show (handOrder _ _ _).port p = _
  rw [port_handOrder, Work.setPort_st, State.port_setPort, if_pos rfl]

theorem toGoingUp_pbu (w : Work) (p : PortRef) (c : PortConfig) (a : OrderAction) : (toGoingUp w p c a).st.pbu = w.st.pbu := by
  unfold toGoingUp
  show (handOrder _ _ _).pbu = _
  rw [handOrder_rest]
  rfl

theorem restorePort_st {c : PortConfig} (h : (w.st.port p).granted = some c) : (restorePort w p).st = (toGoingUp w p c .enable).st := by
  unfold restorePort
  rw [h]
  rfl

theorem restorePort_pbu (w : Work) (p : PortRef) : (restorePort w p).st.pbu = w.st.pbu := by
  cases h : (w.st.port p).granted with
  | none =>
    unfold restorePort
    rw [h]
  | some c => rw [restorePort_st h, toGoingUp_pbu]

theorem restoreShed_pbu : ∀ (l : List PortRef) (w : Work), (restoreShed l w).1.st.pbu = w.st.pbu
  | [], _ => rfl
  | p :: l, w => by
    unfold restoreShed
    dsimp only
    split
    all_goals
      split
      · rw [restoreShed_pbu l, restorePort_pbu]
      · rfl

theorem apart_restoreShed : ∀ (l : List PortRef) (w : Work), (∀ q ∈ l, q ≠ p) → Apart p w.st (restoreShed l w).1.st
  | [], w, _ => .refl p w.st
  | q :: l, w, hl => by
    have hnext := (apart_restorePort (hl q List.mem_cons_self) w).trans
      (apart_restoreShed l (restorePort w q) fun a ha => hl a (List.mem_cons_of_mem q ha))
    unfold restoreShed
    dsimp only
    split
    all_goals
      split
      · exact hnext
      · exact .refl p w.st

theorem apart_restoreWaiting : ∀ (l : List PowerWait) (w : Work), (∀ e ∈ l, e.port ≠ p) → Apart p w.st (restoreWaiting l w).st
  | [], w, _ => .refl p w.st
  | e :: l, w, hl => by
    have hnext : ∀ fits, Apart p w.st (restoreWaiting l (completeMove (leavePower w e.port) e.port fits true)).st := fun fits =>
      ((apart_leavePower w e.port).trans (apart_completeMove (hl e List.mem_cons_self) _ _ _)).trans
        (apart_restoreWaiting l _ fun a ha => hl a (List.mem_cons_of_mem e ha))
    unfold restoreWaiting
    dsimp only
    split
    · exact apart_restoreWaiting l w fun a ha => hl a (List.mem_cons_of_mem e ha)
    · split
      all_goals
        split
        · exact hnext _
        · exact .refl p w.st

/-- The first port of the restore order decides. -/
theorem restoreShed_head {l : List PortRef} {c : PortConfig} (w : Work) (hc : (w.st.port p).granted = some c) :
    restoreShed (p :: l) w = if ((portDraw w.st.plu.inUse c (w.st.port p).optic + w.st.plu.inUse.margin : Nat) : Int) ≤ w.st.headroom then
      restoreShed l (restorePort w p) else (w, false) := by
  conv => lhs; unfold restoreShed
  dsimp only
  rw [hc]

/-- A port that is the first to be restored is taken out of SHED, and the rest of the process leaves it. -/
theorem restoreProcess_shed {c : PortConfig} (w : Work) (hmatch : w.st.waitsMatch) (hwait : w.st.bladeWait = []) (hp : w.st.restorable p)
    (hc : (w.st.port p).granted = some c) (hfirst : ∀ q, w.st.restorable q → q ≠ p → w.st.restoresBefore p q) :
    (((portDraw w.st.plu.inUse c (w.st.port p).optic + w.st.plu.inUse.margin : Nat) : Int) ≤ w.st.headroom →
      (restoreProcess w).st.port p = { w.st.port p with state := .goingUp, cause := .none, granted := some c }) ∧
    (w.st.headroom < ((portDraw w.st.plu.inUse c (w.st.port p).optic + w.st.plu.inUse.margin : Nat) : Int) → restoreProcess w = w) := by
  obtain ⟨l, horder, hl⟩ := restoreOrder_head hp hfirst
  obtain ⟨-, hlist, -⟩ := hmatch
  have hwaiting : ∀ e ∈ w.st.pbu.waitList, e.port ≠ p := fun e he h => by
    have hstate := hlist e he
    rw [h, hp.2.2] at hstate
    cases hstate
  rw [restoreProcess_of_noBlade w hwait, horder, restoreShed_head w hc]
  refine ⟨fun hfits => ?_, fun hover => ?_⟩
  · rw [if_pos hfits]
    have hshed := apart_restoreShed l (restorePort w p) hl
    have hpbu := restoreShed_pbu l (restorePort w p)
    rw [restorePort_pbu] at hpbu
    have hone : (restorePort w p).st.port p = { w.st.port p with state := .goingUp, cause := .none, granted := some c } := by
      rw [restorePort_st hc, toGoingUp_port]
    rw [← hone, ← hshed.port]
    generalize restoreShed l (restorePort w p) = x at hpbu ⊢
    split
    · rw [hpbu]
      exact (apart_restoreWaiting _ x.1 hwaiting).port
    · rfl
  · rw [if_neg (Int.not_le.2 hover)]
    rfl

/-! ### The power wait list -/

theorem restoreWaiting_skip : ∀ (l : List PowerWait) (w : Work) (e : PowerWait), l.find? (fun x => !w.st.hot x.port.slot) = some e →
    ∃ rest, restoreWaiting l w = restoreWaiting (e :: rest) w ∧ ∃ front, l = front ++ e :: rest
  | [], _, _, h => by cases h
  | x :: l, w, e, h => by
    cases hhot : w.st.hot x.port.slot with
    | false =>
      rw [List.find?_cons_of_pos (by rw [hhot]; rfl)] at h
      obtain rfl := Option.some.inj h
      exact ⟨l, rfl, [], rfl⟩
    | true =>
      rw [List.find?_cons_of_neg (by rw [hhot]; nofun)] at h
      obtain ⟨rest, heq, front, hfront⟩ := restoreWaiting_skip l w e h
      refine ⟨rest, ?_, x :: front, by rw [hfront]; rfl⟩
      rw [← heq]
      conv => lhs; unfold restoreWaiting
      dsimp only
      rw [if_pos hhot]

/-- The first port of the wait list that is not on a HOT blade decides. -/
theorem restoreWaiting_head {rest : List PowerWait} {e : PowerWait} {c : PortConfig} (w : Work) (hhot : w.st.hot e.port.slot = false)
    (hc : (w.st.port e.port).request = some c) : restoreWaiting (e :: rest) w =
      if ((portDraw w.st.plu.inUse c (w.st.port e.port).optic + w.st.plu.inUse.margin : Nat) : Int) ≤ w.st.headroom then
        restoreWaiting rest (completeMove (leavePower w e.port) e.port
          ((w.st.queue e.port.slot).isEmpty && w.st.licenceFits e.port.slot c.units) true)
      else w := by
  conv => lhs; unfold restoreWaiting
  dsimp only
  rw [if_neg (by rw [hhot]; nofun), hc]

/-- A port that completes its move with its power granted. -/
theorem completeMove_port {c : PortConfig} (w : Work) (licence : Bool) (hc : (w.st.port p).request = some c) (hxd : c.xd = false)
    (hhot : w.st.hot p.slot = false) : (completeMove w p licence true).st.port p =
      if licence then { w.st.port p with state := .goingUp, cause := .none, granted := some c }
      else { w.st.port p with state := .waitLicense } := by
  unfold completeMove
  rw [hc]
  dsimp only
  rw [hxd, Bool.false_and, if_neg nofun]
  unfold decideAdmission
  cases licence with
  | true =>
    rw [if_pos rfl, if_pos rfl, if_pos rfl]
    unfold chargePort
    rw [if_neg (by rw [hhot]; nofun), toGoingUp_port]
  | false =>
    rw [if_neg nofun, if_neg nofun]
    show ((w.st.setPort p { w.st.port p with state := .waitLicense }).setQueue _ _).port p = _
    exact (State.port_setPort _ _ _ _).trans (if_pos rfl)

/-- The port of the wait list that is the first to be tried is admitted, and the rest of the process leaves it. -/
theorem restoreProcess_waiting {c : PortConfig} {e : PowerWait} (w : Work) (hmatch : w.st.waitsMatch) (hwait : w.st.bladeWait = [])
    (hnone : ∀ q, ¬w.st.restorable q) (hfind : w.st.pbu.waitList.find? (fun x => !w.st.hot x.port.slot) = some e)
    (hc : (w.st.port e.port).request = some c) (hxd : c.xd = false) :
    (((portDraw w.st.plu.inUse c (w.st.port e.port).optic + w.st.plu.inUse.margin : Nat) : Int) ≤ w.st.headroom →
      (restoreProcess w).st.port e.port =
        if (w.st.queue e.port.slot).isEmpty && w.st.licenceFits e.port.slot c.units then
          { w.st.port e.port with state := .goingUp, cause := .none, granted := some c }
        else { w.st.port e.port with state := .waitLicense }) ∧
    (w.st.headroom < ((portDraw w.st.plu.inUse c (w.st.port e.port).optic + w.st.plu.inUse.margin : Nat) : Int) → restoreProcess w = w) := by
  have horder : restoreOrder w.st = [] := List.eq_nil_iff_forall_not_mem.2 fun q hq => hnone q ((mem_restoreOrder_iff w.st q).1 hq)
  have hhot : w.st.hot e.port.slot = false := by
    have h := List.find?_some hfind
    rwa [Bool.not_eq_true'] at h
  obtain ⟨rest, hskip, front, hfront⟩ := restoreWaiting_skip _ w e hfind
  have hdistinct : ∀ x ∈ rest, x.port ≠ e.port := by
    obtain ⟨-, -, hnodup⟩ := hmatch
    rw [hfront, List.map_append, List.map_cons] at hnodup
    obtain ⟨-, htail, -⟩ := List.nodup_append.1 hnodup
    exact fun x hx h => (List.nodup_cons.1 htail).1 (List.mem_map.2 ⟨x, hx, h⟩)
  have heq : restoreProcess w = restoreWaiting w.st.pbu.waitList w := by
    rw [restoreProcess_of_noBlade w hwait, horder]
    rfl
  rw [heq, hskip, restoreWaiting_head w hhot hc]
  refine ⟨fun hfits => ?_, fun hover => by rw [if_neg (Int.not_le.2 hover)]⟩
  rw [if_pos hfits, (apart_restoreWaiting rest _ hdistinct).port]
  exact completeMove_port (leavePower w e.port) _ hc hxd hhot

/-- The first candidate of the restore process decides. -/
theorem restoreProcess_follows (w : Work) : restoreFollows w.st (restoreProcess w).st := by
  refine ⟨fun b rest hwait => ⟨fun hfits => ?_, fun hover => ?_⟩, fun p c hmatch hwait hp hc hfirst => ?_, fun e c hmatch hwait hnone hfind hc hxd => ?_⟩
  · rw [restoreProcess_blade w hwait hfits, powerBlade_blade, if_pos rfl]
    exact ⟨rfl, rfl, rfl⟩
  · rw [restoreProcess_blade_stops w hwait hover]
    exact ⟨rfl, rfl, rfl⟩
  · obtain ⟨hfit, hstop⟩ := restoreProcess_shed w hmatch hwait hp hc hfirst
    refine ⟨fun hfits => ?_, fun hover => ?_⟩
    · rw [hfit hfits]
      exact ⟨rfl, rfl, rfl⟩
    · rw [hstop hover]
      exact ⟨rfl, rfl, rfl⟩
  · obtain ⟨hfit, hstop⟩ := restoreProcess_waiting w hmatch hwait hnone hfind hc hxd
    refine ⟨fun hfits => ⟨fun hempty hlicence => ?_, fun hrefused => ?_⟩, fun hover => ?_⟩
    · rw [hfit hfits, hempty, hlicence]
      exact ⟨rfl, rfl⟩
    · have hno : ((w.st.queue e.port.slot).isEmpty && w.st.licenceFits e.port.slot c.units) = false := by
        rw [Bool.and_eq_false_iff, ← Bool.not_eq_true, List.isEmpty_iff]
        exact hrefused
      rw [hfit hfits, hno]
      rfl
    · rw [hstop hover]
      exact ⟨rfl, rfl, rfl, rfl⟩

/-- Settles O53: what follows a supply that is no longer counted, and the restore process behind the holdoff. -/
theorem powerTimersRunOut : Obligations.PowerTimersRunOut := by
  refine ⟨fun i s hstate hdue => ?_, fun s hdue => ?_⟩
  · have hc : (decide ((s.pbu.psus.get i).state = .inputLost) && ranOut (s.pbu.psus.get i).graceAt s.now) = true := by rw [hstate, hdue]; rfl
    show ∃ t, execGraceExpiry i s = .next t ∧ _
    unfold execGraceExpiry
    refine answered hc ?_
    dsimp only
    generalize hv : Work.raise _ _ _ = v
    have hst : v.st = (s.setPins s.pins).setPbu
        { s.pbu with psus := Vector.put s.pbu.psus i { s.pbu.psus.get i with graceAt := none, expired := true } } := by rw [← hv]; rfl
    have hfollowed := afterPsu_followed v (by rw [← hv]; rfl) (by rw [← hv]; rfl)
    rw [hst] at hfollowed
    generalize afterPsu v = w at hfollowed ⊢
    obtain ⟨hpins, hpsus, hhold, hports, hframe⟩ := PsuFollowed.left s hfollowed
    obtain ⟨hi, hothers⟩ := psus_put hpsus
    have hcounted : ((publish s w).pbu.psus.get i).counted = false := by
      rw [hi]
      unfold Psu.counted
      rw [hstate]
      rfl
    rw [hpins] at hframe
    exact ⟨hi, hcounted, usableOf_uncounted hcounted, hothers, hhold, hports, hframe⟩
  · show ∃ t, execRestoreHoldoffExpiry s = .next t ∧ _
    refine answered hdue ?_
    cases hhold : s.pbu.hold with
    | true =>
      rw [if_pos rfl]
      generalize hw : Work.setPbu _ _ = w
      have hst : w.st = s.setPbu { s.pbu with holdoffAt := none, restorePending := true } := by rw [← hw, ← hhold]; rfl
      have hadmits : Admits s w.st := by
        rw [hst]
        exact { Admits.refl s with }
      refine ⟨by rw [publish_pbu, hst]; rfl, by rw [publish_pbu, hst]; rfl, fun _ => ?_, nofun, fun q => ?_, hadmits.frame s⟩
      · rw [publish_pau, publish_blc, publish_lu, hst]
        exact ⟨rfl, rfl, rfl⟩
      · show (w.st.port q).asks = _
        rw [hst]
        rfl
    | false =>
      rw [if_neg nofun]
      generalize hv : Work.setPbu _ _ = v
      have hst : v.st = s.setPbu { s.pbu with holdoffAt := none, restorePending := false } := by rw [← hv]; rfl
      have hfollows := restoreProcess_follows v
      have hview := budgetView_restoreProcess v
      have hsettled := settled_restoreProcess (Settled.refl v.st) fun _ h => h
      rw [hst] at hfollows hview hsettled
      generalize restoreProcess v = w at hfollows hview hsettled ⊢
      have hadmits : Admits s w.st := { hsettled.admits with }
      have hholdoff : w.st.pbu.holdoffAt = none := congrArg Pbu.holdoffAt hview
      have hpending : w.st.pbu.restorePending = false := congrArg Pbu.restorePending hview
      exact ⟨hholdoff, hpending, nofun, fun _ => hfollows, hsettled.asks s, hadmits.frame s⟩

end Sys2Proof.Machine
end

section
/-! PROOFS. Fans: tach pulses, the window end, trays, spin-up and freshness. -/

set_option Elab.async false

namespace Sys2Proof.Machine

variable {r s t u : State} {w : Work} {b : Slot}

/-! ### What a command on the fans leaves -/

/-- What the work of a fan command leaves of all but the FTU, before it settles. -/
structure FanMoved (s t : State) : Prop where
  admits : Admits (s.setFtu t.ftu) t
  ports : ∀ q, PortKept (s.port q) (t.port q)

theorem fansFollow_congr (hftu : t.ftu = s.ftu) (hplu : t.plu = s.plu) (hderate : t.pbu.derate = s.pbu.derate) (h : s.fansFollow) :
    t.fansFollow := by
  unfold State.fansFollow
  rw [hftu, hplu, hderate]
  exact h

/-- What is left behind the settling of a fan command. -/
theorem FanMoved.left {v : Work} (o : State) (h : FanMoved s v.st) {t : State} (ht : t = publish o (settle v)) :
    t.pins = s.pins ∧ t.ftu = v.st.ftu ∧ (v.st.fansFollow → t.fansFollow) ∧ (∀ z, t.targetDuty z = v.st.targetDuty z) ∧
      (∀ q, (t.port q).asks = (s.port q).asks) ∧ admissionFrame { s with ftu := t.ftu } t := by
  subst ht
  have hsettled := settle_settled v
  have hduty := dutyView_settle v
  generalize settle v = w at hsettled hduty ⊢
  have hadmits := h.admits.trans hsettled.admits
  refine ⟨hadmits.pins, hsettled.ftu, fun hf => fansFollow_congr hsettled.ftu hsettled.plu hsettled.derate hf,
    fun z => targetDuty_of_dutyView (t := publish o w) hduty z, fun q => ((h.ports q).trans (hsettled.port q)).asks, ?_⟩
  have hframe := hadmits.frame o
  rw [publish_ftu, hsettled.ftu]
  exact hframe

/-! ### The targets -/

/-- A rotor at a step of its zone's duty. -/
def RotorRec.stepped (x : RotorRec) (steps : Prop) [Decidable steps] (now : Nat) : RotorRec :=
  if steps ∧ (x.state = .ok ∨ x.state = .spinup) then x.enter .spinup now else x

theorem zoneStep_rotor (s : State) (z : FanZone) (r : Rotor) : (zoneStep s z).ftu.rotors.get r =
    if zoneOfRotor r = z then (s.ftu.rotors.get r).stepped ((s.ftu.zones.get z).driven + 20 ≤ s.targetDuty z) s.now else s.ftu.rotors.get r := by
  unfold zoneStep RotorRec.stepped
  dsimp only
  by_cases hstep : (s.ftu.zones.get z).driven + 20 ≤ s.targetDuty z
  · rw [if_pos hstep]
    show (dutyStep _ _ z).rotors.get r = _
    unfold dutyStep
    rw [Vector.get_mapIx]
    by_cases hz : zoneOfRotor r = z
    · rw [if_pos hz]
      exact if_congr (and_congr_left' ⟨fun _ => hstep, fun _ => hz⟩) rfl rfl
    · rw [if_neg hz, if_neg fun h => hz h.1]
  · have hno : ¬((s.ftu.zones.get z).driven + 20 ≤ s.targetDuty z ∧
        ((s.ftu.rotors.get r).state = .ok ∨ (s.ftu.rotors.get r).state = .spinup)) := fun h => hstep h.1
    rw [if_neg hstep, if_neg hno, ite_self]
    rfl

/-- The rotors at the computation of the targets. -/
theorem targetStep_rotor (w : Work) (r : Rotor) : (targetStep w).st.ftu.rotors.get r = (w.st.ftu.rotors.get r).stepped
    ((w.st.ftu.zones.get (zoneOfRotor r)).driven + 20 ≤ w.st.targetDuty (zoneOfRotor r)) w.st.now := by
  have hfirst := targeted_zoneStep w.st 0
  have hst : (targetStep w).st = zoneStep (zoneStep w.st 0) 1 := rfl
  have hnow : (zoneStep w.st 0).now = w.st.now := by rw [hfirst.rest]; rfl
  rw [hst, zoneStep_rotor, zoneStep_rotor, hfirst.targetDuty, hfirst.other 1 (by decide), hnow]
  generalize zoneOfRotor r = z
  match z with
  | 0 => rfl
  | 1 => rfl

theorem fansFollow_targetStep (w : Work) (h : w.st.fansFollow) : (targetStep w).st.fansFollow :=
  (kept_foldl (k := ⟨False, False, False, True, False⟩) zoneStep kept_zoneStep (indices 2) w.st).fans trivial h

theorem mem_zones (z : FanZone) : z ∈ [(0 : FanZone), 1] := by
  match z with
  | 0 => exact List.mem_cons_self
  | 1 => exact List.mem_cons_of_mem _ List.mem_cons_self

/-- The computation of the targets is a step of the fans alone. -/
theorem fanMoved_targetStep {v : Work} (h : FanMoved s v.st) : FanMoved s (targetStep v).st := by
  have hrest := (targeted_targetStep v).rest
  generalize targetStep v = w at hrest ⊢
  rw [hrest]
  exact ⟨{ h.admits with ftu := rfl }, h.ports⟩

theorem fanMoved_fanConsequences {v : Work} (h : FanMoved s v.st) (before : Ftu) : FanMoved s (fanConsequences v before).st := by
  rw [fanConsequences_st]
  exact ⟨{ h.admits with ftu := rfl }, h.ports⟩

theorem fanMoved_setFtu {v : Work} (h : FanMoved s v.st) (x : Ftu) : FanMoved s (v.st.setFtu x) := ⟨{ h.admits with ftu := rfl }, h.ports⟩

theorem FanMoved.refl (s : State) : FanMoved s s := ⟨.refl s, fun _ => .refl _⟩

/-! ### The window end -/

/-- The judgement of a rotor in OK, SLOW or STALLED. -/
def RotorRec.settledState (x : RotorRec) (now : Nat) : RotorRec :=
  if x.addWindow.judged = x.addWindow.state then x.addWindow else x.addWindow.enter x.addWindow.judged now

theorem judge_of_judged (x : RotorRec) (now : Nat) (h : x.state ≠ .absent ∧ x.state ≠ .spinup) : x.judge now = x.settledState now := by
  unfold RotorRec.judge RotorRec.settledState
  obtain ⟨habsent, hspinup⟩ := h
  split
  · next e => exact absurd e habsent
  · next e => exact absurd e hspinup
  · rfl

theorem settledState_left (x : RotorRec) (now : Nat) : (x.settledState now).count = x.count ∧ (x.settledState now).lastCount = x.lastCount ∧
    (x.settledState now).speed = x.speed ∧ (x.settledState now).expected = x.expected ∧ (x.settledState now).state = x.addWindow.judged := by
  unfold RotorRec.settledState
  split
  · next e => exact ⟨rfl, rfl, rfl, rfl, e.symm⟩
  · exact ⟨rfl, rfl, rfl, rfl, rfl⟩

/-- The streaks of a recorded window decide as the manual's table does. -/
theorem judged_record (x : RotorRec) (expected : Nat) : (x.record expected).addWindow.judged = judgement x expected := by
  have hlow : (decide (x.count * 30 < expected) || decide (x.count = 0)) = decide (x.count = 0 ∨ 30 * x.count < expected) := by
    rw [Nat.mul_comm, Bool.or_comm, Bool.decide_or]
  unfold RotorRec.judged judgement RotorRec.addWindow RotorRec.record
  dsimp only
  rw [hlow]
  simp only [decide_eq_true_eq]
  cases hstate : x.state with
  | ok => rfl
  | slow => rfl
  | spinup => rfl
  | absent => rfl
  | stalled =>
    by_cases hzero : x.count = 0
    · simp only [hzero, Nat.lt_irrefl, and_false, if_false, if_true]
    · simp only [Nat.pos_of_ne_zero hzero, hzero, and_self, if_false, if_true]

/-- The record of a window and its judgement. -/
theorem judge_left (x : RotorRec) (expected now : Nat) :
    ((x.record expected).judge now).count = 0 ∧ ((x.record expected).judge now).lastCount = x.count ∧
    ((x.record expected).judge now).speed = 30 * x.count ∧ ((x.record expected).judge now).expected = expected ∧
    ((x.record expected).judge now).state = judgement x expected := by
  have hspeed : x.count * 30 = 30 * x.count := Nat.mul_comm _ _
  by_cases h : x.state ≠ .absent ∧ x.state ≠ .spinup
  · have hleft := settledState_left (x.record expected) now
    rw [judge_of_judged (x.record expected) now h, ← judged_record, ← hspeed]
    exact hleft
  · have hsame : (x.record expected).judge now = x.record expected ∧ judgement x expected = x.state := by
      rw [not_and_or, not_not, not_not] at h
      have hstate : (x.record expected).state = x.state := rfl
      unfold RotorRec.judge judgement
      rw [hstate]
      rcases h with e | e <;> rw [e] <;> exact ⟨rfl, rfl⟩
    rw [hsame.1, hsame.2, ← hspeed]
    exact ⟨rfl, rfl, rfl, rfl, rfl⟩

theorem stepped_left (x : RotorRec) (steps : Prop) [Decidable steps] (now : Nat) :
    (x.stepped steps now).count = x.count ∧ (x.stepped steps now).lastCount = x.lastCount ∧ (x.stepped steps now).speed = x.speed ∧
    (x.stepped steps now).expected = x.expected ∧
    (x.stepped steps now).state = if (x.state = .ok ∨ x.state = .spinup) ∧ steps then .spinup else x.state := by
  unfold RotorRec.stepped
  by_cases h : steps ∧ (x.state = .ok ∨ x.state = .spinup)
  · rw [if_pos h, if_pos h.symm]
    exact ⟨rfl, rfl, rfl, rfl, rfl⟩
  · rw [if_neg h, if_neg fun g => h g.symm]
    exact ⟨rfl, rfl, rfl, rfl, rfl⟩

/-- The FTU as a window end records and judges its rotors. -/
def Ftu.judgedWindow (f : Ftu) (rated now : Nat) : Ftu :=
  { f with
    rotors := Vector.mapIx f.rotors (fun r x => (x.record (expectedMinimum rated (f.zones.get (zoneOfRotor r)).lowest)).judge now)
    windowAt := f.windowAt + sec 1 }

/-- The state at a window end once trays, L and f follow its judgements. -/
def windowJudged (w : Work) : Work :=
  fanConsequences (w.setFtu (w.st.ftu.judgedWindow w.st.plu.inUse.ratedSpeed w.st.now)) w.st.ftu

theorem windowEnd_st (w : Work) : (windowEnd w).st =
    (targetStep (windowJudged w)).st.setFtu { (targetStep (windowJudged w)).st.ftu with
      zones := (targetStep (windowJudged w)).st.ftu.zones.map FanZoneRec.fall } := by
  unfold windowEnd windowJudged
  rfl

/-- What the computation of the targets at a window end finds. -/
theorem windowJudged_left (w : Work) :
    (windowJudged w).st.ftu.zones = w.st.ftu.zones ∧ (windowJudged w).st.ftu.temps = w.st.ftu.temps ∧ (windowJudged w).st.now = w.st.now ∧
    (windowJudged w).st.ftu.windowAt = w.st.ftu.windowAt + sec 1 ∧ (windowJudged w).st.fansFollow ∧
    ∀ r, (windowJudged w).st.ftu.rotors.get r = ((w.st.ftu.rotors.get r).record
      (w.st.plu.inUse.ratedSpeed * (w.st.ftu.zones.get (zoneOfRotor r)).lowest * 70 / 10000)).judge w.st.now := by
  have hfollow : (windowJudged w).st.fansFollow := by
    unfold windowJudged
    rw [fanConsequences_st]
    exact fansFollow_derived _ _ rfl
  have hftu : (windowJudged w).st.ftu = (w.st.ftu.judgedWindow w.st.plu.inUse.ratedSpeed w.st.now).derived w.st.plu.inUse := by
    unfold windowJudged
    rw [fanConsequences_st, State.setPbu_ftu, State.setFtu_ftu]
    rfl
  have hnow : (windowJudged w).st.now = w.st.now := by
    unfold windowJudged
    rw [fanConsequences_st]
    rfl
  rw [hftu]
  refine ⟨by simp only [Ftu.derived, Ftu.judgedWindow], by simp only [Ftu.derived, Ftu.judgedWindow], hnow,
    by simp only [Ftu.derived, Ftu.judgedWindow], hfollow, fun r => ?_⟩
  simp only [Ftu.derived, Ftu.judgedWindow, Vector.get_mapIx, expectedMinimum]

theorem fall_left (x : FanZoneRec) (old target : Nat) (htarget : x.target = target) (hdriven : x.driven = max old target) :
    x.fall.lowest = x.fall.driven ∧ x.fall.target = target ∧ x.fall.driven = if old ≤ target then target else max target (old - 5) := by
  unfold FanZoneRec.fall
  dsimp only
  refine ⟨rfl, htarget, ?_⟩
  rw [htarget, hdriven]
  split <;> split <;> omega

/-- Settles O54: a pulse counts, and a window end records, judges and computes the duties. -/
theorem tachPulsesAreCountedByTheWindow : Obligations.TachPulsesAreCountedByTheWindow := by
  refine ⟨fun r s => ?_, fun s hdue => ?_⟩
  · show ∃ t, execTachPulse r s = .next t ∧ _
    refine finished ?_
    generalize hw : setRotor _ _ _ = w
    have hst : w.st = s.setFtu { s.ftu with
        rotors := Vector.put s.ftu.rotors r { s.ftu.rotors.get r with count := min 1023 ((s.ftu.rotors.get r).count + 1) } } := by
      rw [← hw]
      rfl
    have hmoved : TmcMoved (s.setFtu w.st.ftu) w.st := by
      rw [hst]
      exact .refl _
    have hrotors : (publish s w).ftu.rotors =
        Vector.put s.ftu.rotors r { s.ftu.rotors.get r with count := min 1023 ((s.ftu.rotors.get r).count + 1) } := by
      rw [publish_ftu, hst]
      rfl
    refine ⟨by rw [hrotors, Vector.get_put, if_pos rfl], fun q hq => by rw [hrotors, Vector.get_put, if_neg hq], hmoved.background s, ?_⟩
    have hframe := hmoved.frame s
    rw [hst] at hframe
    rw [hrotors]
    exact hframe
  · show ∃ t, execMeasurementWindowEnd s = .next t ∧ _
    refine answered (decide_eq_true hdue) ?_
    obtain ⟨hzones, htemps, hnow, hwindow, hfollow, hrotor⟩ := windowJudged_left (Work.start s)
    have hmoved : FanMoved s (windowEnd (Work.start s)).st := by
      rw [windowEnd_st]
      exact fanMoved_setFtu (fanMoved_targetStep (fanMoved_fanConsequences (v := (Work.start s).setFtu _) (fanMoved_setFtu (.refl s) _) _)) _
    generalize ht : publish s _ = t
    obtain ⟨-, hftu, hfans, hduty, hports, hframe⟩ := hmoved.left s ht.symm
    have htargeted := targeted_targetStep (windowJudged (Work.start s))
    have hstep := targetStep_rotor (windowJudged (Work.start s))
    have hsteps := fansFollow_targetStep _ hfollow
    have hst := windowEnd_st (Work.start s)
    generalize windowEnd (Work.start s) = v at hmoved hftu hfans hduty hst
    generalize targetStep (windowJudged (Work.start s)) = x at htargeted hstep hsteps hst
    generalize (windowJudged (Work.start s)).st = y at hzones htemps hnow hwindow hrotor htargeted hstep
    have hv : t.ftu = { x.st.ftu with zones := x.st.ftu.zones.map FanZoneRec.fall } := by rw [hftu, hst]; rfl
    have hx := htargeted.rest
    have hzone : ∀ z, t.ftu.zones.get z = (x.st.ftu.zones.get z).fall := fun z => by
      rw [hv]
      exact Vector.getElem_map FanZoneRec.fall z.2
    have htarget : ∀ z, t.targetDuty z = y.targetDuty z := fun z => by
      rw [hduty, ← htargeted.targetDuty, hst]
      exact targetDuty_congr z rfl rfl rfl fun _ => rfl
    have hfall : ∀ z, (t.ftu.zones.get z).lowest = (t.ftu.zones.get z).driven ∧ (t.ftu.zones.get z).target = t.targetDuty z ∧
        (t.ftu.zones.get z).driven = if (s.ftu.zones.get z).driven ≤ t.targetDuty z then t.targetDuty z
          else max (t.targetDuty z) ((s.ftu.zones.get z).driven - 5) := fun z => by
      obtain ⟨hz, hdriven⟩ := htargeted.zone z (mem_zones z)
      rw [hzone, htarget]
      rw [hzones] at hdriven
      exact fall_left _ _ _ hz hdriven
    have hr : ∀ r, t.ftu.rotors.get r = (((s.ftu.rotors.get r).record
        (s.plu.inUse.ratedSpeed * (s.ftu.zones.get (zoneOfRotor r)).lowest * 70 / 10000)).judge s.now).stepped
          ((s.ftu.zones.get (zoneOfRotor r)).driven + 20 ≤ t.targetDuty (zoneOfRotor r)) s.now := fun r => by
      have h := hstep r
      rw [hrotor, hzones, hnow] at h
      rw [hv, htarget]
      exact h
    refine ⟨?_, fun r => ?_, fun r st hjudged => ?_, fun z => ?_, hfans ?_, ?_, hports, hframe⟩
    · rw [hv]
      show x.st.ftu.windowAt = _
      rw [hx]
      exact hwindow
    · obtain ⟨hcount, hlast, hspeed, hexpected, -⟩ := judge_left (s.ftu.rotors.get r)
        (s.plu.inUse.ratedSpeed * (s.ftu.zones.get (zoneOfRotor r)).lowest * 70 / 10000) s.now
      rw [hr]
      obtain ⟨h1, h2, h3, h4, -⟩ := stepped_left (((s.ftu.rotors.get r).record
        (s.plu.inUse.ratedSpeed * (s.ftu.zones.get (zoneOfRotor r)).lowest * 70 / 10000)).judge s.now)
          ((s.ftu.zones.get (zoneOfRotor r)).driven + 20 ≤ t.targetDuty (zoneOfRotor r)) s.now
      exact ⟨h1.trans hcount, h2.trans hlast, h3.trans hspeed, h4.trans hexpected⟩
    · obtain ⟨-, -, -, -, hstate⟩ := judge_left (s.ftu.rotors.get r)
        (s.plu.inUse.ratedSpeed * (s.ftu.zones.get (zoneOfRotor r)).lowest * 70 / 10000) s.now
      obtain ⟨-, hz, -⟩ := hfall (zoneOfRotor r)
      rw [hr, hz, hjudged, ← hstate]
      exact (stepped_left _ _ _).2.2.2.2
    · obtain ⟨hlowest, hz, hdriven⟩ := hfall z
      rw [← hz] at hdriven
      exact ⟨hlowest, hz, hdriven⟩
    · rw [hst]
      exact hsteps
    · rw [hv]
      show x.st.ftu.temps = _
      rw [hx]
      exact htemps

/-! ### Trays, spin-up and freshness -/

/-- A change of rotors, with what follows it: the rotors of the zones step only where the duty does. -/
def rotorsChanged (v : Work) (before : Ftu) : Work := targetStep (fanConsequences v before)

theorem rotorsChanged_left {v : Work} (before : Ftu) (hv : FanMoved s v.st) (o : State) {t : State}
    (ht : t = publish o (settle (rotorsChanged v before))) :
    t.pins = s.pins ∧ t.fansFollow ∧ t.ftu.temps = v.st.ftu.temps ∧ (∀ z, (t.ftu.zones.get z).target = t.targetDuty z) ∧
      (∀ r, t.ftu.rotors.get r = (v.st.ftu.rotors.get r).stepped
        ((v.st.ftu.zones.get (zoneOfRotor r)).driven + 20 ≤ t.targetDuty (zoneOfRotor r)) v.st.now) ∧
      (∀ k, t.ftu.trays.get k = v.st.ftu.trayNow k) ∧ t.ftu.lost = v.st.ftu.lostNow ∧
      ((∀ k, v.st.ftu.trays.get k = v.st.ftu.trayNow k) → ∀ z, t.targetDuty z = v.st.targetDuty z) ∧
      (∀ q, (t.port q).asks = (s.port q).asks) ∧ admissionFrame { s with ftu := t.ftu } t := by
  have hmoved : FanMoved s (rotorsChanged v before).st := fanMoved_targetStep (fanMoved_fanConsequences hv before)
  obtain ⟨hpins, hftu, hfans, hduty, hports, hframe⟩ := hmoved.left o ht
  have htargeted := targeted_targetStep (fanConsequences v before)
  have hstep := targetStep_rotor (fanConsequences v before)
  have hfollow : (fanConsequences v before).st.fansFollow := by
    rw [fanConsequences_st]
    exact fansFollow_derived _ _ rfl
  have hfollows := fansFollow_targetStep _ hfollow
  have hderived : (fanConsequences v before).st.ftu = v.st.ftu.derived v.st.plu.inUse := by
    rw [fanConsequences_st]
    rfl
  have hnow : (fanConsequences v before).st.now = v.st.now := by
    rw [fanConsequences_st]
    rfl
  have hplu : (fanConsequences v before).st.plu = v.st.plu := by
    rw [fanConsequences_st]
    rfl
  have hpau : (fanConsequences v before).st.pau = v.st.pau := by
    rw [fanConsequences_st]
    rfl
  change t.ftu = (targetStep (fanConsequences v before)).st.ftu at hftu
  change ∀ z, t.targetDuty z = (targetStep (fanConsequences v before)).st.targetDuty z at hduty
  change (targetStep (fanConsequences v before)).st.fansFollow → t.fansFollow at hfans
  generalize (targetStep (fanConsequences v before)).st = x at htargeted hstep hfollows hftu hduty hfans
  generalize (fanConsequences v before).st = y at htargeted hstep hderived hnow hplu hpau
  have hx := htargeted.rest
  have hxftu : t.ftu = { y.ftu with zones := x.ftu.zones, rotors := x.ftu.rotors } := by
    rw [hftu]
    exact congrArg State.ftu hx
  refine ⟨hpins, hfans hfollows, ?_, fun z => ?_, fun r => ?_, fun k => ?_, ?_, fun htrays z => ?_, hports, hframe⟩
  · rw [hxftu]
    show y.ftu.temps = _
    rw [hderived]
    simp only [Ftu.derived]
  · rw [hduty, hftu, (htargeted.zone z (mem_zones z)).1, htargeted.targetDuty]
  · rw [hduty, htargeted.targetDuty, hftu, hstep, hderived, hnow]
    simp only [Ftu.derived]
    rfl
  · rw [hxftu]
    show y.ftu.trays.get k = _
    rw [hderived]
    simp only [Ftu.derived, Vector.get_mapIx]
  · rw [hxftu]
    show y.ftu.lost = _
    rw [hderived]
    simp only [Ftu.derived]
  · rw [hduty, htargeted.targetDuty]
    refine targetDuty_congr z ?_ ?_ hplu fun b => ?_
    · rw [hderived]
      refine Vector.ext fun i hi => ?_
      have hi' := htrays ⟨i, hi⟩
      have hget : (v.st.ftu.derived v.st.plu.inUse).trays.get ⟨i, hi⟩ = v.st.ftu.trayNow ⟨i, hi⟩ := by
        simp only [Ftu.derived, Vector.get_mapIx]
      exact hget.trans hi'.symm
    · rw [hderived]
      simp only [Ftu.derived]
    · unfold State.seated State.blade
      rw [hpau]

/-- A rotor that is not in OK or SPINUP does not follow a step of the duty; one in SPINUP stays in it. -/
theorem stepped_state_spinup {x : RotorRec} (steps : Prop) [Decidable steps] (now : Nat) (h : x.state = .spinup) :
    (x.stepped steps now).state = .spinup := by
  rw [(stepped_left x steps now).2.2.2.2, h]
  exact ite_self _

theorem stepped_state_absent {x : RotorRec} (steps : Prop) [Decidable steps] (now : Nat) (h : x.state = .absent) :
    (x.stepped steps now).state = .absent := by
  rw [(stepped_left x steps now).2.2.2.2, h]
  exact if_neg fun h => h.1.elim nofun nofun

theorem rotorA_ne_rotorB (k : Tray) : rotorA k ≠ rotorB k := by
  revert k
  decide

/-- The rotors of a tray at its insertion or removal. -/
theorem tray_rotors (w : Work) (k : Tray) (x y : RotorRec) :
    (setRotor (setRotor w (rotorA k) x) (rotorB k) y).st.ftu.rotors.get (rotorA k) = x ∧
    (setRotor (setRotor w (rotorA k) x) (rotorB k) y).st.ftu.rotors.get (rotorB k) = y := by
  show (Vector.put (Vector.put w.st.ftu.rotors (rotorA k) x) (rotorB k) y).get (rotorA k) = x ∧
    (Vector.put (Vector.put w.st.ftu.rotors (rotorA k) x) (rotorB k) y).get (rotorB k) = y
  rw [Vector.get_put, if_neg (rotorA_ne_rotorB k), Vector.get_put, if_pos rfl, Vector.get_put, if_pos rfl]
  exact ⟨rfl, rfl⟩

theorem two_le_lostNow {f : Ftu} {k : Tray} (ha : (f.rotors.get (rotorA k)).state = .absent) (hb : (f.rotors.get (rotorB k)).state = .absent) :
    2 ≤ f.lostNow := by
  have hsub : [rotorA k, rotorB k] ⊆ (indices 12).filter (fun r => (f.rotors.get r).state.lost) :=
    List.cons_subset.2 ⟨List.mem_filter.2 ⟨mem_indices _, by rw [ha]; rfl⟩,
      List.cons_subset.2 ⟨List.mem_filter.2 ⟨mem_indices _, by rw [hb]; rfl⟩, List.nil_subset _⟩⟩
  exact ((List.nodup_cons.2 ⟨by simpa using rotorA_ne_rotorB k, List.nodup_singleton _⟩).subperm hsub).length_le

/-- The work of a tray that is seated or pulled, before it settles. -/
theorem trayChange_eq (w : Work) (k : Tray) (st : RotorState) : trayChange w k st = settle (rotorsChanged
    (setRotor (setRotor w (rotorA k) ((w.st.ftu.rotors.get (rotorA k)).enter st w.st.now)) (rotorB k)
      ((w.st.ftu.rotors.get (rotorB k)).enter st w.st.now)) w.st.ftu) := rfl

/-- What is left of a tray that is seated or pulled. -/
theorem trayChange_left (s : State) (p : Pins) (k : Tray) (st : RotorState) (hst : st = .spinup ∨ st = .absent) {t : State}
    (ht : t = publish s (trayChange ((Work.start s).map fun s => s.setPins p) k st)) :
    t.pins = p ∧ (t.ftu.rotors.get (rotorA k)).state = st ∧ (t.ftu.rotors.get (rotorB k)).state = st ∧ t.ftu.trays.get k = trayFrom st st ∧
      t.fansFollow ∧ t.ftu.temps = s.ftu.temps ∧ (∀ z, (t.ftu.zones.get z).target = t.targetDuty z) ∧
      (∀ q, (t.port q).asks = (s.port q).asks) ∧ admissionFrame { s with pins := t.pins, ftu := t.ftu } t := by
  rw [trayChange_eq] at ht
  obtain ⟨ha, hb⟩ := tray_rotors ((Work.start s).map fun s => s.setPins p) k ((s.ftu.rotors.get (rotorA k)).enter st s.now)
    ((s.ftu.rotors.get (rotorB k)).enter st s.now)
  generalize hv : setRotor (setRotor _ _ _) _ _ = v at ht
  change setRotor (setRotor _ _ ((s.ftu.rotors.get (rotorA k)).enter st s.now)) _ ((s.ftu.rotors.get (rotorB k)).enter st s.now) = v at hv
  rw [hv] at ha hb
  have hmoved : FanMoved (s.setPins p) v.st := by
    rw [← hv]
    exact fanMoved_setFtu (v := setRotor _ _ _) (fanMoved_setFtu (v := (Work.start s).map fun s => s.setPins p) (.refl _) _) _
  have htemps : v.st.ftu.temps = s.ftu.temps := by rw [← hv]; rfl
  obtain ⟨hpins, hfans, htemp, htarget, hrotor, htray, -, -, hports, hframe⟩ := rotorsChanged_left _ hmoved s ht
  have hstate : ∀ (x : RotorRec) (steps : Prop) [Decidable steps] (now : Nat), x.state = st → (x.stepped steps now).state = st := by
    intro x steps _ now hx
    rcases hst with rfl | rfl
    · exact stepped_state_spinup steps now hx
    · exact stepped_state_absent steps now hx
  have hp : t.pins = p := hpins
  refine ⟨hp, ?_, ?_, ?_, hfans, htemp.trans htemps, htarget, hports, ?_⟩
  · rw [hrotor]
    exact hstate _ _ _ (by rw [ha]; rfl)
  · rw [hrotor]
    exact hstate _ _ _ (by rw [hb]; rfl)
  · rw [htray]
    unfold Ftu.trayNow
    rw [ha, hb]
    rfl
  · rw [hp]
    exact hframe

/-- What is left of a temperature that is no longer fresh. -/
theorem freshStep_lost (w : Work) (b : Slot) (x : BladeTemp) :
    ((freshStep (setTemp w b x) b false).st.ftu.temps.get b).fresh = false ∧
    ((freshStep (setTemp w b x) b false).st.ftu.temps.get b).freshAt = x.freshAt ∧
    (∀ c, c ≠ b → (freshStep (setTemp w b x) b false).st.ftu.temps.get c = w.st.ftu.temps.get c) ∧
    (freshStep (setTemp w b x) b false).st =
      w.st.setFtu { w.st.ftu with temps := (freshStep (setTemp w b x) b false).st.ftu.temps } := by
  have hget : ∀ (y : BladeTemp) (c : Slot), (Vector.put (Vector.put w.st.ftu.temps b x) b y).get c = if c = b then y else w.st.ftu.temps.get c :=
    fun y c => by
      rw [Vector.get_put, Vector.get_put]
      split
      · rfl
      · rfl
  have hone : ∀ c, (Vector.put w.st.ftu.temps b x).get c = if c = b then x else w.st.ftu.temps.get c := fun c => Vector.get_put _ _ _ _
  have hx : (setTemp w b x).st.ftu.temps.get b = x := by
    show (Vector.put w.st.ftu.temps b x).get b = x
    rw [hone, if_pos rfl]
  unfold freshStep
  dsimp only
  rw [hx]
  split
  · next h =>
    refine ⟨by rw [hx]; exact h.symm, by rw [hx], fun c hc => ?_, rfl⟩
    exact (hone c).trans (if_neg hc)
  · generalize hv : (if x.wasFresh = true then _ else _ : Work) = v
    have hst : v.st = w.st.setFtu { w.st.ftu with
        temps := Vector.put (Vector.put w.st.ftu.temps b x) b { x with fresh := false, wasFresh := x.wasFresh || false } } := by
      rw [← hv]
      split <;> rfl
    have hb := (hget { x with fresh := false, wasFresh := x.wasFresh || false } b).trans (if_pos rfl)
    have hfresh := congrArg BladeTemp.fresh hb
    have hat := congrArg BladeTemp.freshAt hb
    rw [hst]
    exact ⟨hfresh, hat, fun c hc => (hget _ c).trans (if_neg hc), rfl⟩

theorem fansFollow_of_derived {f : Ftu} (hftu : t.ftu = f.derived t.plu.inUse) (hderate : t.pbu.derate = t.ftu.derate) : t.fansFollow := by
  have hn : derateFor t.plu.inUse f.lostNow = (f.derived t.plu.inUse).derate := by simp only [Ftu.derived]
  have h := fansFollow_derived (t.setFtu f) _ rfl
  refine fansFollow_congr ?_ ?_ ?_ h
  · exact hftu
  · rfl
  · rw [hderate, hftu]
    exact hn.symm

theorem powerOn_fansFollow (s : State) (p : PowerOn) : (powerOn s p).fansFollow := by
  have hftu : (powerOn s p).ftu = ftuAtReset s.pins.trayPresent := by simp only [powerOn]
  have hplu : (powerOn s p).plu.inUse = .default := rfl
  refine fansFollow_of_derived (f := { Ftu.reset with
      rotors := Vector.mapIx Ftu.reset.rotors (fun r x => if s.pins.trayPresent.get (trayOf r) then x.enter .spinup 0 else x) }) (hftu.trans ?_)
     ((powerOn_derate s p).trans (congrArg Ftu.derate hftu.symm))
  rw [hplu]
  unfold ftuAtReset
  rfl

/-- Settles O55: the rotors of a tray and a rotor whose spin-up has run out, the temperature that is lost, and what every step keeps. -/
theorem traysRotorsAndFreshness : Obligations.TraysRotorsAndFreshness := by
  refine ⟨fun k s hpresent => ?_, fun k s hpresent => ?_, fun r s hstate hdue hfollow hlaw => ?_, fun b s hdue => ?_, fun s t hs h => ?_⟩
  · show ∃ t, execTrayInserted k s = .next t ∧ _
    refine answered (by rw [hpresent]; rfl) ?_
    generalize ht : publish s _ = t
    obtain ⟨hpins, ha, hb, htray, hfans, htemps, -, hports, hframe⟩ :=
      trayChange_left s { s.pins with trayPresent := Vector.put s.pins.trayPresent k true } k .spinup (.inl rfl) ht.symm
    exact ⟨hpins, ha, hb, htray, hfans, htemps, hports, hframe⟩
  · show ∃ t, execTrayRemoved k s = .next t ∧ _
    refine answered hpresent ?_
    generalize ht : publish s _ = t
    obtain ⟨hpins, ha, hb, htray, hfans, htemps, htarget, hports, hframe⟩ :=
      trayChange_left s { s.pins with trayPresent := Vector.put s.pins.trayPresent k false } k .absent (.inr rfl) ht.symm
    have hlost : 2 ≤ t.ftu.lost := by
      obtain ⟨-, hlost, -⟩ := hfans
      rw [hlost]
      exact two_le_lostNow ha hb
    have hfull : t.fullDuty (zoneOfTray k) := .inr (.inl ⟨k, rfl, by rw [htray]; exact nofun⟩)
    exact ⟨hpins, ha, hb, htray, hfans, hlost, (htarget _).trans (targetDuty_of_fullDuty hfull), htemps, hports, hframe⟩
  · have hc : (decide ((s.ftu.rotors.get r).state = .spinup) && ranOut (s.ftu.rotors.get r).spinupAt s.now) = true := by rw [hstate, hdue]; rfl
    show ∃ t, execSpinupExpiry r s = .next t ∧ _
    unfold execSpinupExpiry
    refine answered hc ?_
    have hmoved : FanMoved s (setRotor (Work.start s) r ((s.ftu.rotors.get r).enter .ok s.now)).st := fanMoved_setFtu (v := Work.start s) (.refl s) _
    have hrotors : ∀ q, (setRotor (Work.start s) r ((s.ftu.rotors.get r).enter .ok s.now)).st.ftu.rotors.get q =
        if q = r then (s.ftu.rotors.get r).enter .ok s.now else s.ftu.rotors.get q := fun q => Vector.get_put _ _ _ _
    have hplain : (setRotor (Work.start s) r ((s.ftu.rotors.get r).enter .ok s.now)).st = s.setFtu
        { s.ftu with rotors := (setRotor (Work.start s) r ((s.ftu.rotors.get r).enter .ok s.now)).st.ftu.rotors } := rfl
    generalize ht : publish s _ = t
    obtain ⟨-, hfans, htemps, -, hrotor, htray, hlost, hduty, hports, hframe⟩ := rotorsChanged_left s.ftu hmoved s ht.symm
    generalize (setRotor (Work.start s) r ((s.ftu.rotors.get r).enter .ok s.now)).st = v at *
    have hsame : SameRotors s.ftu v.ftu := fun q => by
      rw [hrotors]
      split
      · next e =>
        rw [e, hstate]
        exact ⟨rfl, rfl⟩
      · exact ⟨rfl, rfl⟩
    obtain ⟨htrays, hcount, -, -⟩ := hfollow
    obtain ⟨htarget, hdriven, -⟩ := hlaw
    have hz : t.targetDuty (zoneOfRotor r) = s.targetDuty (zoneOfRotor r) := by
      rw [hduty fun k => ?_, hplain]
      · exact targetDuty_congr _ rfl rfl rfl fun _ => rfl
      · rw [hsame.trayNow, ← htrays k, hplain]
        rfl
    have hzones : v.ftu.zones = s.ftu.zones := by rw [hplain]; rfl
    refine ⟨?_, hfans, ?_, ?_, hports, hframe⟩
    · have hno : ¬((s.ftu.zones.get (zoneOfRotor r)).driven + 20 ≤ s.targetDuty (zoneOfRotor r)) := by omega
      rw [hrotor, hz, hzones, (stepped_left _ _ _).2.2.2.2, if_neg fun h => hno h.2, hrotors, if_pos rfl]
      rfl
    · rw [hlost, hsame.lostNow, hcount]
    · rw [htemps, hplain]
      rfl
  · show ∃ t, execFreshnessExpiry b s = .next t ∧ _
    unfold execFreshnessExpiry
    refine answered hdue ?_
    obtain ⟨hfresh, hat, hothers, hrest⟩ := freshStep_lost (Work.start s) b { s.ftu.temps.get b with freshAt := none }
    generalize hv : freshStep _ b false = v at hfresh hat hothers hrest
    have hmoved : FanMoved s v.st := by
      rw [hrest]
      exact fanMoved_setFtu (v := Work.start s) (.refl s) _
    have htargeted := targeted_targetStep v
    have hmoved' := fanMoved_targetStep hmoved
    generalize ht : publish s _ = t
    obtain ⟨-, hftu, -, hduty, hports, hframe⟩ := hmoved'.left s ht.symm
    have htemps : t.ftu.temps = v.st.ftu.temps := by
      rw [hftu, htargeted.rest]
      rfl
    refine ⟨by rw [htemps]; exact hfresh, by rw [htemps]; exact hat, fun hseated => ?_, fun c hc => by rw [htemps]; exact hothers c hc, hports, hframe⟩
    have hfull : v.st.fullDuty (zoneOfSlot b) := .inr (.inr ⟨b, rfl, by rw [hrest]; exact hseated, hfresh⟩)
    obtain ⟨hz, hdriven⟩ := htargeted.zone _ (mem_zones (zoneOfSlot b))
    rw [targetDuty_of_fullDuty hfull] at hz hdriven
    rw [hftu, hz, hdriven]
    exact ⟨rfl, Nat.le_max_right _ _⟩
  · rcases step_cases h with ⟨q, p, rfl⟩ | hc
    · exact powerOn_fansFollow _ _
    · exact hc.1.fans trivial hs

end Sys2Proof.Machine
end

section
/-! PROOFS. STATUS: the temperature, the thermal state and the latches, and the ports of a blade that enters HOT. -/

set_option Elab.async false

namespace Sys2Proof.Machine

variable {r s t u : State} {w : Work} {b : Slot} {p q : PortRef}

/-! ### Temperatures -/

/-- A state with another thermal record for one blade. -/
def State.withTemp (s : State) (b : Slot) (x : BladeTemp) : State := s.setFtu { s.ftu with temps := Vector.put s.ftu.temps b x }

theorem withTemp_get (s : State) (b c : Slot) (x : BladeTemp) : (s.withTemp b x).ftu.temps.get c = if c = b then x else s.ftu.temps.get c :=
  Vector.get_put _ _ _ _

theorem withTemp_self (s : State) (b : Slot) : s.withTemp b (s.ftu.temps.get b) = s := by
  have h : Vector.put s.ftu.temps b (s.ftu.temps.get b) = s.ftu.temps := by
    unfold Vector.put Vector.get
    exact Vector.set_getElem_self b.2
  unfold State.withTemp
  rw [h]
  rfl

theorem withTemp_twice (s : State) (b : Slot) (x y : BladeTemp) : (s.withTemp b x).withTemp b y = s.withTemp b y := by
  simp [State.withTemp, State.setFtu, Vector.put]

theorem setTemp_st (w : Work) (b : Slot) (x : BladeTemp) : (setTemp w b x).st = w.st.withTemp b x := rfl

/-- A blade's freshness: the record, and nothing made due. -/
theorem freshStep_left (w : Work) (b : Slot) (fresh : Bool) :
    (∃ was, (freshStep w b fresh).st = w.st.withTemp b { w.st.ftu.temps.get b with fresh := fresh, wasFresh := was }) ∧
      w.sameDue (freshStep w b fresh) := by
  unfold freshStep
  dsimp only
  split
  · next h =>
    refine ⟨⟨(w.st.ftu.temps.get b).wasFresh, ?_⟩, rfl, rfl⟩
    rw [h]
    exact (withTemp_self w.st b).symm
  · refine ⟨⟨(w.st.ftu.temps.get b).wasFresh || fresh, ?_⟩, ?_⟩
    · split <;> rfl
    · split <;> exact ⟨rfl, rfl⟩

theorem Settled.setFtu (h : Settled s t) (x : Ftu) : Settled (s.setFtu x) (t.setFtu x) := { h with ftu := rfl }

/-- The thermal state that a fresh temperature gives (Table 8.4-1). -/
def State.thermalOf (s : State) (b : Slot) : ThermalState :=
  thermalNext (s.ftu.temps.get b).thermal (s.ftu.temps.get b).input s.plu.inUse.warn s.plu.inUse.crit

/-- The evaluation of the thermal state: its record, and the moves of the blade's ports. -/
theorem thermalStep_settled (w : Work) (b : Slot) :
    Settled (w.st.withTemp b { w.st.ftu.temps.get b with thermal := w.st.thermalOf b }) (thermalStep w b).st := by
  unfold thermalStep
  dsimp only
  change Settled _ (if w.st.thermalOf b = _ then _ else _ : Work).st
  by_cases h : w.st.thermalOf b = (w.st.ftu.temps.get b).thermal
  · rw [if_pos h, h]
    refine Eq.subst (motive := fun x => Settled x _) ?_ (.refl w.st)
    exact (withTemp_self w.st b).symm
  · rw [if_neg h]
    split
    · refine settled_heatBlade ?_ b
      exact .refl _
    · exact settled_ite (.refl _) (.refl _)

theorem thermalLaw_next (old : ThermalState) (input warn crit : Int) : thermalLaw old input warn crit (thermalNext old input warn crit) := by
  unfold thermalLaw thermalNext
  cases old <;> (dsimp only; split <;> simp_all) <;> omega

/-- The largest duty among some latched breakpoints over a minimum. -/
def largestLatched (curve : Vector Breakpoint 4) (latches : Vector Bool 4) (l : List (Fin 4)) (m : Nat) : Nat :=
  l.foldl (fun acc i => if latches.get i then max acc (curve.get i).duty else acc) m

theorem largestLatched_spec (curve : Vector Breakpoint 4) (latches : Vector Bool 4) : ∀ (l : List (Fin 4)) (m : Nat),
    m ≤ largestLatched curve latches l m ∧
    (∀ i ∈ l, latches.get i = true → (curve.get i).duty ≤ largestLatched curve latches l m) ∧
    (largestLatched curve latches l m = m ∨ ∃ i ∈ l, latches.get i = true ∧ largestLatched curve latches l m = (curve.get i).duty)
  | [], m => ⟨Nat.le_refl m, fun _ h => (nomatch h), .inl rfl⟩
  | a :: l, m => by
    have hcons : largestLatched curve latches (a :: l) m =
        largestLatched curve latches l (if latches.get a then max m (curve.get a).duty else m) := rfl
    rw [hcons]
    cases ha : latches.get a with
    | false =>
      rw [if_neg nofun]
      obtain ⟨hleast, hduty, hfrom⟩ := largestLatched_spec curve latches l m
      refine ⟨hleast, fun i hi hlatched => ?_, hfrom.imp id fun ⟨i, hi, h⟩ => ⟨i, List.mem_cons_of_mem a hi, h⟩⟩
      rcases List.mem_cons.1 hi with rfl | hi
      · rw [ha] at hlatched
        cases hlatched
      · exact hduty i hi hlatched
    | true =>
      rw [if_pos rfl]
      obtain ⟨hleast, hduty, hfrom⟩ := largestLatched_spec curve latches l (max m (curve.get a).duty)
      refine ⟨(Nat.le_max_left ..).trans hleast, fun i hi hlatched => ?_, ?_⟩
      · rcases List.mem_cons.1 hi with rfl | hi
        · exact (Nat.le_max_right ..).trans hleast
        · exact hduty i hi hlatched
      · rcases hfrom with hfrom | ⟨i, hi, h⟩
        · rcases max_choice m (curve.get a).duty with hm | hm
          · exact .inl (hfrom.trans hm)
          · exact .inr ⟨a, List.mem_cons_self, ha, hfrom.trans hm⟩
        · exact .inr ⟨i, List.mem_cons_of_mem a hi, h⟩

/-- The demand is the largest duty among the latched breakpoints. -/
theorem demandOf_spec (curve : Vector Breakpoint 4) (latches : Vector Bool 4) :
    (∀ i, latches.get i = true → (curve.get i).duty ≤ demandOf curve latches) ∧
    (((∀ i, latches.get i = false) ∧ demandOf curve latches = 0) ∨ ∃ i, latches.get i = true ∧ demandOf curve latches = (curve.get i).duty) := by
  obtain ⟨-, hduty, hfrom⟩ := largestLatched_spec curve latches (indices 4) 0
  have hall : ∀ i, latches.get i = true → (curve.get i).duty ≤ demandOf curve latches := fun i => hduty i (mem_indices i)
  refine ⟨hall, ?_⟩
  rcases hfrom with hzero | ⟨i, -, hi, h⟩
  · by_cases hany : ∃ i, latches.get i = true
    · obtain ⟨i, hi⟩ := hany
      have hle := hall i hi
      have hdemand : demandOf curve latches = 0 := hzero
      exact .inr ⟨i, hi, by omega⟩
    · exact .inl ⟨fun i => Bool.eq_false_iff.2 fun h => hany ⟨i, h⟩, hzero⟩
  · exact .inr ⟨i, hi, h⟩

/-- A computed temperature (R153, R156): the curve input, the latches and the demand. -/
theorem compute_left (x : BladeTemp) (inlet hotspot : Int) (u : Tunables) (hinlet : x.inlet = some inlet) (hhotspot : x.hotspot = some hotspot) :
    (x.compute u).input = max hotspot (inlet + (u.inletOffset : Int)) ∧
    (∀ i, (x.compute u).latches.get i = true ↔ (u.curve.get i).temp ≤ (x.compute u).input ∨
      (x.latches.get i = true ∧ x.stale.get i = false ∧ (u.curve.get i).temp - 2 ≤ (x.compute u).input)) ∧
    (x.compute u).demand = demandOf u.curve (x.compute u).latches := by
  refine ⟨?_, fun i => ?_, rfl⟩
  · show max (x.hotspot.getD 0) (x.inlet.getD 0 + _) = _
    rw [hinlet, hhotspot]
    rfl
  · show (Vector.mapIx x.latches _).get i = true ↔ _
    rw [Vector.get_mapIx]
    unfold latchNext
    simp only [Bool.or_eq_true, Bool.and_eq_true, decide_eq_true_eq, Bool.not_eq_true', and_assoc]
    exact Iff.rfl

/-! ### The ports of a blade that enters HOT -/

/-- What entry to HOT makes of a port. -/
def Port.heated (x : Port) : Port :=
  match x.state with
  | .online => { x with state := .goingDown, cause := .thermal, leaving := .clear }
  | .goingUp => { x with leaving := .thermal }
  | .goingDown => if x.cause = .power then { x with cause := .thermal } else x
  | .shed => if x.cause = .power then { x with cause := .thermal } else x
  | _ => x

theorem heated_online {x : Port} (h : x.state = .online) : x.heated = { x with state := .goingDown, cause := .thermal, leaving := .clear } := by
  unfold Port.heated
  rw [h]

theorem heated_goingUp {x : Port} (h : x.state = .goingUp) : x.heated = { x with leaving := .thermal } := by
  unfold Port.heated
  split <;> simp_all

theorem heated_held {x : Port} (h : x.state = .goingDown ∨ x.state = .shed) :
    x.heated = if x.cause = .power then { x with cause := .thermal } else x := by
  unfold Port.heated
  split <;> simp_all

theorem heated_other {x : Port} (h : x.state = .offline ∨ x.state = .waitLicense ∨ x.state = .waitPower) : x.heated = x := by
  unfold Port.heated
  split <;> simp_all

theorem toGoingDown_port (w : Work) (p q : PortRef) (c : PortCause) : (toGoingDown w p c).st.port q =
    if q = p then { w.st.port p with state := .goingDown, cause := c, leaving := .clear } else w.st.port q := by
  rw [toGoingDown_rest]
  exact State.port_setPort _ _ _ _

theorem port_self (s : State) (p q : PortRef) : s.port q = if q = p then s.port p else s.port q := by
  split
  · next h => rw [h]
  · rfl

theorem leavePort_online {w : Work} {p : PortRef} (h : (w.st.port p).state = .online) (c : LeaveCause) :
    leavePort w p c = toGoingDown w p c.cause := by
  unfold leavePort
  rw [h]

theorem leavePort_goingUp {w : Work} {p : PortRef} (h : (w.st.port p).state = .goingUp) (c : LeaveCause) :
    leavePort w p c = w.setPort p { w.st.port p with leaving := c.flag } := by
  unfold leavePort
  rw [h]

theorem heatPort_port (w : Work) (p q : PortRef) : (heatPort w p).st.port q = if q = p then (w.st.port p).heated else w.st.port q := by
  have hheld : (w.st.port p).state = .goingDown ∨ (w.st.port p).state = .shed →
      (if (w.st.port p).cause = .power then w.setPort p { w.st.port p with cause := .thermal } else w).st.port q =
        if q = p then (w.st.port p).heated else w.st.port q := fun hs => by
    rw [heated_held hs]
    split
    · exact State.port_setPort _ _ _ _
    · exact port_self _ _ _
  unfold heatPort
  dsimp only
  split
  · next hs =>
    rw [leavePort_online hs, heated_online hs]
    exact toGoingDown_port _ _ _ _
  · next hs =>
    rw [leavePort_goingUp hs, heated_goingUp hs]
    exact State.port_setPort _ _ _ _
  · next hs => exact hheld (.inl hs)
  · next hs => exact hheld (.inr hs)
  · next honline hup hdown hshed =>
    have hother : (w.st.port p).state = .offline ∨ (w.st.port p).state = .waitLicense ∨ (w.st.port p).state = .waitPower := by
      cases hs : (w.st.port p).state <;> simp_all
    rw [heated_other hother]
    exact port_self _ _ _

theorem sameDue_toGoingDown {v : Work} (h : w.sameDue v) (p c) : w.sameDue (toGoingDown v p c) := by
  unfold toGoingDown
  dsimp only
  split <;> exact h

theorem sameDue_heatPort {v : Work} (h : w.sameDue v) (p) : w.sameDue (heatPort v p) := by
  unfold heatPort
  dsimp only
  split
  · exact sameDue_leavePort h _ _
  · exact sameDue_leavePort h _ _
  · split <;> exact h
  · split <;> exact h
  · exact h

/-- A fold over distinct ports, each step of which changes its own port alone. -/
theorem foldl_port {f : Work → PortRef → Work} {g : Port → Port}
    (hf : ∀ w p q, (f w p).st.port q = if q = p then g (w.st.port p) else w.st.port q) :
    ∀ (l : List PortRef) (w : Work) (q : PortRef), l.Nodup → (l.foldl f w).st.port q = if q ∈ l then g (w.st.port q) else w.st.port q
  | [], w, q, _ => (if_neg List.not_mem_nil).symm
  | p :: l, w, q, hnodup => by
    obtain ⟨hp, htail⟩ := List.nodup_cons.1 hnodup
    rw [List.foldl_cons, foldl_port hf l (f w p) q htail, hf]
    by_cases hq : q = p
    · subst hq
      rw [if_neg hp, if_pos rfl, if_pos List.mem_cons_self]
    · rw [if_neg hq]
      exact if_congr (by rw [List.mem_cons, or_iff_right hq]) rfl rfl

theorem portsOf_nodup (b : Slot) : (portsOf b).Nodup := by
  unfold portsOf
  exact (nodup_indices 48).map fun i j h => by cases h; rfl

theorem mem_portsOf (b : Slot) (q : PortRef) : q ∈ portsOf b ↔ q.slot = b := by
  unfold portsOf
  rw [List.mem_map]
  constructor
  · rintro ⟨i, -, rfl⟩
    rfl
  · rintro rfl
    exact ⟨q.port, mem_indices _, rfl⟩

theorem heatBlade_left (w : Work) (b : Slot) :
    (∀ i, (heatBlade w b).st.port ⟨b, i⟩ = (w.st.port ⟨b, i⟩).heated) ∧ w.sameDue (heatBlade w b) := by
  refine ⟨fun i => ?_, ?_⟩
  · unfold heatBlade
    rw [foldl_port heatPort_port _ _ _ (portsOf_nodup b), if_pos ((mem_portsOf b _).2 rfl)]
  · have hfold : ∀ (l : List PortRef) (v : Work), w.sameDue v → w.sameDue (l.foldl heatPort v) := by
      intro l
      induction l with
      | nil => exact fun _ h => h
      | cons p l ih => exact fun v h => ih _ (sameDue_heatPort h p)
    exact hfold _ _ ⟨rfl, rfl⟩

theorem withTemp_record (s : State) (b : Slot) (x : BladeTemp) : (s.withTemp b x).ftu.temps.get b = x :=
  (withTemp_get s b b x).trans (if_pos rfl)

/-- Entry to HOT: the ports are heated, and nothing else is made due. -/
theorem thermalStep_heats (w : Work) (b : Slot) (hwas : (w.st.ftu.temps.get b).thermal ≠ .hot) (hnow : w.st.thermalOf b = .hot) :
    (∀ i, (thermalStep w b).st.port ⟨b, i⟩ = (w.st.port ⟨b, i⟩).heated) ∧ w.sameDue (thermalStep w b) := by
  unfold thermalStep
  dsimp only
  unfold State.thermalOf at hnow
  rw [hnow, if_neg (Ne.symm hwas), if_pos rfl]
  exact heatBlade_left _ b

/-! ### The readings -/

/-- What delivered readings make of a blade's thermal record `x` (R153, R154, R156). -/
structure Delivered (x y : BladeTemp) (inlet hotspot : Int) (now : Nat) (u : Tunables) : Prop where
  readInlet : y.inlet = some inlet
  readHotspot : y.hotspot = some hotspot
  taken : y.taken = now
  freshAt : y.freshAt = some (now + sec 3)
  fresh : inlet ≠ 127 → hotspot ≠ 127 → y.fresh = true ∧ y.input = max hotspot (inlet + (u.inletOffset : Int)) ∧
    thermalLaw x.thermal y.input u.warn u.crit y.thermal ∧
    (∀ i, y.latches.get i = true ↔ (u.curve.get i).temp ≤ y.input ∨
      (x.latches.get i = true ∧ x.stale.get i = false ∧ (u.curve.get i).temp - 2 ≤ y.input)) ∧
    y.demand = demandOf u.curve y.latches
  stale : inlet = 127 ∨ hotspot = 127 → y.fresh = false ∧ y.thermal = x.thermal ∧ y.latches = x.latches ∧ y.demand = x.demand

/-- Delivered readings: the record, and the ports of a blade that they bring to HOT. -/
theorem deliverStatus_left (w : Work) (b : Slot) (inlet hotspot : Int) : ∃ y,
    Settled (w.st.withTemp b y) (deliverStatus w b inlet hotspot).st ∧
    Delivered (w.st.ftu.temps.get b) y inlet hotspot w.st.now w.st.plu.inUse ∧
    ((w.st.ftu.temps.get b).thermal ≠ .hot → y.thermal = .hot →
      (∀ i, (deliverStatus w b inlet hotspot).st.port ⟨b, i⟩ = (w.st.port ⟨b, i⟩).heated) ∧ w.sameDue (deliverStatus w b inlet hotspot)) := by
  unfold deliverStatus
  dsimp only
  generalize hx : ({ w.st.ftu.temps.get b with inlet := some inlet, hotspot := some hotspot, taken := w.st.now, freshAt := some (w.st.now + sec 3) } : BladeTemp) = x
  by_cases hin : inlet ≠ 127 ∧ hotspot ≠ 127
  · have hfresh : (decide (inlet ≠ 127) && decide (hotspot ≠ 127)) = true := by
      rw [Bool.and_eq_true, decide_eq_true_eq, decide_eq_true_eq]
      exact hin
    rw [if_pos hfresh]
    obtain ⟨⟨was, hst⟩, hdue⟩ := freshStep_left (setTemp w b (x.compute w.st.plu.inUse)) b true
    generalize freshStep (setTemp w b (x.compute w.st.plu.inUse)) b true = v at hst hdue
    rw [setTemp_st, withTemp_record, withTemp_twice] at hst
    obtain ⟨hinput, hlatch, hdemand⟩ := compute_left x inlet hotspot w.st.plu.inUse (by rw [← hx]) (by rw [← hx])
    have hrecord : v.st.ftu.temps.get b = { x.compute w.st.plu.inUse with fresh := true, wasFresh := was } := by
      rw [hst, withTemp_record]
    have hof : v.st.thermalOf b = thermalNext (w.st.ftu.temps.get b).thermal (x.compute w.st.plu.inUse).input w.st.plu.inUse.warn w.st.plu.inUse.crit := by
      unfold State.thermalOf
      rw [hrecord, hst, ← hx]
      rfl
    have hsettled := thermalStep_settled v b
    rw [hrecord] at hsettled
    have hheats := thermalStep_heats v b
    rw [hst, withTemp_twice, ← hst] at hsettled
    refine ⟨_, hsettled, ?_, fun hwas hnow => ?_⟩
    · refine ⟨by rw [← hx]; rfl, by rw [← hx]; rfl, by rw [← hx]; rfl, by rw [← hx]; rfl,
        fun _ _ => ⟨rfl, hinput, ?_, fun i => (hlatch i).trans ?_, hdemand⟩, fun h => absurd h (by omega)⟩
      · rw [hof]
        exact thermalLaw_next _ _ _ _
      · rw [← hx]
    · obtain ⟨hports, hsame⟩ := hheats (by rw [hrecord, ← hx]; exact hwas) hnow
      refine ⟨fun i => ?_, hdue.1.symm ▸ hsame.1, hdue.2.symm ▸ hsame.2⟩
      rw [hports, hst]
      rfl
  · have hstale : ¬(decide (inlet ≠ 127) && decide (hotspot ≠ 127)) = true := by
      rw [Bool.and_eq_true, decide_eq_true_eq, decide_eq_true_eq]
      exact hin
    rw [if_neg hstale]
    obtain ⟨⟨was, hst⟩, -⟩ := freshStep_left (setTemp w b x) b false
    rw [setTemp_st, withTemp_record, withTemp_twice] at hst
    rw [hst]
    refine ⟨_, .refl _, ?_, fun hwas hnow => ?_⟩
    · rw [← hx]
      exact ⟨rfl, rfl, rfl, rfl, fun h1 h2 => absurd ⟨h1, h2⟩ hin, fun _ => ⟨rfl, rfl, rfl, rfl⟩⟩
    · rw [← hx] at hnow
      exact absurd hnow hwas

/-! ### STATUS -/

theorem handedReading_eq (x : Byte) : handedReading x = if -40 ≤ x.toInt ∧ x.toInt ≤ 125 then x.toInt else 127 := by
  unfold handedReading signedByte
  split <;> split <;> omega

theorem heated_sheddable {x : Port} (h : x.state = .online ∨ x.state = .goingUp ∨ x.state = .goingDown ∨ x.state = .shed) :
    x.heated.sheddable = false := by
  rcases h with h | h | h | h
  · rw [heated_online h]; rfl
  · rw [heated_goingUp h]; simp [Port.sheddable, h]
  · rw [heated_held (.inl h)]; split <;> simp [Port.sheddable, h]
  · rw [heated_held (.inr h)]; split <;> simp [Port.sheddable, h]

/-- The budget leaves every port that it may not shed. -/
theorem budgetStep_port (w : Work) (q : PortRef) (h : (w.st.port q).sheddable = false) : (budgetStep none w).st.port q = w.st.port q := by
  cases hhold : w.st.pbu.hold with
  | true =>
    unfold budgetStep
    rw [if_pos hhold]
  | false =>
    obtain ⟨-, -, hkept, -⟩ := (budgetStep_budgeted w hhold).shed
    refine hkept q fun hcand => ?_
    have := (sheddable_iff _).2 hcand.2
    rw [h] at this
    cases this

theorem heatFollows_of_heated (hthermal : (s.ftu.temps.get b).thermal ≠ .hot → (t.ftu.temps.get b).thermal = .hot → ∀ i,
    (s.port ⟨b, i⟩).heated.sheddable = false → t.port ⟨b, i⟩ = (s.port ⟨b, i⟩).heated) : heatFollows s t b := by
  intro hwas hnow i
  have hport := hthermal hwas hnow i
  refine ⟨fun h => ?_, fun h => ?_, fun h hcause => ?_⟩
  · rw [hport (heated_sheddable (.inl h)), heated_online h]
    exact ⟨rfl, rfl⟩
  · rw [hport (heated_sheddable (.inr (.inl h))), heated_goingUp h]
    exact ⟨h, rfl⟩
  · rw [hport (heated_sheddable (.inr (.inr h))), heated_held h, if_pos hcause]
    exact ⟨rfl, rfl⟩

/-- Settles O37. -/
theorem statusIsHandedToTheFanUnit : Obligations.StatusIsHandedToTheFanUnit := by
  refine fun b inlet hotspot s => ⟨fun hup hfollows => ?_, fun hnot => ?_⟩
  · show ∃ t, execStatus b inlet hotspot s = .next t ∧ _
    unfold execStatus takeStatus
    refine answered (linkUp_of_state hup) ?_
    have hblade : (s.blade b).state = .up := by
      unfold State.linkFollows at hfollows
      rw [hup] at hfollows
      exact of_decide_eq_true hfollows
    obtain ⟨hst, -⟩ := keepAlive_st (Work.start s) b
    have hdue0 : (Work.start s).sameDue (keepAlive (Work.start s) b) := by
      unfold keepAlive
      dsimp only
      split <;> exact ⟨rfl, rfl⟩
    generalize keepAlive (Work.start s) b = w0 at hst hdue0 ⊢
    rw [show (Work.start s).st = s from rfl, Link.alive_of_up hup] at hst
    obtain ⟨y, hsettled, hdel, hheat⟩ := deliverStatus_left w0 b (handedReading inlet) (handedReading hotspot)
    generalize deliverStatus w0 b (handedReading inlet) (handedReading hotspot) = w1 at hsettled hheat ⊢
    have htargeted := (targeted_targetStep w1).rest
    have hsame : w1.sameDue (targetStep w1) := ⟨rfl, rfl⟩
    generalize targetStep w1 = w2 at htargeted hsame ⊢
    have hfinal := settle_settled w2
    have hport2 : ∀ q, w2.st.port q = w1.st.port q := fun q => by rw [htargeted]; rfl
    have hlast : w2.grantDue = false → w2.restoreDue = false → ∀ q, (w2.st.port q).sheddable = false → (settle w2).st.port q = w2.st.port q :=
      fun h1 h2 q hq => by rw [settle_of_notDue w2 h1 h2]; exact budgetStep_port w2 q hq
    generalize settle w2 = w3 at hfinal hlast ⊢
    have hwhole : Settled ((s.setLink b { s.link b with keepAt := some (s.now + sec 2) }).setFtu w2.st.ftu) w3.st := by
      have hrest : w2.st = w1.st.setFtu w2.st.ftu := by
        rw [htargeted]
        rfl
      have h := (hsettled.setFtu w2.st.ftu).trans (hrest ▸ hfinal)
      rw [hst] at h
      exact h
    have htemps : w3.st.ftu.temps = Vector.put s.ftu.temps b y := by
      rw [hfinal.ftu, htargeted]
      show w1.st.ftu.temps = _
      rw [hsettled.ftu, hst]
      rfl
    have hrecord : ∀ c, (publish s w3).ftu.temps.get c = if c = b then y else s.ftu.temps.get c := fun c => by
      rw [publish_ftu, htemps]
      exact Vector.get_put _ _ _ _
    have hb := (hrecord b).trans (if_pos rfl)
    have hold : w0.st.ftu.temps.get b = s.ftu.temps.get b := by rw [hst]; rfl
    have hplu : w0.st.plu = s.plu := by rw [hst]; rfl
    have hnow : w0.st.now = s.now := by rw [hst]; rfl
    rw [hold, hplu, hnow] at hdel
    rw [hold] at hheat
    have hports : heatFollows s (publish s w3) b := heatFollows_of_heated fun hwas hhot i hq => by
      rw [hb] at hhot
      obtain ⟨hheated, hsame1⟩ := hheat hwas hhot
      have hp2 : w2.st.port ⟨b, i⟩ = (s.port ⟨b, i⟩).heated := by
        rw [hport2, hheated, hst]
        rfl
      have hkept := hlast (by rw [hsame.1, hsame1.1, hdue0.1]; rfl) (by rw [hsame.2, hsame1.2, hdue0.2]; rfl) ⟨b, i⟩ (by rw [hp2]; exact hq)
      exact hkept.trans hp2
    have hlink := hwhole.link b (by show (s.blade b).state ≠ _; rw [hblade]; exact nofun)
    have hself : ((s.setLink b { s.link b with keepAt := some (s.now + sec 2) }).setFtu w2.st.ftu).link b =
        { s.link b with keepAt := some (s.now + sec 2) } := (State.link_setLink _ _ _ _).trans (if_pos rfl)
    rw [hself] at hlink
    refine ⟨?_, ?_, ?_, ?_, fun h1 h2 h3 h4 => ⟨?_, hports⟩, fun hout => ?_, fun c hc => (hrecord c).trans (if_neg hc), ?_, ?_,
      fun q => hwhole.asks s q, fun c _ hc => hwhole.blade c hc,
      hwhole.blade b (by show (s.blade b).state ≠ _; rw [hblade]; exact nofun), ?_⟩
    · rw [hb, hdel.readInlet, handedReading_eq]
    · rw [hb, hdel.readHotspot, handedReading_eq]
    · rw [hb, hdel.taken]
    · rw [hb, hdel.freshAt]
    · have hi : handedReading inlet = inlet.toInt := by rw [handedReading_eq, if_pos ⟨h1, h2⟩]
      have hh : handedReading hotspot = hotspot.toInt := by rw [handedReading_eq, if_pos ⟨h3, h4⟩]
      rw [hi, hh] at hdel
      obtain ⟨hfresh, hinput, hthermal, hlatches, hdemand⟩ := hdel.fresh (by omega) (by omega)
      obtain ⟨hleast, hchoice⟩ := demandOf_spec s.plu.inUse.curve y.latches
      unfold temperatureFollows
      rw [hb]
      refine ⟨hfresh, hinput, hthermal, fun i => (hlatches i).trans ?_, ?_, ?_⟩
      · simp only [true_and]
      · rw [hdemand]
        exact hleast
      · rw [hdemand]
        exact hchoice
    · rw [hb]
      refine hdel.stale ?_
      rw [handedReading_eq, handedReading_eq]
      split <;> split <;> omega
    · exact hlink.state.trans hup
    · exact hlink.keepAt
    · exact ((admits_setLink (s.setFtu w2.st.ftu) b _).trans hwhole.admits).ftuFrame s
  · show execStatus b inlet hotspot s = _
    unfold execStatus takeStatus
    exact act_of_not s _ (decide_eq_false hnot)

end Sys2Proof.Machine
end

section
/-! PROOFS. PORT_NOTE, and a message that an UP link counts behind its keepalive. -/

set_option Elab.async false

namespace Sys2Proof.Machine

variable {r s t u : State} {w : Work} {b : Slot} {p q : PortRef}

theorem sameDue_keepAlive (w : Work) (b : Slot) : w.sameDue (keepAlive w b) := by
  unfold keepAlive
  dsimp only
  split <;> exact ⟨rfl, rfl⟩

/-- A message that an UP link counts behind its keepalive. -/
theorem aliveFault_left {v : Work} (o : State) (reason : LinkReason) (type tag : Nat) (hup : (s.link b).state = .up)
    (herrors : (s.link b).errors < 65535) (hst : v.st = s.setLink b ((s.link b).alive s.now)) {t : State}
    (ht : t = publish o (linkFault v b reason type tag)) :
    (t.link b).errors = (s.link b).errors + 1 ∧ (t.link b).keepAt = some (s.now + sec 2) ∧ (∀ q, t.port q = s.port q) ∧ backgroundKept s t ∧
      t = { s with tmc := t.tmc, swq := t.swq, blc := t.blc, pau := t.pau, evu := t.evu } := by
  subst ht
  have hw : (linkFault v b reason type tag).st = (linkError v b).st := rfl
  obtain ⟨hcount, -, hkeep, -, hrest⟩ := aliveError_left (w := linkFault v b reason type tag) o hst
    (fun c _ => by rw [hw]) (by rw [hw]; exact .refl _) (by rw [hw]; exact .refl _)
  refine ⟨hcount.trans (by omega), hkeep hup, fun q => ?_, hrest⟩
  show (linkError v b).st.port q = _
  rw [linkError_st (by rw [hst, State.link_setLink, if_pos rfl, Link.alive_of_up hup]; exact herrors), hst]
  rfl

theorem noteOptic_st (w : Work) (p : PortRef) (c : Fin 4) : (noteOptic w p c).st = w.st.setPort p { w.st.port p with optic := some c } := by
  unfold noteOptic
  dsimp only
  split <;> rfl

/-- Settles O38. -/
theorem portNoteRecordsTheOptic : Obligations.PortNoteRecordsTheOptic := by
  refine fun b hdrTag port opticClass n s hup hcount => ⟨fun hp hc hn => ?_, fun hbad herrors => ?_⟩
  · show ∃ t, execPortNote b hdrTag port opticClass s = .next t ∧ _
    unfold execPortNote takePortNote
    refine answered (linkUp_of_state hup) ?_
    have hfields : noteFields s b port.toNat opticClass.toNat = some (⟨b, ⟨port.toNat, hp⟩⟩, ⟨opticClass.toNat, hc⟩) := by
      unfold noteFields
      rw [dif_pos hp, dif_pos hc, hcount]
      exact if_pos (decide_eq_true hn)
    dsimp only
    rw [hfields]
    dsimp only
    generalize (⟨b, ⟨port.toNat, hp⟩⟩ : PortRef) = p
    have hst := noteOptic_st (keepAlive (Work.start s) b) p ⟨opticClass.toNat, hc⟩
    generalize noteOptic (keepAlive (Work.start s) b) p ⟨opticClass.toNat, hc⟩ = v at hst ⊢
    rw [(keepAlive_st (Work.start s) b).1, show (Work.start s).st = s from rfl, Link.alive_of_up hup] at hst
    have hsettled := settle_settled v
    generalize settle v = w at hsettled ⊢
    have hport : ∀ q, v.st.port q = if q = p then { s.port p with optic := some ⟨opticClass.toNat, hc⟩ } else s.port q := fun q => by
      rw [hst]
      exact State.port_setPort _ _ _ _
    have hadmits : Admits s v.st := by
      rw [hst]
      exact { Admits.refl s with }
    refine ⟨?_, fun q hq => ?_, fun hwait => ?_, fun c _ hc => ?_, (hadmits.trans hsettled.admits).frame s⟩
    · exact (hsettled.port p).optic.trans (by rw [hport, if_pos rfl])
    · exact (hsettled.port q).asks.trans (by rw [hport, if_neg hq])
    · refine (hsettled.link b ?_).keepAt.trans ?_
      · rw [hst]
        exact hwait
      · rw [hst]
        show ((s.setLink b _).link b).keepAt = _
        rw [State.link_setLink, if_pos rfl]
    · refine (hsettled.blade c ?_).trans ?_
      · rw [hst]
        exact hc
      · rw [hst]
        rfl
  · show ∃ t, execPortNote b hdrTag port opticClass s = .next t ∧ _
    unfold execPortNote takePortNote
    refine answered (linkUp_of_state hup) ?_
    have hfields : noteFields s b port.toNat opticClass.toNat = none := by
      unfold noteFields
      split
      · next hp =>
        split
        · next hc =>
          rw [hcount, if_neg]
          rw [decide_eq_true_eq]
          show ¬port.toNat < n
          omega
        · rfl
      · rfl
    dsimp only
    rw [hfields]
    dsimp only
    generalize ht : publish s _ = t
    exact aliveFault_left s .badNote 4 hdrTag.toNat hup herrors (keepAlive_st (Work.start s) b).1 ht.symm

end Sys2Proof.Machine
end

section
/-! PROOFS. Ports that are admitted, and what the settling of an event can make of them; ORDER_ACK. -/

set_option Elab.async false

namespace Sys2Proof.Machine

variable {r s t u : State} {w : Work} {b : Slot} {p q : PortRef} {c d : PortConfig}

/-! ### The licence queues -/

/-- Licence queues that have lost no entry. -/
def Grows (s t : State) : Prop := ∀ b, ∀ e ∈ s.queue b, e ∈ t.queue b

theorem Grows.of_lu (h : t.lu = s.lu) : Grows s t := fun b e he => by
  unfold State.queue
  rw [h]
  exact he

theorem toGoingUp_lu (w : Work) (p : PortRef) (c : PortConfig) (a : OrderAction) : (toGoingUp w p c a).st.lu = w.st.lu := lu_handOrder _ _ _

theorem toShed_st (w : Work) (p : PortRef) (c : PortCause) :
    (toShed w p c).st = w.st.setPort p { w.st.port p with state := .shed, cause := c, leaving := .clear } := by
  show (if 0 < (w.st.port p).draw w.st.plu.inUse
    then (w.setPort p { w.st.port p with state := .shed, cause := c, leaving := .clear }).dueRestore
    else w.setPort p { w.st.port p with state := .shed, cause := c, leaving := .clear }).st = _
  split <;> rfl

theorem toOffline_st (w : Work) (p : PortRef) (c : PortCause) :
    (toOffline w p c).st = w.st.setPort p { w.st.port p with state := .offline, cause := c, leaving := .clear, granted := none } := by
  unfold toOffline released
  dsimp only
  split <;> split <;> rfl

theorem toGoingDown_lu (w : Work) (p : PortRef) (c : PortCause) : (toGoingDown w p c).st.lu = w.st.lu := by rw [toGoingDown_rest]; rfl

theorem chargePort_lu (w : Work) (p : PortRef) (c : PortConfig) : (chargePort w p c).st.lu = w.st.lu := by
  unfold chargePort
  split
  · rw [toShed_st]
    rfl
  · exact toGoingUp_lu _ _ _ _

theorem joinLicence_queue (w : Work) (p : PortRef) (n : Nat) (b : Slot) : (joinLicence w p n).st.queue b =
    if b = p.slot then w.st.queue p.slot ++ [⟨p.port, n⟩] else w.st.queue b :=
  queue_setQueue _ _ _ _

theorem grows_joinLicence (w : Work) (p : PortRef) (n : Nat) : Grows w.st (joinLicence w p n).st := fun b e he => by
  rw [joinLicence_queue]
  split
  · next hb => exact List.mem_append_left _ (hb ▸ he)
  · exact he

theorem grows_decideAdmission (w : Work) (p : PortRef) (c : PortConfig) (licence power : Bool) :
    Grows w.st (decideAdmission w p c licence power).st := by
  unfold decideAdmission
  split
  · split
    · exact .of_lu (chargePort_lu _ _ _)
    · exact .of_lu rfl
  · exact grows_joinLicence _ _ _

theorem grows_completeMove (w : Work) (p : PortRef) (licence power : Bool) : Grows w.st (completeMove w p licence power).st := by
  unfold completeMove
  split
  · exact .of_lu rfl
  · split
    · exact .of_lu rfl
    · exact grows_decideAdmission _ _ _ _ _

/-! ### A port that is admitted -/

/-- A port that asks for a configuration without XD and has been admitted with it: charged, or waiting with its units. -/
structure Admitted (p : PortRef) (d : PortConfig) (s : State) : Prop where
  request : (s.port p).request = some d
  state : (s.port p).state = .goingUp ∨ (s.port p).state = .waitLicense ∨ (s.port p).state = .waitPower ∨ (s.port p).state = .shed
  queue : (s.port p).state = .waitLicense → ∃ e ∈ s.queue p.slot, e.port = p.port ∧ e.units = d.units

theorem Admitted.of (h : Admitted p d s) (hport : t.port p = s.port p) (hqueue : ∀ e ∈ s.queue p.slot, e.port = p.port → e ∈ t.queue p.slot) :
    Admitted p d t := by
  refine ⟨by rw [hport]; exact h.request, by rw [hport]; exact h.state, fun hs => ?_⟩
  obtain ⟨e, he, hp, hu⟩ := h.queue (by rw [← hport]; exact hs)
  exact ⟨e, hqueue e he hp, hp, hu⟩

theorem Admitted.of_grows (h : Admitted p d s) (hport : t.port p = s.port p) (hqueue : Grows s t) : Admitted p d t :=
  h.of hport fun e he _ => hqueue _ e he

theorem admitted_of_state (hrequest : (s.port p).request = some d)
    (hstate : (s.port p).state = .goingUp ∨ (s.port p).state = .waitPower ∨ (s.port p).state = .shed) : Admitted p d s :=
  ⟨hrequest, hstate.imp id .inr, fun h => by rcases hstate with hs | hs | hs <;> rw [hs] at h <;> cases h⟩

theorem toShed_port (w : Work) (p : PortRef) (c : PortCause) :
    (toShed w p c).st.port p = { w.st.port p with state := .shed, cause := c, leaving := .clear } := by
  rw [toShed_st]
  exact (State.port_setPort _ _ _ _).trans (if_pos rfl)

theorem chargePort_port (w : Work) (p : PortRef) (c : PortConfig) : (chargePort w p c).st.port p = if w.st.hot p.slot then
    { w.st.port p with state := .shed, cause := .thermal, leaving := .clear, granted := some c }
    else { w.st.port p with state := .goingUp, cause := .none, granted := some c } := by
  unfold chargePort
  split
  · rw [toShed_port]
    show ({ (w.st.setPort p { w.st.port p with granted := some c }).port p with state := _, cause := _, leaving := _ } : Port) = _
    rw [State.port_setPort, if_pos rfl]
  · exact toGoingUp_port _ _ _ _

theorem joinPower_port (w : Work) (p : PortRef) : (joinPower w p).st.port p = { w.st.port p with state := .waitPower } :=
  (State.port_setPort _ _ _ _).trans (if_pos rfl)

theorem joinLicence_port (w : Work) (p : PortRef) (n : Nat) : (joinLicence w p n).st.port p = { w.st.port p with state := .waitLicense } :=
  (State.port_setPort _ _ _ _).trans (if_pos rfl)

theorem admitted_decideAdmission (w : Work) (p : PortRef) (licence power : Bool) (h : (w.st.port p).request = some d) :
    Admitted p d (decideAdmission w p d licence power).st := by
  unfold decideAdmission
  split
  · split
    · have hport := chargePort_port w p d
      refine admitted_of_state ?_ ?_
      · rw [hport]
        split <;> exact h
      · rw [hport]
        split
        · exact .inr (.inr rfl)
        · exact .inl rfl
    · have hport := joinPower_port w p
      exact admitted_of_state (by rw [hport]; exact h) (.inr (.inl (by rw [hport])))
  · have hport := joinLicence_port w p d.units
    refine ⟨by rw [hport]; exact h, .inr (.inl (by rw [hport])), fun _ => ⟨⟨p.port, d.units⟩, ?_, rfl, rfl⟩⟩
    rw [joinLicence_queue, if_pos rfl]
    exact List.mem_append_right _ List.mem_cons_self

/-- A port that asks for a configuration without XD is admitted in one of the three ways. -/
theorem admitPort_eq (w : Work) (p : PortRef) (h : (w.st.port p).request = some d) (hxd : (d.xd && !w.st.xdFree) = false) : admitPort w p =
    decideAdmission w p d ((w.st.queue p.slot).isEmpty && w.st.licenceFits p.slot d.units)
      (w.st.powerFits (portDraw w.st.plu.inUse d (w.st.port p).optic)) := by
  unfold admitPort
  dsimp only
  rw [h]
  dsimp only
  rw [hxd, if_neg nofun]

theorem admitted_completeMove_self (w : Work) (p : PortRef) (licence power : Bool) (h : (w.st.port p).request = some d) (hxd : d.xd = false) :
    Admitted p d (completeMove w p licence power).st := by
  unfold completeMove
  rw [h]
  dsimp only
  rw [hxd, Bool.false_and, if_neg nofun]
  exact admitted_decideAdmission _ _ _ _ h

/-! ### Settling leaves an admitted port admitted -/

section Settle

theorem Admitted.setPbu (h : Admitted p d s) (x : Pbu) : Admitted p d (s.setPbu x) := ⟨h.request, h.state, h.queue⟩

theorem admitted_budgetStep (h : Admitted p d w.st) : Admitted p d (budgetStep none w).st := by
  cases hhold : w.st.pbu.hold with
  | true =>
    unfold budgetStep
    rw [if_pos hhold]
    exact h
  | false =>
    have hbudget := budgetStep_budgeted w hhold
    generalize (budgetStep none w).st = t at hbudget
    have hlu : t.lu = w.st.lu := by rw [hbudget.rest]
    obtain ⟨-, -, hkept, hshed, -⟩ := hbudget.shed
    by_cases hc : w.st.shedCandidate p
    · rcases hshed p hc with heq | ⟨honline, -⟩ | ⟨hup, heq⟩
      · exact h.of_grows heq (.of_lu hlu)
      · rcases h.state with hs | hs | hs | hs <;> rw [hs] at honline <;> cases honline
      · exact admitted_of_state (by rw [heq]; exact h.request) (.inl (by rw [heq]; exact hup))
    · exact h.of_grows (hkept p hc) (.of_lu hlu)

theorem admitted_completeMove (h : Admitted p d w.st) (hxd : d.xd = false) (q : PortRef) (licence power : Bool) :
    Admitted p d (completeMove w q licence power).st := by
  by_cases hq : q = p
  · subst hq
    exact admitted_completeMove_self w q licence power h.request hxd
  · exact h.of_grows (apart_completeMove hq w licence power).port (grows_completeMove _ _ _ _)

theorem admitted_grantHead (h : Admitted p d w.st) (hxd : d.xd = false) (b : Slot) (e : LicenceEntry) (he : (w.st.queue b).head? = some e) :
    Admitted p d (grantHead w b e).st := by
  unfold grantHead
  dsimp only
  by_cases hq : (⟨b, e.port⟩ : PortRef) = p
  · rw [hq]
    exact admitted_completeMove_self _ p true _ h.request hxd
  · have h1 : Admitted p d (w.map fun s => s.setQueue b (s.queue b).tail).st := ?_
    · exact admitted_completeMove h1 hxd _ _ _
    refine h.of rfl fun x hx hp => ?_
    show x ∈ (w.st.setQueue b (w.st.queue b).tail).queue p.slot
    rw [queue_setQueue]
    split
    · next hb =>
      have hxe : x ≠ e := fun hxe => hq (by rw [← hxe, hp, ← hb])
      rw [hb] at hx
      obtain ⟨l, hl⟩ := List.head?_eq_some_iff.1 he
      rw [hl] at hx ⊢
      exact (List.mem_cons.1 hx).resolve_left hxe
    · exact hx

theorem admitted_reservePass (h : Admitted p d w.st) (hxd : d.xd = false) : Admitted p d (reservePass w).1.st := by
  unfold reservePass
  suffices hfold : ∀ (l : List Slot) (acc : Work × Bool), Admitted p d acc.1.st → Admitted p d (l.foldl reserveStep acc).1.st from
    hfold _ (w, false) h
  intro l
  induction l with
  | nil => exact fun _ h => h
  | cons b l ih =>
    intro acc hacc
    refine ih _ ?_
    unfold reserveStep
    split
    · next e he =>
      split
      · exact admitted_grantHead hacc hxd b e he
      · exact hacc
    · exact hacc

theorem admitted_roundFrom (hxd : d.xd = false) : ∀ (n : Nat) (w : Work), Admitted p d w.st → Admitted p d (roundFrom n w).st
  | 0, _, h => h
  | n + 1, w, h => by
    unfold roundFrom
    dsimp only
    split
    · exact admitted_roundFrom hxd n _ (admitted_reservePass h hxd)
    · split
      · exact h
      · next c b _ =>
        have h1 : Admitted p d (w.map fun s => s.setLu { s.lu with counters := c }).st := ⟨h.request, h.state, h.queue⟩
        split
        · next e he => exact admitted_roundFrom hxd n _ (admitted_grantHead h1 hxd b e he)
        · exact h1

theorem admitted_grantIfDue (h : Admitted p d w.st) (hxd : d.xd = false) : Admitted p d (grantIfDue w).st := by
  unfold grantIfDue grantRound
  split
  · have h1 := admitted_roundFrom hxd (w.st.queued + 1) w h
    generalize roundFrom (w.st.queued + 1) w = r at h1 ⊢
    exact h1
  · exact h

theorem powerBlade_port (w : Work) (b : Slot) (p : PortRef) : (powerBlade w b).st.port p = w.st.port p := by
  unfold powerBlade startLink moveBlade
  dsimp only [Work.map]
  split <;> split <;> rfl

theorem powerBlade_lu (w : Work) (b : Slot) : (powerBlade w b).st.lu = w.st.lu := by
  unfold powerBlade startLink moveBlade
  dsimp only [Work.map]
  split <;> split <;> rfl

theorem admitted_restoreBlades : ∀ (l : List Slot) (w : Work), Admitted p d w.st → Admitted p d (restoreBlades l w).1.st
  | [], _, h => h
  | b :: rest, w, h => by
    unfold restoreBlades
    split
    · exact admitted_restoreBlades rest _ (h.of_grows (powerBlade_port w b p) (.of_lu (powerBlade_lu w b)))
    · exact h

theorem admitted_restorePort (h : Admitted p d w.st) (q : PortRef) : Admitted p d (restorePort w q).st := by
  by_cases hq : q = p
  · subst hq
    unfold restorePort
    split
    · next c hc =>
      have hport := toGoingUp_port w q c .enable
      exact admitted_of_state (by show ((toGoingUp w q c .enable).st.port q).request = _; rw [hport]; exact h.request)
        (.inl (by show ((toGoingUp w q c .enable).st.port q).state = _; rw [hport]))
    · exact h
  · refine h.of_grows (apart_restorePort hq w).port (.of_lu ?_)
    unfold restorePort
    split
    · exact toGoingUp_lu _ _ _ _
    · rfl

theorem admitted_restoreShed : ∀ (l : List PortRef) (w : Work), Admitted p d w.st → Admitted p d (restoreShed l w).1.st
  | [], _, h => h
  | q :: rest, w, h => by
    have hnext := admitted_restoreShed rest _ (admitted_restorePort h q)
    unfold restoreShed
    dsimp only
    split
    all_goals
      split
      · exact hnext
      · exact h

theorem admitted_restoreWaiting (hxd : d.xd = false) : ∀ (l : List PowerWait) (w : Work), Admitted p d w.st →
    Admitted p d (restoreWaiting l w).st
  | [], _, h => h
  | e :: rest, w, h => by
    have hnext : ∀ fits, Admitted p d (restoreWaiting rest (completeMove (leavePower w e.port) e.port fits true)).st := fun fits => by
      have h1 : Admitted p d (leavePower w e.port).st := h.setPbu _
      exact admitted_restoreWaiting hxd rest _ (admitted_completeMove h1 hxd _ _ _)
    unfold restoreWaiting
    dsimp only
    split
    · exact admitted_restoreWaiting hxd rest w h
    · split
      all_goals
        split
        · exact hnext _
        · exact h

theorem admitted_restoreIfDue (h : Admitted p d w.st) (hxd : d.xd = false) : Admitted p d (restoreIfDue w).st := by
  unfold restoreIfDue
  split
  · show Admitted p d (restoreDueNow w).st
    unfold restoreDueNow
    split
    · exact h.setPbu _
    · split
      · exact h
      · unfold restoreProcess
        dsimp only
        have h1 := admitted_restoreBlades w.st.bladeWait w h
        split
        · have h2 := admitted_restoreShed (restoreOrder (restoreBlades w.st.bladeWait w).1.st) _ h1
          split
          · exact admitted_restoreWaiting hxd _ _ h2
          · exact h2
        · exact h1
  · exact h

/-- Settling leaves an admitted port admitted. -/
theorem admitted_settle (h : Admitted p d w.st) (hxd : d.xd = false) : Admitted p d (settle w).st :=
  admitted_restoreIfDue (admitted_grantIfDue (admitted_budgetStep h) hxd) hxd

end Settle

end Sys2Proof.Machine
end

section
/-! PROOFS. ORDER_ACK: the port's state behind the acknowledgement, and what settling leaves of it. -/

set_option Elab.async false

namespace Sys2Proof.Machine

variable {r s t u : State} {w : Work} {b : Slot} {p q : PortRef} {c d : PortConfig}

/-! ### A port at rest behind settling -/

/-- A shed can make nothing of a port that is neither ONLINE nor GOING_UP. -/
theorem ShedOnly.eq_of {x y : Port} (h : ShedOnly x y) (honline : x.state ≠ .online) (hup : x.state ≠ .goingUp) : y = x := by
  cases h with
  | same => rfl
  | off hs => exact absurd hs honline
  | flag hs => exact absurd hs hup

theorem idlePort_congr (hlu : t.lu = s.lu) (hwait : t.pbu.waitList = s.pbu.waitList) (h : s.idlePort p) : t.idlePort p := by
  refine ⟨?_, by rw [hwait]; exact h.2⟩
  unfold State.queue
  rw [hlu]
  exact h.1

/-- A port in SHED that the restore process may not take now. -/
def State.keptShed (s : State) (p : PortRef) : Prop := s.pbu.hold = true ∨ s.pbu.holdoffAt ≠ none ∨ s.hot p.slot = true

theorem holdoffAt_budgetStep (w : Work) (h : w.st.pbu.holdoffAt ≠ none) : (budgetStep none w).st.pbu.holdoffAt ≠ none := by
  cases hhold : w.st.pbu.hold with
  | true =>
    unfold budgetStep
    rw [if_pos hhold]
    exact h
  | false =>
    rw [(budgetStep_budgeted w hhold).pbu, computeFigures_eq]
    dsimp only
    split
    · exact nofun
    · exact h

theorem keptShed_restoreProcess (hrest : AtRest p (r.port p) w.st) (hshed : (r.port p).state = .shed) (hhot : w.st.hot p.slot = true) :
    (restoreProcess w).st.port p = r.port p := by
  have heq : ∀ {s : State}, AtRest p (r.port p) s → s.port p = r.port p := fun h =>
    h.port.eq_of (by rw [hshed]; nofun) (by rw [hshed]; nofun)
  have h1 := atRest_restoreBlades w.st.bladeWait w hrest
  have hftu : (restoreBlades w.st.bladeWait w).1.st.ftu = w.st.ftu :=
    (settled_restoreBlades w.st.bladeWait w (fun b hm => by simpa [State.bladeWait] using hm) (.refl w.st)).ftu
  unfold restoreProcess
  dsimp only
  split
  · have hn : p ∉ restoreOrder (restoreBlades w.st.bladeWait w).1.st := fun hm => by
      obtain ⟨-, hcool, -⟩ := (mem_restoreOrder_iff _ p).1 hm
      unfold State.hot at hcool hhot
      rw [hftu, hhot] at hcool
      cases hcool
    have h2 := atRest_restoreShed _ _ hn h1
    split
    · exact heq (atRest_restoreWaiting _ _ h2.apart.2 h2)
    · exact heq h2
  · exact heq h1

/-- Settling leaves a port in SHED that the restore process may not take. -/
theorem settle_keptShed (hidle : w.st.idlePort p) (hshed : (w.st.port p).state = .shed) (hkept : w.st.keptShed p) :
    (settle w).st.port p = w.st.port p := by
  have hrest := atRest_grantIfDue (atRest_budgetStep none ⟨hidle, .same⟩)
  have hsettled := settled_grantIfDue (settled_budgetStep none (.refl w.st))
  have hholdoff : w.st.pbu.holdoffAt ≠ none → (grantIfDue (budgetStep none w)).st.pbu.holdoffAt ≠ none := fun h => by
    have hview := congrArg Pbu.holdoffAt (budgetView_grantIfDue (budgetStep none w))
    exact fun hnone => holdoffAt_budgetStep w h (hview.symm.trans hnone)
  unfold settle
  generalize grantIfDue (budgetStep none w) = v at hrest hsettled hholdoff
  have heq : v.st.port p = w.st.port p := hrest.port.eq_of (by rw [hshed]; nofun) (by rw [hshed]; nofun)
  unfold restoreIfDue
  split
  · show (restoreDueNow v).st.port p = _
    unfold restoreDueNow
    split
    · exact heq
    · next hhold =>
      split
      · exact heq
      · next hnone =>
        have hhot : v.st.hot p.slot = true := by
          rcases hkept with h | h | h
          · exact absurd (hsettled.hold.trans h) hhold
          · exact absurd (Option.isSome_iff_ne_none.2 (hholdoff h)) hnone
          · unfold State.hot
            rw [hsettled.ftu]
            exact h
        exact keptShed_restoreProcess hrest hshed hhot
  · exact heq

/-- A change of one port that leaves its draw leaves the projected draw. -/
theorem projected_setPort (x : Port) (hdeparting : x.departing = (s.port p).departing)
    (hdraw : x.draw s.plu.inUse = (s.port p).draw s.plu.inUse) : (s.setPort p x).projected = s.projected := by
  have hsum := sumAll_setPort s p x (fun y => if y.departing then 0 else y.draw s.plu.inUse)
  rw [hdeparting, hdraw] at hsum
  show s.baseDraw + (s.setPort p x).sumAll _ = s.baseDraw + s.sumAll _
  exact congrArg (s.baseDraw + ·) (Nat.add_right_cancel hsum)

/-- With nothing due and the draw within A, settling leaves the ports. -/
theorem settle_pau_kept (hgrant : w.grantDue = false) (hrestore : w.restoreDue = false)
    (hfits : w.st.pbu.hold = true ∨ w.st.projected ≤ (computeFigures w.st).available) : (settle w).st.pau = w.st.pau := by
  rw [settle_of_notDue w hgrant hrestore]
  cases hhold : w.st.pbu.hold with
  | true =>
    unfold budgetStep
    rw [if_pos hhold]
  | false =>
    have hbudget := budgetStep_budgeted w hhold
    obtain ⟨-, hsame, -⟩ := hbudget.shed
    refine hsame ?_
    rw [hbudget.pbu]
    rw [hhold] at hfits
    exact hfits.resolve_left nofun

/-! ### The acknowledgement -/

theorem enableDone_unwanted (h : (w.st.port p).desired = false) : enableDone w p = toGoingDown w p .request := by
  unfold enableDone
  dsimp only
  rw [h]
  exact if_pos rfl

theorem enableDone_leaving (h : (w.st.port p).desired = true) (hleaving : (w.st.port p).leaving ≠ .clear) :
    enableDone w p = toGoingDown w p (w.st.port p).leaving.cause := by
  unfold enableDone
  dsimp only
  rw [h, if_neg (by decide), if_pos hleaving]

theorem evaluateOnline_same (hgranted : (w.st.port p).granted = some c) (hrequest : (w.st.port p).request = some c) : evaluateOnline w p = w := by
  unfold evaluateOnline
  rw [hgranted, hrequest]
  exact if_pos rfl

theorem enableDone_kept (h : (w.st.port p).desired = true) (hleaving : (w.st.port p).leaving = .clear) (hgranted : (w.st.port p).granted = some c)
    (hrequest : (w.st.port p).request = some c) : enableDone w p = w.setPort p { w.st.port p with state := .online } := by
  have hport : (w.setPort p { w.st.port p with state := .online }).st.port p = { w.st.port p with state := .online } :=
    (State.port_setPort _ _ _ _).trans (if_pos rfl)
  unfold enableDone
  dsimp only
  rw [if_neg (by rw [h]; decide), if_neg (not_not_intro hleaving)]
  exact evaluateOnline_same (by rw [hport]; exact hgranted) (by rw [hport]; exact hrequest)

/-- What an answered order leaves once it settles. -/
theorem orderAnswered_left {l : Link} {v x y : Work} (o : State) (hst : v.st = s.setLink b l) (hx : Settled v.st x.st)
    (hy : y = x.map fun s => pumpLink s b) {t : State} (ht : t = publish o (settle y)) :
    (x.st.idlePort p → (x.st.port p).state ≠ .shed → ShedOnly (x.st.port p) (t.port p)) ∧
    (∀ q, (t.port q).asks = (s.port q).asks) ∧ admissionFrame s t := by
  subst ht
  have hports : ∀ q, y.st.port q = x.st.port q := fun q => by rw [hy]; rfl
  have hidle : x.st.idlePort p → y.st.idlePort p := idlePort_congr (by rw [hy]; rfl) (by rw [hy]; rfl)
  have hrest : y.st.idlePort p → (y.st.port p).state ≠ .shed → AtRest p (y.st.port p) (settle y).st := settle_atRest
  have hsettled := settle_settled y
  generalize settle y = z at hrest hsettled ⊢
  have hv : Admits s v.st := by
    rw [hst]
    exact admits_setLink s b l
  have hxy : Admits x.st y.st := by
    rw [hy]
    exact admits_setLink _ _ _
  refine ⟨fun hi hs => ?_, fun q => ?_, (hv.trans (hx.admits.trans (hxy.trans hsettled.admits))).frame o⟩
  · have h := (hrest (hidle hi) (by rw [hports]; exact hs)).port
    rw [hports] at h
    exact h
  · have hq := (hsettled.port q).asks.trans ((congrArg Port.asks (hports q)).trans (hx.port q).asks)
    rw [hst] at hq
    exact hq

theorem setLink_twice (s : State) (b : Slot) (l m : Link) : (s.setLink b l).setLink b m = s.setLink b m := by
  simp [State.setLink, State.setBlc, Vector.put]

theorem outstanding_some {l : Link} {tag : OrderTag} {o : OutOrder} (h : l.orders.get tag = some o) : l.outstanding tag.1 = some (tag, o) := by
  unfold Link.outstanding
  rw [dif_pos tag.2]
  show (l.orders.get tag).map _ = _
  rw [h]
  rfl

theorem outstanding_none {l : Link} {n : Nat} (h : ∀ k : OrderTag, k.1 = n → l.orders.get k = none) : l.outstanding n = none := by
  unfold Link.outstanding
  split
  · next hn =>
    rw [h ⟨n, hn⟩ rfl]
    rfl
  · rfl

/-- The answer to an outstanding order is decided by its port and then settles. -/
theorem exec_orderAck {tag : OrderTag} {o : OutOrder} {r : OrderResult} {Q : State → Prop} (hup : (s.link b).state = .up)
    (horder : (s.link b).orders.get tag = some o)
    (h : ∀ (l : Link) (v y : Work), v.st = s.setLink b l → v.grantDue = false → v.restoreDue = false →
      (y = (acknowledge v ⟨b, o.order.port⟩ o.order.action r).map fun s => pumpLink s b) → Q (publish s (settle y))) :
    ∃ t, exec (.orderAck b (BitVec.ofNat 8 tag.1) r) s = .next t ∧ Q t := by
  show ∃ t, execOrderAck b (BitVec.ofNat 8 tag.1) r s = .next t ∧ _
  unfold execOrderAck takeOrderAck
  refine answered (linkUp_of_state hup) ?_
  have htag : (BitVec.ofNat 8 tag.1).toNat = tag.1 := by
    have := tag.2
    rw [BitVec.toNat_ofNat]
    omega
  dsimp only
  rw [htag, outstanding_some horder]
  dsimp only
  obtain ⟨hst, -⟩ := keepAlive_st (Work.start s) b
  have hdue := sameDue_keepAlive (Work.start s) b
  generalize keepAlive (Work.start s) b = w at hst hdue ⊢
  have hv : (w.setLink b { w.st.link b with orders := Vector.put (w.st.link b).orders tag none }).st =
      s.setLink b { w.st.link b with orders := Vector.put (w.st.link b).orders tag none } := by
    rw [Work.setLink_st, hst]
    exact setLink_twice _ _ _ _
  unfold orderAnswered
  dsimp only
  have hsame : w.sameDue (w.setLink b { w.st.link b with orders := Vector.put (w.st.link b).orders tag none }) := ⟨rfl, rfl⟩
  generalize w.setLink b _ = v at hv hsame ⊢
  exact h _ v _ hv (hsame.1.trans hdue.1) (hsame.2.trans hdue.2) rfl

theorem toGoingDown_self (w : Work) (p : PortRef) (c : PortCause) : (toGoingDown w p c).st.port p =
    { w.st.port p with state := .goingDown, cause := c, leaving := .clear } := by rw [toGoingDown_port, if_pos rfl]

theorem toOffline_self (w : Work) (p : PortRef) (c : PortCause) : (toOffline w p c).st.port p =
    { w.st.port p with state := .offline, cause := c, leaving := .clear, granted := none } := by
  rw [toOffline_st]
  exact (State.port_setPort _ _ _ _).trans (if_pos rfl)

theorem idlePort_toGoingDown (h : w.st.idlePort q) (p : PortRef) (c : PortCause) : (toGoingDown w p c).st.idlePort q :=
  idlePort_congr (by rw [toGoingDown_rest]; rfl) (by rw [toGoingDown_rest]; rfl) h

theorem idlePort_toOffline (h : w.st.idlePort q) (p : PortRef) (c : PortCause) : (toOffline w p c).st.idlePort q := by
  rw [toOffline_st]
  exact h

theorem idlePort_toShed (h : w.st.idlePort q) (p : PortRef) (c : PortCause) : (toShed w p c).st.idlePort q := by
  rw [toShed_st]
  exact h

/-- A port that the acknowledgement sends to GOING_DOWN is there once it settles. -/
theorem ShedOnly.down {x y : Port} {cause : PortCause}
    (h : ShedOnly { x with state := .goingDown, cause := cause, leaving := .clear } y) :
    y = { x with state := .goingDown, cause := cause, leaving := .clear } := h.eq_of nofun nofun

/-- ENABLE or RECONFIG answered DONE (Table 5.2-3 rows 1 to 3). -/
theorem enableAnswered_left {l : Link} {v y : Work} (o : State) (hst : v.st = s.setLink b l) (hgrant : v.grantDue = false)
    (hrestore : v.restoreDue = false) (hy : y = (enableDone v p).map fun s => pumpLink s b) (hidle : s.idlePort p)
    (hstate : (s.port p).state = .goingUp) (hgranted : (s.port p).granted = some c) {t : State} (ht : t = publish o (settle y)) :
    ((s.port p).desired = false → (t.port p).state = .goingDown ∧ (t.port p).cause = .request) ∧
    ((s.port p).desired = true → (s.port p).leaving ≠ .clear → (t.port p).state = .goingDown ∧ (t.port p).cause = (s.port p).leaving.cause) ∧
    ((s.port p).desired = true → (s.port p).leaving = .clear → (s.port p).request = some c →
      ((t.port p).state = .online ∨ ((t.port p).state = .goingDown ∧ (t.port p).cause = .power)) ∧
      (s.pbu.hold = true ∨ s.projected ≤ (computeFigures s).available → (t.port p).state = .online)) ∧
    (((s.port p).desired = true → (s.port p).leaving = .clear → (s.port p).request = some c) → (t.port p).granted = some c) ∧
    (∀ q, (t.port q).asks = (s.port q).asks) ∧ admissionFrame s t := by
  obtain ⟨hrest, hasks, hframe⟩ := orderAnswered_left (p := p) o hst (settled_enableDone (.refl _) p) hy ht
  have hport : v.st.port p = s.port p := by
    rw [hst]
    rfl
  have hv : v.st.idlePort p := by
    rw [hst]
    exact hidle
  have hdown : ∀ cause, enableDone v p = toGoingDown v p cause →
      t.port p = { s.port p with state := .goingDown, cause := cause, leaving := .clear } := fun cause h => by
    rw [h, toGoingDown_self, hport] at hrest
    exact (hrest (idlePort_toGoingDown hv p cause) nofun).down
  cases hdesired : (s.port p).desired with
  | false =>
    have ht := hdown _ (enableDone_unwanted (by rw [hport]; exact hdesired))
    exact ⟨fun _ => by rw [ht]; exact ⟨rfl, rfl⟩, nofun, nofun, fun _ => by rw [ht]; exact hgranted, hasks, hframe⟩
  | true =>
    by_cases hleaving : (s.port p).leaving = .clear
    · refine ⟨nofun, fun _ h => absurd hleaving h, ?_⟩
      by_cases hrequest : (s.port p).request = some c
      · have hkept : enableDone v p = v.setPort p { s.port p with state := .online } := by
          rw [enableDone_kept (c := c) (by rw [hport]; exact hdesired) (by rw [hport]; exact hleaving) (by rw [hport]; exact hgranted)
            (by rw [hport]; exact hrequest), hport]
        have honline : (v.setPort p { s.port p with state := .online }).st.port p = { s.port p with state := .online } :=
          (State.port_setPort _ _ _ _).trans (if_pos rfl)
        rw [hkept, honline] at hrest
        have hshed := hrest hv nofun
        have hyst : y.st = (v.st.setPort p { s.port p with state := .online }).setBlc y.st.blc := by
          rw [hy, hkept]
          rfl
        have hsettled : s.pbu.hold = true ∨ s.projected ≤ (computeFigures s).available → (t.port p).state = .online := fun hfits => by
          have hpau : t.pau = y.st.pau := by
            rw [ht]
            refine settle_pau_kept (by rw [hy, hkept]; exact hgrant) (by rw [hy, hkept]; exact hrestore) ?_
            have hprojected : y.st.projected = s.projected := by
              have h1 : y.st.projected = (s.setPort p { s.port p with state := .online }).projected :=
                projected_congr (by rw [hyst, hst]; rfl) (by rw [hyst, hst]; rfl)
              rw [h1]
              refine projected_setPort _ ?_ ?_
              · unfold Port.departing
                rw [hstate]
                rfl
              · unfold Port.draw
                rw [hstate]
                rfl
            have havailable : (computeFigures y.st).available = (computeFigures s).available := by
              rw [hyst, hst]
              rfl
            have hhold : y.st.pbu.hold = s.pbu.hold := by
              rw [hyst, hst]
              rfl
            rw [hprojected, havailable, hhold]
            exact hfits
          unfold State.port
          rw [hpau, hyst]
          exact congrArg Port.state honline
        refine ⟨fun _ _ _ => ⟨?_, hsettled⟩, fun _ => ?_, hasks, hframe⟩
        · generalize t.port p = x at hshed
          cases hshed with
          | same => exact .inl rfl
          | off => exact .inr ⟨rfl, rfl⟩
          | flag h => cases h
        · generalize t.port p = x at hshed
          cases hshed with
          | same => exact hgranted
          | off => exact hgranted
          | flag h => cases h
      · exact ⟨fun _ _ h => absurd h hrequest, fun h => absurd (h rfl hleaving) hrequest, hasks, hframe⟩
    · have ht := hdown _ (enableDone_leaving (by rw [hport]; exact hdesired) (by rw [hport]; exact hleaving))
      rw [hport] at ht
      exact ⟨nofun, fun _ _ => by rw [ht]; exact ⟨rfl, rfl⟩, fun _ h => absurd h hleaving, fun _ => by rw [ht]; exact hgranted, hasks, hframe⟩

theorem disableDone_unwanted (again : Bool) (h : (w.st.port p).desired = false) : disableDone w p again = toOffline w p .request := by
  unfold disableDone
  dsimp only
  exact if_pos (by rw [h]; rfl)

/-- A completed DISABLE of a wanted port, by its cause. -/
theorem disableDone_wanted (h : (w.st.port p).desired = true) :
    ((w.st.port p).cause = .power ∨ (w.st.port p).cause = .thermal → disableDone w p true = toShed w p (w.st.port p).cause) ∧
    ((w.st.port p).cause = .feRefused → disableDone w p true = toOffline w p .feRefused) ∧
    ((w.st.port p).cause = .request → disableDone w p true = admitPort (toOffline w p .request) p) := by
  have hwanted : ¬(!(w.st.port p).desired) = true := by
    rw [h]
    decide
  unfold disableDone
  dsimp only
  rw [if_neg hwanted]
  refine ⟨fun hcause => ?_, fun hcause => ?_, fun hcause => ?_⟩
  · rcases hcause with hc | hc <;> rw [hc]
  · rw [hcause]
  · rw [hcause]
    rfl

/-- DISABLE answered DONE or REFUSED (Table 5.2-3 rows 6 to 9). -/
theorem disableAnswered_left {l : Link} {v x y : Work} (o : State) (hst : v.st = s.setLink b l) (hx : x.st = (disableDone v p true).st)
    (hy : y = x.map fun s => pumpLink s b) (hidle : s.idlePort p) (hgranted : (s.port p).granted = some c) (hslot : p.slot = b)
    {t : State} (ht : t = publish o (settle y)) :
    ((s.port p).desired = false → (t.port p).state = .offline ∧ (t.port p).cause = .request ∧ (t.port p).granted = none) ∧
    ((s.port p).desired = true → (s.port p).cause = .power ∨ (s.port p).cause = .thermal →
      s.pbu.hold = true ∨ s.pbu.holdoffAt ≠ none ∨ s.hot b = true →
      (t.port p).state = .shed ∧ (t.port p).cause = (s.port p).cause ∧ (t.port p).granted = some c) ∧
    ((s.port p).desired = true → (s.port p).cause = .feRefused → (t.port p).state = .offline ∧
      (t.port p).cause = .feRefused ∧ (t.port p).granted = none) ∧
    (∀ d, (s.port p).desired = true → (s.port p).cause = .request → (s.port p).request = some d → d.xd = false →
      (t.port p).state = .goingUp ∨ (t.port p).state = .waitLicense ∨ (t.port p).state = .waitPower ∨ (t.port p).state = .shed) ∧
    (∀ q, (t.port q).asks = (s.port q).asks) ∧ admissionFrame s t := by
  obtain ⟨hrest, hasks, hframe⟩ := orderAnswered_left (p := p) o hst (hx ▸ settled_disableDone (.refl _) p true) hy ht
  rw [hx] at hrest
  have hport : v.st.port p = s.port p := by
    rw [hst]
    rfl
  have hv : v.st.idlePort p := by
    rw [hst]
    exact hidle
  have hoff : ∀ cause, disableDone v p true = toOffline v p cause →
      t.port p = { s.port p with state := .offline, cause := cause, leaving := .clear, granted := none } := fun cause h => by
    rw [h, toOffline_self, hport] at hrest
    exact (hrest (idlePort_toOffline hv p cause) nofun).eq_of nofun nofun
  have hwanted := disableDone_wanted (w := v) (p := p)
  rw [hport] at hwanted
  refine ⟨fun h => ?_, fun h hcause hno => ?_, fun h hcause => ?_, fun d h hcause hrequest hxd => ?_, hasks, hframe⟩
  · rw [hoff _ (disableDone_unwanted true (by rw [hport]; exact h))]
    exact ⟨rfl, rfl, rfl⟩
  · have hshed : x.st = v.st.setPort p { s.port p with state := .shed, leaving := .clear } := by
      rw [hx, (hwanted h).1 hcause, toShed_st, hport]
    have hyp : y.st.port p = { s.port p with state := .shed, leaving := .clear } := by
      rw [hy]
      show x.st.port p = _
      rw [hshed]
      exact (State.port_setPort _ _ _ _).trans (if_pos rfl)
    have hidley : y.st.idlePort p := idlePort_congr (by rw [hy]; show x.st.lu = _; rw [hshed]; rfl)
      (by rw [hy]; show x.st.pbu.waitList = _; rw [hshed]; rfl) hv
    have hkept : y.st.keptShed p := by
      have hpbu : y.st.pbu = s.pbu := by
        rw [hy]
        show x.st.pbu = _
        rw [hshed, hst]
        rfl
      have hhot : y.st.hot p.slot = s.hot b := by
        rw [hy, hslot]
        show x.st.hot b = _
        rw [hshed, hst]
        rfl
      unfold State.keptShed
      rw [hpbu, hhot]
      exact hno
    have htp : t.port p = { s.port p with state := .shed, leaving := .clear } := by
      rw [ht]
      exact (settle_keptShed hidley (by rw [hyp]) hkept).trans hyp
    rw [htp]
    exact ⟨rfl, rfl, hgranted⟩
  · rw [hoff _ ((hwanted h).2.1 hcause)]
    exact ⟨rfl, rfl, rfl⟩
  · have hadmit : Admitted p d (admitPort (toOffline v p .request) p).st := by
      have hreq : ((toOffline v p .request).st.port p).request = some d := by
        rw [toOffline_self, hport]
        exact hrequest
      rw [admitPort_eq _ p hreq (by rw [hxd]; rfl)]
      exact admitted_decideAdmission _ p _ _ hreq
    have hxy : Admitted p d y.st := by
      rw [hy]
      refine Admitted.of_grows (s := x.st) ?_ rfl (.of_lu rfl)
      rw [hx, (hwanted h).2.2 hcause]
      exact hadmit
    rw [ht]
    exact (admitted_settle hxy hxd).state

theorem acknowledge_disable {r : OrderResult} (h : (w.st.port p).state = .goingDown) :
    (acknowledge w p .disable r).st = (disableDone w p true).st := by
  unfold acknowledge
  rw [h]
  cases r <;> rfl

theorem acknowledge_done {a : OrderAction} (h : (w.st.port p).state = .goingUp) (ha : a = .enable ∨ a = .reconfig) :
    acknowledge w p a .done = enableDone w p := by
  unfold acknowledge
  rw [h]
  rcases ha with rfl | rfl <;> rfl

theorem acknowledge_enableRefused (h : (w.st.port p).state = .goingUp) :
    (acknowledge w p .enable .refused).st = (toOffline w p .feRefused).st := by
  unfold acknowledge
  rw [h]
  rfl

theorem acknowledge_reconfigRefused (h : (w.st.port p).state = .goingUp) :
    (acknowledge w p .reconfig .refused).st = (toGoingDown w p .feRefused).st := by
  unfold acknowledge
  rw [h]
  rfl

/-- Settles O39: by the port's state, the order and its result. -/
theorem orderAckDecidesThePort : Obligations.OrderAckDecidesThePort := by
  refine ⟨fun b tag s o p c hup horder hp hidle hgranted => ⟨fun hstate haction => ?_, fun hstate haction => ?_, fun hstate haction => ?_,
    fun r hstate haction => ?_⟩, fun b tag r s hup herrors hnone => ?_⟩
  · refine exec_orderAck hup horder fun l v y hst hgrant hrestore hy => ?_
    rw [← hp, acknowledge_done (by rw [hst]; exact hstate) haction] at hy
    exact enableAnswered_left s hst hgrant hrestore hy hidle hstate hgranted rfl
  · refine exec_orderAck hup horder fun l v y hst _ _ hy => ?_
    rw [← hp, haction] at hy
    have hx := acknowledge_enableRefused (w := v) (p := p) (by rw [hst]; exact hstate)
    obtain ⟨hrest, hasks, hframe⟩ := orderAnswered_left (p := p) s hst (settled_acknowledge (.refl _) p _ _) hy rfl
    rw [hx, toOffline_self] at hrest
    have hport := (hrest (idlePort_toOffline (by rw [hst]; exact hidle) p _) nofun).eq_of nofun nofun
    exact ⟨by rw [hport], by rw [hport], by rw [hport], hasks, hframe⟩
  · refine exec_orderAck hup horder fun l v y hst _ _ hy => ?_
    rw [← hp, haction] at hy
    have hx := acknowledge_reconfigRefused (w := v) (p := p) (by rw [hst]; exact hstate)
    obtain ⟨hrest, hasks, hframe⟩ := orderAnswered_left (p := p) s hst (settled_acknowledge (.refl _) p _ _) hy rfl
    rw [hx, toGoingDown_self] at hrest
    have hport := (hrest (idlePort_toGoingDown (by rw [hst]; exact hidle) p _) nofun).down
    refine ⟨by rw [hport], by rw [hport], ?_, hasks, hframe⟩
    rw [hport, hst]
    exact hgranted
  · refine exec_orderAck hup horder fun l v y hst _ _ hy => ?_
    rw [← hp, haction] at hy
    exact disableAnswered_left s hst (acknowledge_disable (by rw [hst]; exact hstate)) hy hidle hgranted (by rw [hp]) rfl
  · show ∃ t, execOrderAck b tag r s = .next t ∧ _
    unfold execOrderAck takeOrderAck
    refine answered (linkUp_of_state hup) ?_
    dsimp only
    rw [outstanding_none hnone]
    dsimp only
    obtain ⟨hst, hevents⟩ := keepAlive_st (Work.start s) b
    generalize keepAlive (Work.start s) b = v at hst hevents ⊢
    rw [show (Work.start s).st = s from rfl, Link.alive_of_up hup] at hst
    have hself : (s.setLink b { s.link b with keepAt := some (s.now + sec 2) }).link b = { s.link b with keepAt := some (s.now + sec 2) } :=
      (State.link_setLink _ _ _ _).trans (if_pos rfl)
    have hcounted : (linkFault v b .unknownOrderTag 5 tag.toNat).st = (s.setLink b { s.link b with keepAt := some (s.now + sec 2) }).counted b := by
      show (linkError v b).st = _
      rw [linkError_st (by rw [hst, hself]; exact herrors), hst]
    have herr := linkError_events v b
    obtain ⟨hlink, hothers, -, hback, hframe⟩ := counted_left s hcounted
    rw [hself] at hlink
    refine ⟨hlink, fun c hc => (hothers c hc).trans ((State.link_setLink _ _ _ _).trans (if_neg hc)), fun q => ?_, fun hpart hroom => ?_, hback, hframe⟩
    · show (linkFault v b .unknownOrderTag 5 tag.toNat).st.port q = _
      rw [hcounted]
      rfl
    · have hone := publish_one_event (w := linkFault v b .unknownOrderTag 5 tag.toNat) s (e := linkEvent b .unknownOrderTag 5 tag.toNat) (by
        show (linkError v b).events ++ _ = _
        rw [herr, hevents]
        rfl) (by rw [hcounted]; exact hpart) (by rw [hcounted]; exact hroom)
      rw [hcounted] at hone
      exact hone

end Sys2Proof.Machine
end

section
/-! PROOFS. An order handed to the BLC stays with its link while an event settles. -/

set_option Elab.async false

namespace Sys2Proof.Machine

variable {r s t u : State} {w : Work} {b : Slot} {p q : PortRef} {o : Order}

/-! ### The transmitter -/

theorem takeOrder_holdsOrder {l : Link} (h : o ∈ l.queue) : l.takeOrder.holdsOrder o := by
  unfold Link.takeOrder
  split
  · next a rest free hqueue _ =>
    rw [hqueue] at h
    rcases List.mem_cons.1 h with rfl | h
    · exact .inr ⟨free, ⟨o, none⟩, by dsimp only; rw [Vector.get_put, if_pos rfl], rfl⟩
    · exact .inl h
  · exact .inl h

/-- Taking the next message keeps every order with the link. -/
theorem pump_holdsOrder {l : Link} (h : l.holdsOrder o) : l.pump.holdsOrder o := by
  rcases h with h | ⟨tag, x, hx, ho⟩
  · have htake := takeOrder_holdsOrder h
    unfold Link.pump
    split
    · exact .inl h
    · split
      · exact .inl h
      · split
        · exact .inl h
        · split
          · exact htake
          · split
            · split
              · exact htake
              · exact .inl h
            · unfold Link.takeData
              split <;> exact .inl h
  · exact .inr ⟨tag, x, pump_order hx, ho⟩

/-! ### An order with an UP link -/

/-- The link is UP and holds the order. -/
structure Ordered (b : Slot) (o : Order) (s : State) : Prop where
  up : (s.link b).state = .up
  order : (s.link b).holdsOrder o

theorem Ordered.of_link (h : Ordered b o s) (hlink : t.link b = s.link b) : Ordered b o t :=
  ⟨by rw [hlink]; exact h.up, by rw [hlink]; exact h.order⟩

theorem Ordered.of_blc (h : Ordered b o s) (hblc : t.blc = s.blc) : Ordered b o t := h.of_link (by unfold State.link; rw [hblc])

theorem handOrder_link (s : State) (b c : Slot) (o : Order) : (handOrder s b o).link c =
    if c = b ∧ (s.link b).state = .up then ({ s.link b with queue := (s.link b).queue ++ [o] } : Link).pump else s.link c := by
  unfold handOrder
  split
  · next h =>
    simp only [pumpLink, State.link_setLink, if_true, h, and_true]
    split <;> rfl
  · next h => rw [if_neg fun hh => h hh.2]

theorem ordered_handOrder (h : Ordered b o s) (c : Slot) (a : Order) : Ordered b o (handOrder s c a) := by
  by_cases hc : b = c ∧ (s.link c).state = .up
  · obtain ⟨rfl, hup⟩ := hc
    have hlink := handOrder_link s b b a
    rw [if_pos ⟨rfl, hup⟩] at hlink
    refine ⟨?_, ?_⟩
    · rw [hlink, (Link.pump_kept _).state]
      exact hup
    · rw [hlink]
      refine pump_holdsOrder ?_
      rcases h.order with hq | ho
      · exact .inl (List.mem_append_left _ hq)
      · exact .inr ho
  · exact h.of_link ((handOrder_link s c b a).trans (if_neg hc))

/-- The order itself, as it is handed to an UP link. -/
theorem ordered_handed (s : State) (b : Slot) (o : Order) (hup : (s.link b).state = .up) : Ordered b o (handOrder s b o) := by
  have hlink := (handOrder_link s b b o).trans (if_pos ⟨rfl, hup⟩)
  refine ⟨?_, ?_⟩
  · rw [hlink, (Link.pump_kept _).state]
    exact hup
  · rw [hlink]
    exact pump_holdsOrder (.inl (List.mem_append_right _ List.mem_cons_self))

/-! ### Moves of ports -/

theorem ordered_toGoingUp (h : Ordered b o w.st) (p : PortRef) (c : PortConfig) (a : OrderAction) : Ordered b o (toGoingUp w p c a).st :=
  ordered_handOrder (s := w.st.setPort p { w.st.port p with state := .goingUp, cause := .none, granted := some c }) (h.of_link rfl) _ _

theorem ordered_toGoingDown (h : Ordered b o w.st) (p : PortRef) (c : PortCause) : Ordered b o (toGoingDown w p c).st := by
  unfold toGoingDown
  dsimp only
  split
  · exact ordered_handOrder (s := w.st.setPort p { w.st.port p with state := .goingDown, cause := c, leaving := .clear }) (h.of_link rfl) _ _
  · exact h.of_link rfl

theorem ordered_toShed (h : Ordered b o w.st) (p : PortRef) (c : PortCause) : Ordered b o (toShed w p c).st := by
  rw [toShed_st]
  exact h.of_link rfl

theorem ordered_chargePort (h : Ordered b o w.st) (p : PortRef) (c : PortConfig) : Ordered b o (chargePort w p c).st := by
  unfold chargePort
  split
  · exact ordered_toShed (w := w.setPort p { w.st.port p with granted := some c }) (h.of_link rfl) _ _
  · exact ordered_toGoingUp h _ _ _

theorem ordered_decideAdmission (h : Ordered b o w.st) (p : PortRef) (c : PortConfig) (licence power : Bool) :
    Ordered b o (decideAdmission w p c licence power).st := by
  unfold decideAdmission
  split
  · split
    · exact ordered_chargePort h _ _
    · exact h.of_link rfl
  · exact h.of_link rfl

theorem ordered_completeMove (h : Ordered b o w.st) (p : PortRef) (licence power : Bool) : Ordered b o (completeMove w p licence power).st := by
  unfold completeMove
  split
  · exact h
  · split
    · exact h.of_link rfl
    · exact ordered_decideAdmission h _ _ _ _

theorem ordered_leavePort (h : Ordered b o w.st) (p : PortRef) (c : LeaveCause) : Ordered b o (leavePort w p c).st := by
  unfold leavePort
  split
  · exact ordered_toGoingDown h _ _
  · exact h.of_link rfl
  · exact h

theorem ordered_restorePort (h : Ordered b o w.st) (p : PortRef) : Ordered b o (restorePort w p).st := by
  unfold restorePort
  split
  · exact ordered_toGoingUp h _ _ _
  · exact h

theorem ordered_powerBlade (h : Ordered b o w.st) (c : Slot) : Ordered b o (powerBlade w c).st := by
  have hmove : ∀ x, Ordered b o (moveBlade w c x).st := fun x => by
    unfold moveBlade
    dsimp only
    split <;> exact h.of_link rfl
  unfold powerBlade
  rw [Work.map_st]
  unfold startLink
  dsimp only
  split
  · next hdown =>
    have hb : b ≠ c := fun hbc => by
      have hup := (hmove { w.st.blade c with state := .powering, base := w.st.plu.inUse.defaultBase, debounced := false }).up
      rw [hbc, hdown] at hup
      cases hup
    exact (hmove _).of_link ((State.link_setLink _ _ _ _).trans (if_neg hb))
  · exact hmove _

/-! ### Settling -/

theorem ordered_selectShed (a : Nat) : ∀ (l : List (PortRef × Port)) (m n : Nat) (w : Work), Ordered b o w.st →
    Ordered b o (selectShed a l m n w).1.st
  | [], _, _, _, h => h
  | (q, x) :: rest, m, n, w, h => by
    unfold selectShed
    split
    · exact h
    · exact ordered_selectShed a rest _ _ _ (ordered_leavePort h q _)

theorem ordered_budgetStep (h : Ordered b o w.st) : Ordered b o (budgetStep none w).st := by
  unfold budgetStep
  split
  · exact h
  · unfold computeBudget
    dsimp only
    generalize hv : (if (w.setPbu (computeFigures w.st)).st.pbu.redundancyLost ≠ w.st.pbu.redundancyLost then _ else _ : Work) = v
    have hvo : Ordered b o v.st := by
      rw [← hv]
      split <;> exact h.of_link rfl
    split
    · rw [shedSelection_st]
      exact (ordered_selectShed v.st.pbu.available _ _ 0 v hvo).of_link rfl
    · rw [setCritical_st]
      exact hvo.of_link rfl

theorem ordered_grantHead (h : Ordered b o w.st) (c : Slot) (e : LicenceEntry) : Ordered b o (grantHead w c e).st := by
  have h1 : Ordered b o (w.map (fun s => s.setQueue c (s.queue c).tail)).st := h.of_link rfl
  unfold grantHead
  exact ordered_completeMove h1 _ _ _

theorem ordered_reservePass (h : Ordered b o w.st) : Ordered b o (reservePass w).1.st := by
  unfold reservePass
  suffices hfold : ∀ (l : List Slot) (acc : Work × Bool), Ordered b o acc.1.st → Ordered b o (l.foldl reserveStep acc).1.st from
    hfold _ (w, false) h
  intro l
  induction l with
  | nil => exact fun _ h => h
  | cons c l ih =>
    intro acc hacc
    refine ih _ ?_
    unfold reserveStep
    split
    · split
      · exact ordered_grantHead hacc _ _
      · exact hacc
    · exact hacc

theorem ordered_roundFrom : ∀ (n : Nat) (w : Work), Ordered b o w.st → Ordered b o (roundFrom n w).st
  | 0, _, h => h
  | n + 1, w, h => by
    unfold roundFrom
    dsimp only
    split
    · exact ordered_roundFrom n _ (ordered_reservePass h)
    · split
      · exact h
      · next c k _ =>
        have h1 : Ordered b o (w.map fun s => s.setLu { s.lu with counters := c }).st := h.of_link rfl
        split
        · exact ordered_roundFrom n _ (ordered_grantHead h1 _ _)
        · exact h1

theorem ordered_grantIfDue (h : Ordered b o w.st) : Ordered b o (grantIfDue w).st := by
  unfold grantIfDue grantRound
  split
  · have h1 := ordered_roundFrom (w.st.queued + 1) w h
    generalize roundFrom (w.st.queued + 1) w = r at h1 ⊢
    exact h1
  · exact h

theorem ordered_restoreBlades : ∀ (l : List Slot) (w : Work), Ordered b o w.st → Ordered b o (restoreBlades l w).1.st
  | [], _, h => h
  | c :: rest, w, h => by
    unfold restoreBlades
    split
    · exact ordered_restoreBlades rest _ (ordered_powerBlade h c)
    · exact h

theorem ordered_restoreShed : ∀ (l : List PortRef) (w : Work), Ordered b o w.st → Ordered b o (restoreShed l w).1.st
  | [], _, h => h
  | q :: rest, w, h => by
    have hnext := ordered_restoreShed rest _ (ordered_restorePort h q)
    unfold restoreShed
    dsimp only
    split
    all_goals
      split
      · exact hnext
      · exact h

theorem ordered_restoreWaiting : ∀ (l : List PowerWait) (w : Work), Ordered b o w.st → Ordered b o (restoreWaiting l w).st
  | [], _, h => h
  | e :: rest, w, h => by
    have hnext : ∀ fits, Ordered b o (restoreWaiting rest (completeMove (leavePower w e.port) e.port fits true)).st := fun fits => by
      have h1 : Ordered b o (leavePower w e.port).st := h.of_link rfl
      exact ordered_restoreWaiting rest _ (ordered_completeMove h1 _ _ _)
    unfold restoreWaiting
    dsimp only
    split
    · exact ordered_restoreWaiting rest w h
    · split
      all_goals
        split
        · exact hnext _
        · exact h

theorem ordered_restoreIfDue (h : Ordered b o w.st) : Ordered b o (restoreIfDue w).st := by
  unfold restoreIfDue
  split
  · show Ordered b o (restoreDueNow w).st
    unfold restoreDueNow
    split
    · exact h.of_link rfl
    · split
      · exact h
      · unfold restoreProcess
        dsimp only
        have h1 := ordered_restoreBlades w.st.bladeWait w h
        split
        · have h2 := ordered_restoreShed (restoreOrder (restoreBlades w.st.bladeWait w).1.st) _ h1
          split
          · exact ordered_restoreWaiting _ _ h2
          · exact h2
        · exact h1
  · exact h

/-- Settling keeps every order with its UP link. -/
theorem ordered_settle (h : Ordered b o w.st) : Ordered b o (settle w).st :=
  ordered_restoreIfDue (ordered_grantIfDue (ordered_budgetStep h))

end Sys2Proof.Machine
end

section
/-! PROOFS. Request words: what storing one leaves, what settling leaves with nothing due, and the moves of Table 5.2-2. -/

set_option Elab.async false

namespace Sys2Proof.Machine

variable {r s t u : State} {w : Work} {b : Slot} {p q : PortRef} {c d g : PortConfig}

/-! ### A port whose request alone changes -/

/-- A port record that stands as another does: only the request and what came with it differ. -/
structure SameStanding (x y : Port) : Prop where
  state : y.state = x.state
  cause : y.cause = x.cause
  leaving : y.leaving = x.leaving
  granted : y.granted = x.granted
  optic : y.optic = x.optic

theorem SameStanding.units {x y : Port} (h : SameStanding x y) : y.units = x.units := by unfold Port.units; rw [h.granted, h.state]
theorem SameStanding.xdUnits {x y : Port} (h : SameStanding x y) : y.xdUnits = x.xdUnits := by unfold Port.xdUnits; rw [h.granted, h.state]
theorem SameStanding.draw {x y : Port} (h : SameStanding x y) (v : Tunables) : y.draw v = x.draw v := by
  unfold Port.draw
  rw [h.granted, h.state, h.optic]
theorem SameStanding.departing {x y : Port} (h : SameStanding x y) : y.departing = x.departing := by unfold Port.departing; rw [h.state, h.leaving]

variable {x : Port}

theorem sumAll_standing (f : Port → Nat) (hf : f x = f (s.port p)) : (s.setPort p x).sumAll f = s.sumAll f := by
  have h := sumAll_setPort s p x f
  omega

theorem slotUnits_standing (h : SameStanding (s.port p) x) (b : Slot) : (s.setPort p x).slotUnits b = s.slotUnits b := by
  unfold State.slotUnits
  show sumPorts ((Vector.put s.pau.ports p.slot (Vector.put (s.pau.ports.get p.slot) p.port x)).get b) Port.units = _
  rw [Vector.get_put]
  split
  · next hb =>
    have hsum := sum_put Port.units (s.pau.ports.get p.slot) p.port x
    have hx : x.units = ((s.pau.ports.get p.slot).get p.port).units := h.units
    rw [hb]
    unfold sumPorts
    omega
  · rfl

/-- A component that a test does not tell from the former one. -/
theorem any_put {α : Type} {n : Nat} (f : α → Bool) (v : Vector α n) (i : Fin n) (a : α) (hf : f a = f (v.get i)) :
    (Vector.put v i a).toList.any f = v.toList.any f := by
  have hmap : (Vector.put v i a).toList.map f = v.toList.map f := by
    unfold Vector.put
    rw [Vector.toList_set, List.map_set, hf]
    refine List.ext_getElem (by simp) fun k h1 h2 => ?_
    rw [List.getElem_set]
    split
    · next hk =>
      subst hk
      rw [List.getElem_map]
      rfl
    · rfl
  have hany : ∀ l : List α, l.any f = (l.map f).any id := fun l => by rw [List.any_map]; rfl
  rw [hany, hany, hmap]

theorem shedForPower_standing (h : SameStanding (s.port p) x) : (s.setPort p x).shedForPower = s.shedForPower := by
  have hany : ∀ b, ((s.setPort p x).pau.ports.get b).toList.any (fun y => decide (y.state = .shed) && decide (y.cause = .power)) =
      (s.pau.ports.get b).toList.any (fun y => decide (y.state = .shed) && decide (y.cause = .power)) := fun b => by
    show ((Vector.put s.pau.ports p.slot (Vector.put (s.pau.ports.get p.slot) p.port x)).get b).toList.any _ = _
    rw [Vector.get_put]
    split
    · next hb =>
      rw [hb]
      exact any_put _ _ _ x (by rw [h.state, h.cause]; rfl)
    · rfl
  unfold State.shedForPower
  simp only [hany]
  rfl

theorem xdFree_standing (h : SameStanding (s.port p) x) : (s.setPort p x).xdFree = s.xdFree := by
  unfold State.xdFree State.holdings
  dsimp only
  rw [sumAll_standing Port.xdUnits h.xdUnits]
  rfl

theorem licenceFits_standing (h : SameStanding (s.port p) x) (b : Slot) (n : Nat) : (s.setPort p x).licenceFits b n = s.licenceFits b n := by
  have hunits : (s.setPort p x).slotUnits = s.slotUnits := funext (slotUnits_standing h)
  unfold State.licenceFits State.unusedReserve State.commonFree State.commonUse
  rw [hunits]
  rfl

theorem projected_standing (h : SameStanding (s.port p) x) : (s.setPort p x).projected = s.projected :=
  projected_setPort x h.departing (h.draw _)

theorem powerFits_standing (h : SameStanding (s.port p) x) (n : Int) : (s.setPort p x).powerFits n = s.powerFits n := by
  unfold State.powerFits
  rw [projected_standing h, shedForPower_standing h]
  rfl

/-! ### What settling leaves with nothing due -/

/-- An event that makes nothing due settles by its budget alone: the queues and the list stay, and a port that may not be shed. -/
theorem notDue_left {v : Work} (o : State) (hgrant : v.grantDue = false) (hrestore : v.restoreDue = false) {t : State}
    (ht : t = publish o (settle v)) :
    t.lu = v.st.lu ∧ t.pbu.waitList = v.st.pbu.waitList ∧ (∀ p, ¬v.st.shedCandidate p → t.port p = v.st.port p) ∧
    (∀ p, (v.st.port p).state = .goingUp → t.port p = v.st.port p ∨ t.port p = { v.st.port p with leaving := .power }) ∧
    (v.st.pbu.hold = true ∨ v.st.projected ≤ (computeFigures v.st).available → t.pau = v.st.pau) := by
  have hkept := settle_pau_kept hgrant hrestore
  have hlu : t.lu = (settle v).st.lu := by rw [ht]; rfl
  have hpbu : t.pbu = (settle v).st.pbu := by rw [ht]; exact publish_pbu _ _
  have hpau : t.pau = (settle v).st.pau := by rw [ht]; rfl
  have hport : ∀ p, t.port p = (settle v).st.port p := fun p => by unfold State.port; rw [hpau]
  rw [hlu, hpbu, hpau, settle_of_notDue v hgrant hrestore]
  rw [settle_of_notDue v hgrant hrestore] at hkept hport
  simp only [hport]
  cases hhold : v.st.pbu.hold with
  | true =>
    have hsame : budgetStep none v = v := if_pos hhold
    rw [hsame]
    exact ⟨rfl, rfl, fun _ _ => rfl, fun _ _ => .inl rfl, fun _ => rfl⟩
  | false =>
    have hbudget := budgetStep_budgeted v hhold
    rw [hhold] at hkept
    generalize (budgetStep none v).st = z at hbudget hkept
    obtain ⟨-, -, hno, hshed, -⟩ := hbudget.shed
    refine ⟨by rw [hbudget.rest], by rw [hbudget.pbu]; rfl, hno, fun p hup => ?_, hkept⟩
    by_cases hc : v.st.shedCandidate p
    · rcases hshed p hc with h | ⟨h, -⟩ | ⟨-, h⟩
      · exact .inl h
      · rw [hup] at h
        cases h
      · exact .inr h
    · exact .inl (hno p hc)

/-! ### A request word is stored -/

/-- A request word has been stored in the record `x` of a port, and nothing is due. -/
structure StoredAs (s : State) (p : PortRef) (x : Port) (w : Work) : Prop where
  st : ∃ T, w.st = (s.setTbp T).setPort p x
  standing : SameStanding (s.port p) x
  grant : w.grantDue = false
  restore : w.restoreDue = false

theorem StoredAs.port (h : StoredAs s p x w) : w.st.port p = x := by
  obtain ⟨T, hst⟩ := h.st
  rw [hst]
  exact (State.port_setPort _ _ _ _).trans (if_pos rfl)

theorem StoredAs.other (h : StoredAs s p x w) (hq : q ≠ p) : w.st.port q = s.port q := by
  obtain ⟨T, hst⟩ := h.st
  rw [hst]
  exact (State.port_setPort _ _ _ _).trans (if_neg hq)

theorem StoredAs.units (h : StoredAs s p x w) : w.st.lu = s.lu ∧ w.st.pbu = s.pbu ∧ w.st.plu = s.plu ∧ w.st.ftu = s.ftu ∧ w.st.blc = s.blc ∧
    w.st.pins = s.pins ∧ w.st.now = s.now ∧ w.st.pau.blades = s.pau.blades := by
  obtain ⟨T, hst⟩ := h.st
  rw [hst]
  exact ⟨rfl, rfl, rfl, rfl, rfl, rfl, rfl, rfl⟩

theorem StoredAs.queue (h : StoredAs s p x w) : w.st.queue = s.queue := by
  obtain ⟨T, hst⟩ := h.st
  rw [hst]
  rfl

theorem StoredAs.blade (h : StoredAs s p x w) : w.st.blade = s.blade := by
  obtain ⟨T, hst⟩ := h.st
  rw [hst]
  rfl

theorem StoredAs.link (h : StoredAs s p x w) : w.st.link = s.link := by
  obtain ⟨T, hst⟩ := h.st
  rw [hst]
  rfl

theorem StoredAs.hot (h : StoredAs s p x w) : w.st.hot = s.hot := by
  obtain ⟨T, hst⟩ := h.st
  rw [hst]
  rfl

theorem StoredAs.beyondCount (h : StoredAs s p x w) : w.st.beyondCount p = s.beyondCount p := by
  obtain ⟨T, hst⟩ := h.st
  rw [hst]
  rfl

theorem StoredAs.xdFree (h : StoredAs s p x w) : w.st.xdFree = s.xdFree := by
  obtain ⟨T, hst⟩ := h.st
  rw [hst]
  exact xdFree_standing (s := s.setTbp T) h.standing

theorem StoredAs.licenceFits (h : StoredAs s p x w) (b : Slot) (n : Nat) : w.st.licenceFits b n = s.licenceFits b n := by
  obtain ⟨T, hst⟩ := h.st
  rw [hst]
  exact licenceFits_standing (s := s.setTbp T) h.standing b n

theorem StoredAs.powerFits (h : StoredAs s p x w) (n : Int) : w.st.powerFits n = s.powerFits n := by
  obtain ⟨T, hst⟩ := h.st
  rw [hst]
  exact powerFits_standing (s := s.setTbp T) h.standing n

theorem StoredAs.projected (h : StoredAs s p x w) : w.st.projected = s.projected := by
  obtain ⟨T, hst⟩ := h.st
  rw [hst]
  exact projected_standing (s := s.setTbp T) h.standing

theorem StoredAs.available (h : StoredAs s p x w) : (computeFigures w.st).available = (computeFigures s).available := by
  obtain ⟨T, hst⟩ := h.st
  rw [hst]
  rfl

theorem StoredAs.idle (h : StoredAs s p x w) (hidle : s.idlePort p) : w.st.idlePort p :=
  idlePort_congr h.units.1 (by rw [h.units.2.1]) hidle

/-! ### Admission of an OFFLINE port -/

theorem mem_insertWait_self (e : PowerWait) : ∀ l : List PowerWait, e ∈ insertWait e l
  | [] => List.mem_cons_self
  | y :: rest => by
    unfold insertWait
    split
    · exact List.mem_cons_self
    · exact List.mem_cons_of_mem _ (mem_insertWait_self e rest)

theorem notCandidate_of_state (honline : (s.port p).state ≠ .online) (hup : (s.port p).state ≠ .goingUp) : ¬s.shedCandidate p :=
  fun h => h.2.1.elim honline hup

theorem admitPort_refused (hrequest : (w.st.port p).request = some c) (hxd : c.xd = true) (hfree : w.st.xdFree = false) :
    admitPort w p = refuseXd w p := by
  unfold admitPort
  dsimp only
  rw [hrequest]
  dsimp only
  rw [hxd, hfree]
  rfl

theorem toShed_due (w : Work) (p : PortRef) (c : PortCause) (h : (w.st.port p).draw w.st.plu.inUse = 0) : w.sameDue (toShed w p c) := by
  unfold toShed
  dsimp only
  rw [if_neg (by omega)]
  exact ⟨rfl, rfl⟩

/-- A port without draw that is charged makes nothing due. -/
theorem chargePort_due (w : Work) (p : PortRef) (c : PortConfig) (hstate : (w.st.port p).state.drawn = false) : w.sameDue (chargePort w p c) := by
  have hoff : (w.setPort p { w.st.port p with granted := some c }).st.port p = { w.st.port p with granted := some c } :=
    (State.port_setPort _ _ _ _).trans (if_pos rfl)
  unfold chargePort
  split
  · refine toShed_due (w.setPort p { w.st.port p with granted := some c }) p .thermal ?_
    rw [hoff]
    unfold Port.draw
    dsimp only
    rw [hstate]
    rfl
  · exact ⟨rfl, rfl⟩

/-- ON for an OFFLINE port (R95). -/
theorem offline_admitted {x : Port} {priority : Fin 8} (hw : StoredAs s p x w) (hstate : (s.port p).state = .offline)
    (hrequest : x.request = some c) (hpriority : x.priority = priority) (o : State) {t : State} (ht : t = publish o (settle (admitPort w p))) :
    admissionDecides s t p c priority := by
  have hreq : (w.st.port p).request = some c := by rw [hw.port]; exact hrequest
  have hoff : (w.st.port p).state = .offline := by rw [hw.port, hw.standing.state]; exact hstate
  unfold admissionDecides
  dsimp only
  by_cases hxd : c.xd = true ∧ s.xdFree = false
  · obtain ⟨hx, hfree⟩ := hxd
    rw [admitPort_refused hreq hx (by rw [hw.xdFree]; exact hfree)] at ht
    have hport : (refuseXd w p).st.port p = { w.st.port p with state := .offline, cause := .noXdLicense } :=
      (State.port_setPort _ _ _ _).trans (if_pos rfl)
    have hdue : w.sameDue (refuseXd w p) := ⟨rfl, rfl⟩
    obtain ⟨-, -, hkept, -⟩ := notDue_left o (hdue.1.trans hw.grant) (hdue.2.trans hw.restore) ht
    refine ⟨fun _ _ => ?_, fun h => ?_⟩
    · rw [hkept p (notCandidate_of_state (by rw [hport]; nofun) (by rw [hport]; nofun)), hport]
      exact ⟨rfl, rfl⟩
    · have := h hx
      rw [hfree] at this
      cases this
  · have hno : (c.xd && !w.st.xdFree) = false := by
      rw [hw.xdFree]
      cases hx : c.xd with
      | false => rfl
      | true =>
        cases hf : s.xdFree with
        | false => exact absurd ⟨hx, hf⟩ hxd
        | true => rfl
    rw [admitPort_eq w p hreq hno, hw.queue, hw.licenceFits, hw.powerFits, hw.units.2.2.1, hw.port, hw.standing.optic] at ht
    refine ⟨fun h1 h2 => absurd ⟨h1, h2⟩ hxd, fun _ => ?_⟩
    by_cases hlicence : s.queue p.slot = [] ∧ s.licenceFits p.slot c.units = true
    · have hl : ((s.queue p.slot).isEmpty && s.licenceFits p.slot c.units) = true := by rw [hlicence.1, hlicence.2]; rfl
      refine ⟨fun h => absurd hlicence h, ?_⟩
      rw [hl] at ht
      cases hpower : s.powerFits (portDraw s.plu.inUse c (s.port p).optic) with
      | false =>
        rw [hpower] at ht
        have hv : decideAdmission w p c true false = joinPower w p := rfl
        rw [hv] at ht
        have hport := joinPower_port w p
        have hdue : w.sameDue (joinPower w p) := ⟨rfl, rfl⟩
        obtain ⟨-, hwait, hkept, -⟩ := notDue_left o (hdue.1.trans hw.grant) (hdue.2.trans hw.restore) ht
        refine ⟨fun _ _ => ⟨?_, ?_⟩, fun _ h => (nomatch h), fun _ h => (nomatch h)⟩
        · rw [hkept p (notCandidate_of_state (by rw [hport]; nofun) (by rw [hport]; nofun)), hport]
        · rw [hwait]
          exact ⟨⟨p, (w.st.port p).priority, w.st.pbu.nextEntry⟩, mem_insertWait_self _ _, rfl, by rw [hw.port]; exact hpriority⟩
      | true =>
        rw [hpower] at ht
        have hv : decideAdmission w p c true true = chargePort w p c := rfl
        rw [hv] at ht
        have hport := chargePort_port w p c
        have hdue := chargePort_due w p c (by rw [hoff]; rfl)
        obtain ⟨-, -, hkept, hup, -⟩ := notDue_left o (hdue.1.trans hw.grant) (hdue.2.trans hw.restore) ht
        rw [hw.hot] at hport
        refine ⟨fun _ h => absurd rfl h, fun _ _ hcool => ?_, fun _ _ hhot => ?_⟩
        · rw [hcool, if_neg nofun] at hport
          have hmoved := hup p (by rw [hport])
          rw [hport] at hmoved
          refine ⟨?_, ?_, ?_, fun hlink => ?_⟩
          · rcases hmoved with h | h <;> rw [h]
          · rcases hmoved with h | h <;> rw [h]
          · rcases hmoved with h | h <;> rw [h]
          · have hcharge : chargePort w p c = toGoingUp w p c .enable := if_neg (by rw [hw.hot, hcool]; nofun)
            rw [hcharge] at ht
            have hheld : Ordered p.slot ⟨p.port, .enable, c⟩ (toGoingUp w p c .enable).st :=
              ordered_handed (w.st.setPort p { w.st.port p with state := .goingUp, cause := .none, granted := some c }) p.slot _
                (by show (w.st.link p.slot).state = _; rw [hw.link]; exact hlink)
            rw [ht]
            exact (ordered_settle hheld).order
        · rw [hhot, if_pos rfl] at hport
          rw [hkept p (notCandidate_of_state (by rw [hport]; nofun) (by rw [hport]; nofun)), hport]
          exact ⟨rfl, rfl, rfl⟩
    · have hl : ((s.queue p.slot).isEmpty && s.licenceFits p.slot c.units) = false := by
        rw [Bool.and_eq_false_iff, List.isEmpty_eq_false_iff]
        by_cases he : s.queue p.slot = []
        · exact .inr (by simpa using fun h => hlicence ⟨he, h⟩)
        · exact .inl he
      rw [hl] at ht
      have hv : ∀ power, decideAdmission w p c false power = joinLicence w p c.units := fun _ => rfl
      rw [hv] at ht
      have hport := joinLicence_port w p c.units
      have hdue : w.sameDue (joinLicence w p c.units) := ⟨rfl, rfl⟩
      obtain ⟨hlu, -, hkept, -⟩ := notDue_left o (hdue.1.trans hw.grant) (hdue.2.trans hw.restore) ht
      refine ⟨fun _ => ⟨?_, ?_⟩, fun h => absurd h hlicence, fun h => absurd h hlicence, fun h => absurd h hlicence⟩
      · rw [hkept p (notCandidate_of_state (by rw [hport]; nofun) (by rw [hport]; nofun)), hport]
      · have hqueue := joinLicence_queue w p c.units p.slot
        rw [if_pos rfl, hw.queue] at hqueue
        unfold State.queue at hqueue ⊢
        rw [hlu]
        exact hqueue

end Sys2Proof.Machine
end

section
/-! PROOFS. Request words: ON, OFF and malformed words in every port state. -/

set_option Elab.async false

namespace Sys2Proof.Machine

variable {r s t u : State} {w : Work} {b : Slot} {p q : PortRef} {c d g : PortConfig} {x : Port} {priority : Fin 8}

/-! ### How a stored request is carried on -/

theorem carryRequest_beyond (on : Bool) (waited : Option PortConfig) (h : w.st.beyondCount p = true) : carryRequest w p on waited =
    raisePort (w.setPort p { w.st.port p with cause := .noSuchPort }) p .noSuchPort .warn 0 := if_pos h

theorem carryRequest_down (on : Bool) (waited : Option PortConfig) (h : w.st.beyondCount p = false) (hdown : (w.st.blade p.slot).state ≠ .up) :
    carryRequest w p on waited = if (w.st.port p).state = .offline then w.setPort p { w.st.port p with cause := .bladeDown }
      else if (w.st.port p).state = .shed ∧ on = false then toOffline w p .request else w := by
  have hup : (!w.st.up p.slot) = true := by
    unfold State.up
    rw [decide_eq_false hdown]
    rfl
  unfold carryRequest
  dsimp only
  rw [if_neg (by rw [h]; nofun), if_pos hup]

theorem carryRequest_up (on : Bool) (waited : Option PortConfig) (h : w.st.beyondCount p = false) (hup : (w.st.blade p.slot).state = .up) :
    carryRequest w p on waited = if on then evaluateOn w p waited else evaluateOff w p := by
  have hno : ¬(!w.st.up p.slot) = true := by
    unfold State.up
    rw [decide_eq_true hup]
    nofun
  unfold carryRequest
  dsimp only
  rw [if_neg (by rw [h]; nofun), if_neg hno]

theorem leaveLicence_st (w : Work) (p : PortRef) : (leaveLicence w p).st =
    w.st.setQueue p.slot ((w.st.queue p.slot).filter (fun e => decide (e.port ≠ p.port))) := by
  unfold leaveLicence
  dsimp only
  split <;> rfl

theorem leaveWait_port (w : Work) (p q : PortRef) : (leaveWait w p).st.port q = w.st.port q := by
  unfold leaveWait
  split
  · rw [leaveLicence_st]
    rfl
  · rfl
  · rfl

theorem settled_reposition (h : Settled s w.st) (p) : Settled s (reposition w p).st := by
  unfold reposition
  split
  · exact h
  · exact (settled_leavePower h p).setPbu _ rfl rfl rfl

theorem settled_evaluateOff (h : Settled s w.st) (p) : Settled s (evaluateOff w p).st := by
  unfold evaluateOff
  split
  · exact h
  · exact settled_toOffline (settled_leaveWait h _) _ _
  · exact settled_toOffline (settled_leaveWait h _) _ _
  · exact h
  · exact settled_toGoingDown h _ _
  · exact h
  · exact settled_toOffline h _ _

theorem settled_evaluateOn (h : Settled s w.st) (p waited) : Settled s (evaluateOn w p waited).st := by
  have hleft : Settled s ((leaveWait w p).setPort p { w.st.port p with state := .offline }).st := by
    refine (settled_leaveWait h p).setPort p _ ?_
    rw [leaveWait_port]
    exact ⟨rfl, rfl, rfl, rfl, rfl⟩
  unfold evaluateOn
  dsimp only
  split
  · exact settled_admitPort h _
  · exact settled_ite h (settled_admitPort hleft _)
  · exact settled_ite (settled_reposition h _) (settled_admitPort hleft _)
  · exact h
  · exact settled_evaluateOnline h _
  · exact h
  · exact settled_ite h (settled_refusePort h _ _)

theorem settled_carryRequest (h : Settled s w.st) (p on waited) : Settled s (carryRequest w p on waited).st := by
  have hcause : ∀ cause, Settled s (w.setPort p { w.st.port p with cause := cause }).st := fun cause => h.setPort p { w.st.port p with cause := cause }
  unfold carryRequest
  dsimp only
  refine settled_ite (hcause _) (settled_ite (settled_ite (hcause _) (settled_ite (settled_toOffline h _ _) h)) ?_)
  exact settled_ite (settled_evaluateOn h _ _) (settled_evaluateOff h _)

/-- What is left of the other records and units behind a request word (R93). -/
theorem requestStored_left {T : Tbp} {h : Handed} {v : Work} {desired : Bool} {request : Option PortConfig}
    (hT : T = { s.tbp with handed := s.tbp.handed.erase h }) (hst : w.st = (s.setTbp T).setPort p x) (hv : Settled w.st v.st)
    (hx : x.asks = (desired, request, priority, (RequestWord.ofBits h.value).sequence, (s.port p).optic)) (o : State) {t : State}
    (ht : t = publish o (settle v)) : requestStored s t h p desired request priority := by
  have hsettled := hv.trans (settle_settled v)
  generalize settle v = z at hsettled ht
  subst ht
  have hadmits : Admits (s.setTbp T) w.st := by
    rw [hst]
    exact { Admits.refl (s.setTbp T) with }
  have hport : ∀ q, w.st.port q = if q = p then x else s.port q := fun q => by
    rw [hst]
    exact State.port_setPort _ _ _ _
  refine ⟨?_, fun q hq => ?_, ?_⟩
  · rw [hsettled.asks o p, hport, if_pos rfl, hx]
  · rw [hsettled.asks o q, hport, if_neg hq]
  · rw [← hT]
    exact (hadmits.trans hsettled.admits).frame o

/-! ### Waiting ports -/

/-- A port that waits leaves its queue or list, and stands in none. -/
theorem leaveWait_idle (hmatch : s.waitsMatch) (hw : StoredAs s p x w)
    (hstate : (s.port p).state = .waitLicense ∨ (s.port p).state = .waitPower) : (leaveWait w p).st.idlePort p := by
  obtain ⟨hqueue, hwait, -⟩ := hmatch
  have hws : (w.st.port p).state = (s.port p).state := by rw [hw.port, hw.standing.state]
  unfold leaveWait
  rcases hstate with hs | hs
  · rw [hws, hs]
    dsimp only
    rw [leaveLicence_st]
    refine ⟨fun e he => ?_, fun e he hp => ?_⟩
    · rw [queue_setQueue, if_pos rfl] at he
      exact of_decide_eq_true (List.mem_filter.1 he).2
    · have hm : e ∈ s.pbu.waitList := by rw [← hw.units.2.1]; exact he
      have := hwait e hm
      rw [hp, hs] at this
      cases this
  · rw [hws, hs]
    dsimp only
    refine ⟨fun e he hp => ?_, fun e he => of_decide_eq_true (List.mem_filter.1 he).2⟩
    have hm : e ∈ s.queue p.slot := by rw [← hw.queue]; exact he
    have := (hqueue p.slot).1 e hm
    rw [hp] at this
    rw [show (s.port p).state = _ from this] at hs
    cases hs

/-! ### ON -/

/-- ON for a port that waits with another configuration: it is admitted anew (log entry 49). -/
theorem waiting_admitted (hw : StoredAs s p x w) (hrequest : x.request = some c) (hxd : c.xd = false) (waited : Option PortConfig)
    (hstate : (s.port p).state = .waitLicense ∨ (s.port p).state = .waitPower) (hother : waited ≠ some c) :
    Admitted p c (settle (evaluateOn w p waited)).st := by
  have hws : (w.st.port p).state = (s.port p).state := by rw [hw.port, hw.standing.state]
  have hne : (w.st.port p).request ≠ waited := by
    rw [hw.port, hrequest]
    exact Ne.symm hother
  have heq : evaluateOn w p waited = admitPort ((leaveWait w p).setPort p { w.st.port p with state := .offline }) p := by
    unfold evaluateOn
    dsimp only
    rcases hstate with hs | hs
    · rw [hws, hs]
      exact if_neg hne
    · rw [hws, hs]
      exact if_neg hne
  have hreq : (((leaveWait w p).setPort p { w.st.port p with state := .offline }).st.port p).request = some c := by
    refine (congrArg Port.request ((State.port_setPort _ _ _ _).trans (if_pos rfl))).trans ?_
    show (w.st.port p).request = _
    rw [hw.port]
    exact hrequest
  rw [heq, admitPort_eq _ p hreq (by rw [hxd]; rfl)]
  exact admitted_settle (admitted_decideAdmission _ p _ _ hreq) hxd

theorem mem_insertWait_of_mem {e y : PowerWait} : ∀ {l : List PowerWait}, e ∈ l → e ∈ insertWait y l
  | [], h => (nomatch h)
  | a :: l, h => by
    unfold insertWait
    split
    · exact List.mem_cons_of_mem _ h
    · rcases List.mem_cons.1 h with rfl | h
      · exact List.mem_cons_self
      · exact List.mem_cons_of_mem _ (mem_insertWait_of_mem h)

/-- ON with the same configuration for a port on the power wait list moves its entry to its new place (R94). -/
theorem reposition_left (hmatch : s.waitsMatch) (hw : StoredAs s p x w) (hentry : ∃ e ∈ s.pbu.waitList, e.port = p) :
    (reposition w p).st.port p = x ∧ w.sameDue (reposition w p) ∧
    (∀ e ∈ s.pbu.waitList, e.port = p → { e with priority := x.priority } ∈ (reposition w p).st.pbu.waitList) ∧
    (∀ e, e.port ≠ p → (e ∈ (reposition w p).st.pbu.waitList ↔ e ∈ s.pbu.waitList)) := by
  obtain ⟨-, -, hnodup⟩ := hmatch
  obtain ⟨a, ha, hap⟩ := hentry
  have hfind : w.st.pbu.waitList.find? (fun e => decide (e.port = p)) = some a := by
    rw [hw.units.2.1]
    cases hf : s.pbu.waitList.find? (fun e => decide (e.port = p)) with
    | none => exact absurd (decide_eq_true hap) (List.find?_eq_none.1 hf a ha)
    | some e =>
      have hep : e.port = p := by simpa using List.find?_some hf
      rw [List.inj_on_of_nodup_map hnodup (List.mem_of_find?_eq_some hf) ha (hep.trans hap.symm)]
  have hst : (reposition w p).st = (leavePower w p).st.setPbu { (leavePower w p).st.pbu with
      waitList := insertWait { a with priority := x.priority } (leavePower w p).st.pbu.waitList } := by
    unfold reposition
    rw [hfind]
    show (leavePower w p).st.setPbu { (leavePower w p).st.pbu with
      waitList := insertWait { a with priority := (w.st.port p).priority } (leavePower w p).st.pbu.waitList } = _
    rw [hw.port]
  have hleft : ∀ e, e ∈ (leavePower w p).st.pbu.waitList ↔ e ∈ s.pbu.waitList ∧ e.port ≠ p := fun e => by
    show e ∈ w.st.pbu.waitList.filter _ ↔ _
    rw [List.mem_filter, hw.units.2.1, decide_eq_true_eq]
  have hdue : w.sameDue (reposition w p) := by
    unfold reposition
    rw [hfind]
    exact ⟨rfl, rfl⟩
  rw [hst]
  refine ⟨hw.port, hdue, fun e he hep => ?_, fun e hep => ?_⟩
  · rw [List.inj_on_of_nodup_map hnodup he ha (hep.trans hap.symm)]
    exact mem_insertWait_self _ _
  · constructor
    · intro he
      rcases mem_insertWait he with h | h
      · exact absurd (by rw [h]; exact hap) hep
      · exact ((hleft e).1 h).1
    · intro he
      exact mem_insertWait_of_mem ((hleft e).2 ⟨he, hep⟩)

theorem applyReconfig_st (w : Work) (p : PortRef) (old new : PortConfig) : (applyReconfig w p old new).st = (toGoingUp w p new .reconfig).st := by
  unfold applyReconfig
  dsimp only
  split <;> split <;> rfl

/-- A reconfiguration that is applied (R97). -/
theorem applyReconfig_left (hw : StoredAs s p x w) (hidle : s.idlePort p) (g c : PortConfig) (o : State) {t : State}
    (ht : t = publish o (settle (applyReconfig w p g c))) :
    (t.port p).state = .goingUp ∧ (t.port p).cause = .none ∧ (t.port p).granted = some c ∧
      ((s.link p.slot).state = .up → (t.link p.slot).holdsOrder ⟨p.port, .reconfig, c⟩) := by
  have hst := applyReconfig_st w p g c
  have hport : (applyReconfig w p g c).st.port p = { w.st.port p with state := .goingUp, cause := .none, granted := some c } := by
    rw [hst]
    exact toGoingUp_port _ _ _ _
  have hi : (applyReconfig w p g c).st.idlePort p := idlePort_congr (by rw [hst]; exact toGoingUp_lu _ _ _ _) (by rw [hst, toGoingUp_pbu]) (hw.idle hidle)
  have hrest := (settle_atRest hi (by rw [hport]; nofun)).port
  rw [hport] at hrest
  have htp : t.port p = (settle (applyReconfig w p g c)).st.port p := by rw [ht]; rfl
  rw [← htp] at hrest
  have hfields : (t.port p).state = .goingUp ∧ (t.port p).cause = .none ∧ (t.port p).granted = some c := by
    generalize t.port p = y at hrest
    cases hrest with
    | same => exact ⟨rfl, rfl, rfl⟩
    | off h => cases h
    | flag _ => exact ⟨rfl, rfl, rfl⟩
  obtain ⟨h1, h2, h3⟩ := hfields
  refine ⟨h1, h2, h3, fun hlink => ?_⟩
  have hheld : Ordered p.slot ⟨p.port, .reconfig, c⟩ (applyReconfig w p g c).st := by
    rw [hst]
    exact ordered_handed (w.st.setPort p { w.st.port p with state := .goingUp, cause := .none, granted := some c }) p.slot _
      (by show (w.st.link p.slot).state = _; rw [hw.link]; exact hlink)
  rw [ht]
  exact (ordered_settle hheld).order

/-- The outcome of a reconfiguration, by its checks (R97). -/
theorem reconfigure_eq (hw : StoredAs s p x w) (g c : PortConfig) :
    let before := portDraw s.plu.inUse g (s.port p).optic
    let after := portDraw s.plu.inUse c (s.port p).optic
    let neither := c.units ≤ g.units ∧ c.xdUnits ≤ g.xdUnits ∧ after ≤ before
    let fits := s.queue p.slot = [] ∧ (c.units ≤ g.units ∨ s.licenceFits p.slot (c.units - g.units) = true) ∧
      (c.xdUnits ≤ g.xdUnits ∨ s.xdFree = true) ∧ s.powerFits ((after : Int) - (before : Int)) = true
    (neither ∨ fits → reconfigure w p g c = applyReconfig w p g c) ∧
    (¬neither → ¬fits → reconfigure w p g c = refusePort w p .speedHeld) := by
  have hoptic : (w.st.port p).optic = (s.port p).optic := by rw [hw.port, hw.standing.optic]
  dsimp only
  unfold reconfigure
  dsimp only
  rw [hoptic, hw.queue, hw.licenceFits, hw.xdFree, hw.powerFits, hw.units.2.2.1]
  have hbool : ((s.queue p.slot).isEmpty && (decide (c.units ≤ g.units) || s.licenceFits p.slot (c.units - g.units)) &&
      (decide (c.xdUnits ≤ g.xdUnits) || s.xdFree) &&
      s.powerFits ((portDraw s.plu.inUse c (s.port p).optic : Int) - (portDraw s.plu.inUse g (s.port p).optic : Int))) = true ↔
      s.queue p.slot = [] ∧ (c.units ≤ g.units ∨ s.licenceFits p.slot (c.units - g.units) = true) ∧
      (c.xdUnits ≤ g.xdUnits ∨ s.xdFree = true) ∧
      s.powerFits ((portDraw s.plu.inUse c (s.port p).optic : Int) - (portDraw s.plu.inUse g (s.port p).optic : Int)) = true := by
    rw [Bool.and_eq_true, Bool.and_eq_true, Bool.and_eq_true, Bool.or_eq_true, Bool.or_eq_true, decide_eq_true_eq, decide_eq_true_eq,
      List.isEmpty_iff, and_assoc, and_assoc]
  refine ⟨fun h => ?_, fun h1 h2 => ?_⟩
  · by_cases h1 : c.units ≤ g.units ∧ c.xdUnits ≤ g.xdUnits ∧ portDraw s.plu.inUse c (s.port p).optic ≤ portDraw s.plu.inUse g (s.port p).optic
    · exact if_pos h1
    · rw [if_neg h1]
      exact if_pos (hbool.2 (h.resolve_left h1))
  · rw [if_neg h1]
    exact if_neg (mt hbool.1 h2)

theorem sameDue_refusePort (w : Work) (p : PortRef) (cause : PortCause) : w.sameDue (refusePort w p cause) := by
  unfold refusePort
  dsimp only
  split <;> exact ⟨rfl, rfl⟩

theorem refusePort_st (w : Work) (p : PortRef) (cause : PortCause) : (refusePort w p cause).st =
    if (w.st.port p).state = .goingDown ∨ (w.st.port p).state = .shed then w.st else w.st.setPort p { w.st.port p with cause := cause } := by
  unfold refusePort
  dsimp only
  split <;> rfl

/-- ON for an ONLINE port (R97). -/
theorem online_reconfigured (hw : StoredAs s p x w) (hidle : s.idlePort p) (hstate : (s.port p).state = .online)
    (hgranted : (s.port p).granted = some g) (hrequest : x.request = some c) (o : State) {t : State}
    (ht : t = publish o (settle (evaluateOnline w p))) : reconfigurationDecides s t p g c := by
  have hwg : (w.st.port p).granted = some g := by rw [hw.port, hw.standing.granted]; exact hgranted
  have hwr : (w.st.port p).request = some c := by rw [hw.port]; exact hrequest
  have hws : (w.st.port p).state = .online := by rw [hw.port, hw.standing.state]; exact hstate
  have hother : c ≠ g → evaluateOnline w p = reconfigure w p g c := fun hcg => by
    unfold evaluateOnline
    rw [hwg, hwr]
    exact if_neg hcg
  obtain ⟨happly, hrefuse⟩ := reconfigure_eq hw g c
  unfold reconfigurationDecides
  dsimp only
  refine ⟨fun hcg hroom => ?_, fun hcg happlied => ?_, fun hcg hneither hfits hroom => ?_⟩
  · rw [evaluateOnline_same hwg (by rw [hwr, hcg])] at ht
    obtain ⟨-, -, -, -, hpau⟩ := notDue_left o hw.grant hw.restore ht
    have hp : t.port p = x := by
      unfold State.port
      rw [hpau (by rw [hw.units.2.1, hw.projected, hw.available]; exact hroom)]
      exact hw.port
    rw [hp, hw.standing.state, hw.standing.granted, hw.standing.cause]
    exact ⟨hstate, hgranted, rfl⟩
  · rw [hother hcg, happly happlied] at ht
    exact applyReconfig_left hw hidle g c o ht
  · rw [hother hcg, hrefuse hneither hfits] at ht
    have hdue := sameDue_refusePort w p .speedHeld
    have hst := refusePort_st w p .speedHeld
    rw [if_neg (by rw [hws]; nofun)] at hst
    obtain ⟨-, -, -, -, hpau⟩ := notDue_left o (hdue.1.trans hw.grant) (hdue.2.trans hw.restore) ht
    have hp : t.port p = { w.st.port p with cause := .speedHeld } := by
      unfold State.port
      rw [hpau ?_, hst]
      · exact (State.port_setPort _ _ _ _).trans (if_pos rfl)
      · have hprojected : (w.st.setPort p { w.st.port p with cause := .speedHeld }).projected = w.st.projected := projected_setPort _ rfl rfl
        rw [hst, hprojected, hw.projected]
        show w.st.pbu.hold = true ∨ _ ≤ (computeFigures w.st).available
        rw [hw.units.2.1, hw.available]
        exact hroom
    rw [hp]
    exact ⟨hws, hwg, rfl⟩

end Sys2Proof.Machine
end

section
/-! PROOFS. Request words: what each kind of word leaves. -/

set_option Elab.async false

namespace Sys2Proof.Machine

variable {r s t u : State} {w : Work} {b : Slot} {p q : PortRef} {c d g : PortConfig} {x : Port} {priority : Fin 8}

/-! ### A word that finds no UP blade behind the port -/

theorem beyond_left (hw : StoredAs s p x w) (hbeyond : s.beyondCount p = true) (hoff : (s.port p).state = .offline) (on : Bool)
    (waited : Option PortConfig) (o : State) {t : State} (ht : t = publish o (settle (carryRequest w p on waited))) :
    (t.port p).state = .offline ∧ (t.port p).cause = .noSuchPort := by
  rw [carryRequest_beyond on waited (hw.beyondCount.trans hbeyond)] at ht
  have hdue : w.sameDue (raisePort (w.setPort p { w.st.port p with cause := .noSuchPort }) p .noSuchPort .warn 0) := ⟨rfl, rfl⟩
  have hport : (raisePort (w.setPort p { w.st.port p with cause := .noSuchPort }) p .noSuchPort .warn 0).st.port p =
      { w.st.port p with cause := .noSuchPort } := (State.port_setPort _ _ _ _).trans (if_pos rfl)
  have hs : (w.st.port p).state = .offline := by rw [hw.port, hw.standing.state]; exact hoff
  obtain ⟨-, -, hkept, -⟩ := notDue_left o (hdue.1.trans hw.grant) (hdue.2.trans hw.restore) ht
  rw [hkept p (notCandidate_of_state (by rw [hport]; show (w.st.port p).state ≠ _; rw [hs]; nofun)
    (by rw [hport]; show (w.st.port p).state ≠ _; rw [hs]; nofun)), hport]
  exact ⟨hs, rfl⟩

theorem down_left (hw : StoredAs s p x w) (hbeyond : s.beyondCount p = false) (hdown : (s.blade p.slot).state ≠ .up) (on : Bool)
    (waited : Option PortConfig) (hshed : ¬((s.port p).state = .shed ∧ on = false)) (o : State) {t : State}
    (ht : t = publish o (settle (carryRequest w p on waited))) :
    (t.port p).state = (s.port p).state ∧ (t.port p).cause = if (s.port p).state = .offline then .bladeDown else (s.port p).cause := by
  have hs : (w.st.port p).state = (s.port p).state := by rw [hw.port, hw.standing.state]
  have hd : (w.st.blade p.slot).state ≠ .up := by rw [hw.blade]; exact hdown
  rw [carryRequest_down on waited (hw.beyondCount.trans hbeyond) hd, hs, if_neg hshed] at ht
  split at ht
  · next hoff =>
    rw [if_pos hoff]
    have hdue : w.sameDue (w.setPort p { w.st.port p with cause := .bladeDown }) := ⟨rfl, rfl⟩
    obtain ⟨-, -, hkept, -⟩ := notDue_left o (hdue.1.trans hw.grant) (hdue.2.trans hw.restore) ht
    rw [hkept p fun h => hd h.1, show (w.setPort p { w.st.port p with cause := .bladeDown }).st.port p = { w.st.port p with cause := .bladeDown } from
      (State.port_setPort _ _ _ _).trans (if_pos rfl)]
    exact ⟨hs, rfl⟩
  · next hoff =>
    rw [if_neg hoff]
    obtain ⟨-, -, hkept, -⟩ := notDue_left o hw.grant hw.restore ht
    rw [hkept p fun h => hd h.1, hw.port]
    exact ⟨hw.standing.state, hw.standing.cause⟩

/-- A word that moves nothing leaves every port but an ONLINE one where it stands. -/
theorem still_left (hw : StoredAs s p x w) (honline : (s.port p).state ≠ .online) (o : State) {t : State} (ht : t = publish o (settle w)) :
    (t.port p).state = (s.port p).state ∧ (t.port p).granted = (s.port p).granted ∧ (t.port p).cause = (s.port p).cause := by
  obtain ⟨-, -, hkept, hup, -⟩ := notDue_left o hw.grant hw.restore ht
  have hwp := hw.port
  by_cases hg : (s.port p).state = .goingUp
  · have hmoved := hup p (by rw [hwp, hw.standing.state]; exact hg)
    rw [hwp] at hmoved
    rcases hmoved with h | h <;> rw [h] <;> exact ⟨hw.standing.state, hw.standing.granted, hw.standing.cause⟩
  · rw [hkept p (notCandidate_of_state (by rw [hwp, hw.standing.state]; exact honline) (by rw [hwp, hw.standing.state]; exact hg)), hwp]
    exact ⟨hw.standing.state, hw.standing.granted, hw.standing.cause⟩

/-- ON for a port in SHED: it stays there, also where it asks for another configuration (Table 5.2-2). -/
theorem shed_kept (hw : StoredAs s p x w) (hstate : (s.port p).state = .shed) (waited : Option PortConfig) (o : State) {t : State}
    (ht : t = publish o (settle (evaluateOn w p waited))) :
    (t.port p).state = .shed ∧ (t.port p).granted = (s.port p).granted ∧ (t.port p).cause = (s.port p).cause := by
  have hs : (w.st.port p).state = .shed := by rw [hw.port, hw.standing.state]; exact hstate
  have heq : evaluateOn w p waited = if (w.st.port p).request = (w.st.port p).granted then w else refusePort w p .speedHeld := by
    unfold evaluateOn
    dsimp only
    rw [hs]
  rw [heq] at ht
  split at ht
  · obtain ⟨h1, h2⟩ := still_left hw (by rw [hstate]; nofun) o ht
    exact ⟨h1.trans hstate, h2⟩
  · have hdue := sameDue_refusePort w p .speedHeld
    have hst := refusePort_st w p .speedHeld
    rw [if_pos (.inr hs)] at hst
    obtain ⟨-, -, hkept, -⟩ := notDue_left o (hdue.1.trans hw.grant) (hdue.2.trans hw.restore) ht
    rw [hst] at hkept
    rw [hkept p (notCandidate_of_state (by rw [hs]; nofun) (by rw [hs]; nofun)), hw.port]
    exact ⟨hw.standing.state.trans hstate, hw.standing.granted, hw.standing.cause⟩

/-! ### OFF -/

/-- A port that becomes OFFLINE outside the queues and the list stays OFFLINE and outside them. -/
theorem offline_left {v : Work} (hidle : v.st.idlePort p) (cause : PortCause) (o : State) {t : State}
    (ht : t = publish o (settle (toOffline v p cause))) :
    (t.port p).state = .offline ∧ (t.port p).cause = cause ∧ (t.port p).granted = none ∧ t.idlePort p := by
  have hrest := settle_atRest (idlePort_toOffline hidle p cause) (by rw [toOffline_self]; nofun)
  rw [toOffline_self] at hrest
  have hport := hrest.port.eq_of nofun nofun
  subst ht
  refine ⟨?_, ?_, ?_, hrest.apart⟩
  · show ((settle (toOffline v p cause)).st.port p).state = _
    rw [hport]
  · show ((settle (toOffline v p cause)).st.port p).cause = _
    rw [hport]
  · show ((settle (toOffline v p cause)).st.port p).granted = _
    rw [hport]

theorem sameDue_toGoingDown_self (w : Work) (p : PortRef) (cause : PortCause) : w.sameDue (toGoingDown w p cause) :=
  sameDue_toGoingDown ⟨rfl, rfl⟩ p cause

theorem toGoingDown_granted (cause : PortCause) (h : (w.st.port p).granted = some c) : toGoingDown w p cause =
    orderPort (w.setPort p { w.st.port p with state := .goingDown, cause := cause, leaving := .clear }) p .disable c := by
  unfold toGoingDown
  dsimp only
  split
  · next a ha =>
    obtain rfl := Option.some.inj (ha.symm.trans h)
    rfl
  · next ha =>
    rw [h] at ha
    cases ha

/-- OFF for an ONLINE port: GOING_DOWN, with a DISABLE of its granted configuration (log entry 104). -/
theorem online_down (hw : StoredAs s p x w) (o : State) {t : State} (ht : t = publish o (settle (toGoingDown w p .request))) :
    (t.port p).state = .goingDown ∧ (t.port p).cause = .request ∧
      ∀ g, (s.port p).granted = some g → (s.link p.slot).state = .up → (t.link p.slot).holdsOrder ⟨p.port, .disable, g⟩ := by
  have hdue := sameDue_toGoingDown_self w p .request
  have hself := toGoingDown_self w p .request
  obtain ⟨-, -, hkept, -⟩ := notDue_left o (hdue.1.trans hw.grant) (hdue.2.trans hw.restore) ht
  have hport := hkept p (notCandidate_of_state (by rw [hself]; nofun) (by rw [hself]; nofun))
  rw [hself] at hport
  refine ⟨by rw [hport], by rw [hport], fun g hg hlink => ?_⟩
  have hheld : Ordered p.slot ⟨p.port, .disable, g⟩ (toGoingDown w p .request).st := by
    rw [toGoingDown_granted (c := g) .request (by rw [hw.port, hw.standing.granted]; exact hg)]
    exact ordered_handed (w.st.setPort p { w.st.port p with state := .goingDown, cause := .request, leaving := .clear }) p.slot _
      (by show (w.st.link p.slot).state = _; rw [hw.link]; exact hlink)
  rw [ht]
  exact (ordered_settle hheld).order

/-! ### The words -/

theorem requestTaken {fits : RequestForm → Bool} {op : PortRef → RequestWord → Work → Work} {Q : State → Prop} {h : Handed}
    (hfind : s.tbp.handed.find? (fun x => x.word.isRequest) = some h) (hword : h.word = .portRequest p)
    (hnew : (RequestWord.ofBits h.value).sequence ≠ (s.port p).lastSeq) (hfits : fits (RequestWord.ofBits h.value).form = true)
    (hQ : Q (publish (s.setTbp { s.tbp with handed := s.tbp.handed.erase h }) (settle (op p (RequestWord.ofBits h.value)
      (Work.start (s.setTbp { s.tbp with handed := s.tbp.handed.erase h })))))) :
    ∃ t, onRequest s fits op = .next t ∧ Q t := by
  have hp : h.word.portRef = p := by rw [hword]; rfl
  exact wordTaken hfind (by rw [hp]; exact decide_eq_false hnew) hfits (by rw [hp]; exact hQ)

/-- The work at which a stored word is carried on. -/
theorem storedAs_start (T : Tbp) (hx : SameStanding (s.port p) x) : StoredAs s p x ((Work.start (s.setTbp T)).setPort p x) :=
  ⟨⟨T, rfl⟩, hx, rfl, rfl⟩

theorem evaluateOn_offline (waited : Option PortConfig) (h : (w.st.port p).state = .offline) : evaluateOn w p waited = admitPort w p := by
  unfold evaluateOn
  dsimp only
  rw [h]

theorem evaluateOn_waitLicense_same (waited : Option PortConfig) (h : (w.st.port p).state = .waitLicense) (hr : (w.st.port p).request = waited) :
    evaluateOn w p waited = w := by
  unfold evaluateOn
  dsimp only
  rw [h]
  exact if_pos hr

theorem evaluateOn_waitPower_same (waited : Option PortConfig) (h : (w.st.port p).state = .waitPower) (hr : (w.st.port p).request = waited) :
    evaluateOn w p waited = reposition w p := by
  unfold evaluateOn
  dsimp only
  rw [h]
  exact if_pos hr

theorem evaluateOn_moving (waited : Option PortConfig) (h : (w.st.port p).state = .goingUp ∨ (w.st.port p).state = .goingDown) :
    evaluateOn w p waited = w := by
  unfold evaluateOn
  dsimp only
  rcases h with h | h <;> rw [h]

theorem evaluateOn_online (waited : Option PortConfig) (h : (w.st.port p).state = .online) : evaluateOn w p waited = evaluateOnline w p := by
  unfold evaluateOn
  dsimp only
  rw [h]

/-- ON, by the checks of R93 and the port's state (Table 5.2-2). -/
theorem on_left (hw : StoredAs s p x w) (hrequest : x.request = some c) (hpriority : x.priority = priority) (hdesired : x.desired = true)
    (hx : x = { s.port p with lastSeq := x.lastSeq, desired := x.desired, request := x.request, priority := x.priority }) (o : State) {t : State}
    (ht : t = publish o (settle (carryRequest w p true (s.port p).request))) :
    (s.beyondCount p = true → (s.port p).state = .offline → (t.port p).state = .offline ∧ (t.port p).cause = .noSuchPort) ∧
    (s.beyondCount p = false → (s.blade p.slot).state ≠ .up → (t.port p).state = (s.port p).state ∧
      (t.port p).cause = if (s.port p).state = .offline then .bladeDown else (s.port p).cause) ∧
    (s.beyondCount p = false → (s.blade p.slot).state = .up →
      ((s.port p).state = .offline → admissionDecides s t p c priority) ∧
      ((s.port p).state = .waitLicense → s.waitsMatch → (s.port p).request = some c →
        t.port p = { s.port p with lastSeq := (t.port p).lastSeq, desired := true, priority := priority } ∧
        t.queue p.slot = s.queue p.slot) ∧
      ((s.port p).state = .waitLicense → s.waitsMatch → (s.port p).request ≠ some c → c.xd = false →
        (t.port p).state ≠ .offline ∧ ((t.port p).state = .waitLicense → ∃ e ∈ t.queue p.slot, e.port = p.port ∧ e.units = c.units)) ∧
      ((s.port p).state = .waitPower → s.waitsMatch → (s.port p).request = some c → (∃ e ∈ s.pbu.waitList, e.port = p) →
        (t.port p).state = .waitPower ∧ (∀ e ∈ s.pbu.waitList, e.port = p → { e with priority := priority } ∈ t.pbu.waitList) ∧
        ∀ e, e.port ≠ p → (e ∈ t.pbu.waitList ↔ e ∈ s.pbu.waitList)) ∧
      ((s.port p).state = .waitPower → s.waitsMatch → (s.port p).request ≠ some c → c.xd = false → (t.port p).state ≠ .offline) ∧
      ((s.port p).state = .goingUp ∨ (s.port p).state = .goingDown → (t.port p).state = (s.port p).state ∧
        (t.port p).granted = (s.port p).granted) ∧
      (∀ g, (s.port p).state = .online → s.waitsMatch → (s.port p).granted = some g → reconfigurationDecides s t p g c) ∧
      (∀ g, (s.port p).state = .shed → s.waitsMatch → (s.port p).granted = some g → (t.port p).state = .shed ∧
        (t.port p).granted = some g ∧ (t.port p).cause = (s.port p).cause)) := by
  have hws : (w.st.port p).state = (s.port p).state := by rw [hw.port, hw.standing.state]
  have hwr : (w.st.port p).request = some c := by rw [hw.port]; exact hrequest
  refine ⟨fun hb hoff => beyond_left hw hb hoff true _ o ht, fun hb hdown => down_left hw hb hdown true _ (fun h => nomatch h.2) o ht, fun hb hup => ?_⟩
  rw [carryRequest_up true _ (hw.beyondCount.trans hb) (by rw [hw.blade]; exact hup), if_pos rfl] at ht
  refine ⟨fun hs => ?_, fun hs _ hsame => ?_, fun hs _ hother hxd => ?_, fun hs hmatch hsame hentry => ?_, fun hs _ hother hxd => ?_, fun hs => ?_,
    fun g hs hmatch hg => ?_, fun g hs _ hg => ?_⟩
  · rw [evaluateOn_offline _ (hws.trans hs)] at ht
    exact offline_admitted hw hs hrequest hpriority o ht
  · rw [evaluateOn_waitLicense_same _ (hws.trans hs) (hwr.trans hsame.symm)] at ht
    obtain ⟨hlu, -, hkept, -⟩ := notDue_left o hw.grant hw.restore ht
    refine ⟨?_, ?_⟩
    · rw [hkept p (notCandidate_of_state (by rw [hws, hs]; nofun) (by rw [hws, hs]; nofun)), hw.port]
      rw [hdesired, hrequest, ← hsame, hpriority] at hx
      exact hx
    · unfold State.queue
      rw [hlu, hw.units.1]
  · have hadmitted := waiting_admitted hw hrequest hxd _ (.inl hs) hother
    rw [ht]
    refine ⟨fun h => ?_, hadmitted.queue⟩
    rcases hadmitted.state with h1 | h1 | h1 | h1 <;> exact nomatch h.symm.trans h1
  · rw [evaluateOn_waitPower_same _ (hws.trans hs) (hwr.trans hsame.symm)] at ht
    obtain ⟨hport, hdue, hself, hothers⟩ := reposition_left hmatch hw hentry
    obtain ⟨-, hwait, hkept, -⟩ := notDue_left o (hdue.1.trans hw.grant) (hdue.2.trans hw.restore) ht
    have hps : ((reposition w p).st.port p).state = .waitPower := by rw [hport, hw.standing.state]; exact hs
    rw [hwait, hkept p (notCandidate_of_state (by rw [hps]; nofun) (by rw [hps]; nofun))]
    rw [hpriority] at hself
    exact ⟨hps, hself, hothers⟩
  · have hadmitted := waiting_admitted hw hrequest hxd _ (.inr hs) hother
    rw [ht]
    intro h
    rcases hadmitted.state with h1 | h1 | h1 | h1 <;> exact nomatch h.symm.trans h1
  · rw [evaluateOn_moving _ (hws ▸ hs)] at ht
    obtain ⟨h1, h2, -⟩ := still_left hw (by rcases hs with hs | hs <;> rw [hs] <;> nofun) o ht
    exact ⟨h1, h2⟩
  · rw [evaluateOn_online _ (hws.trans hs)] at ht
    exact online_reconfigured hw (idlePort_of_waitsMatch hmatch (by rw [hs]; nofun) (by rw [hs]; nofun)) hs hg hrequest o ht
  · obtain ⟨h1, h2, h3⟩ := shed_kept hw hs _ o ht
    exact ⟨h1, h2.trans hg, h3⟩

theorem evaluateOff_waiting (h : (w.st.port p).state = .waitLicense ∨ (w.st.port p).state = .waitPower) :
    evaluateOff w p = toOffline (leaveWait w p) p .request := by
  unfold evaluateOff
  rcases h with h | h <;> rw [h]

theorem evaluateOff_still (h : (w.st.port p).state = .offline ∨ (w.st.port p).state = .goingUp ∨ (w.st.port p).state = .goingDown) :
    evaluateOff w p = w := by
  unfold evaluateOff
  rcases h with h | h | h <;> rw [h]

theorem evaluateOff_online (h : (w.st.port p).state = .online) : evaluateOff w p = toGoingDown w p .request := by
  unfold evaluateOff
  rw [h]

theorem evaluateOff_shed (h : (w.st.port p).state = .shed) : evaluateOff w p = toOffline w p .request := by
  unfold evaluateOff
  rw [h]

/-- OFF for a port in SHED makes it OFFLINE, whether its blade is UP or not. -/
theorem carryOff_shed (hw : StoredAs s p x w) (hbeyond : s.beyondCount p = false) (hstate : (s.port p).state = .shed) (waited : Option PortConfig) :
    carryRequest w p false waited = toOffline w p .request := by
  have hs : (w.st.port p).state = .shed := by rw [hw.port, hw.standing.state]; exact hstate
  have hb := hw.beyondCount.trans hbeyond
  by_cases hup : (w.st.blade p.slot).state = .up
  · rw [carryRequest_up false waited hb hup, if_neg nofun, evaluateOff_shed hs]
  · rw [carryRequest_down false waited hb hup, if_neg (by rw [hs]; nofun), if_pos ⟨hs, rfl⟩]

/-- A malformed word (R93). -/
theorem invalid_left (hw : StoredAs s p x w) (hx : x = { s.port p with lastSeq := x.lastSeq }) (o : State) {t : State}
    (ht : t = publish o (settle (refusePort w p .badRequest))) :
    (∀ b, t.queue b = s.queue b) ∧ t.pbu.waitList = s.pbu.waitList ∧
    (¬s.shedCandidate p ∨ s.pbu.hold = true ∨ s.projected ≤ (computeFigures s).available → t.port p = { s.port p with
      lastSeq := x.lastSeq
      cause := if (s.port p).state = .goingDown ∨ (s.port p).state = .shed then (s.port p).cause else .badRequest }) := by
  have hws : (w.st.port p).state = (s.port p).state := by rw [hw.port, hw.standing.state]
  have hdue := sameDue_refusePort w p .badRequest
  have hst := refusePort_st w p .badRequest
  rw [hws] at hst
  generalize refusePort w p .badRequest = v at hdue hst ht
  obtain ⟨hlu, hwait, hkept, -, hpau⟩ := notDue_left o (hdue.1.trans hw.grant) (hdue.2.trans hw.restore) ht
  have hvp : v.st.port p = { s.port p with
      lastSeq := x.lastSeq
      cause := if (s.port p).state = .goingDown ∨ (s.port p).state = .shed then (s.port p).cause else .badRequest } := by
    rw [hst]
    split
    · rw [hw.port]
      exact hx
    · refine ((State.port_setPort _ _ _ _).trans (if_pos rfl)).trans ?_
      rw [hw.port, hx]
  have hsame : v.st.lu = s.lu ∧ v.st.pbu = s.pbu ∧ v.st.blade = s.blade ∧ v.st.projected = s.projected ∧
      (computeFigures v.st).available = (computeFigures s).available := by
    rw [hst]
    split
    · exact ⟨hw.units.1, hw.units.2.1, hw.blade, hw.projected, hw.available⟩
    · refine ⟨hw.units.1, hw.units.2.1, hw.blade, ?_, hw.available⟩
      have hkept : (w.st.setPort p { w.st.port p with cause := .badRequest }).projected = w.st.projected := projected_setPort _ rfl rfl
      exact hkept.trans hw.projected
  obtain ⟨hslu, hspbu, hblade, hprojected, havailable⟩ := hsame
  refine ⟨fun b => ?_, by rw [hwait, hspbu], fun hstays => ?_⟩
  · unfold State.queue
    rw [hlu, hslu]
  · rcases hstays with hno | hroom
    · rw [hkept p fun hc => hno ?_, hvp]
      obtain ⟨h1, h2, h3⟩ := hc
      rw [hvp] at h2 h3
      rw [hblade] at h1
      exact ⟨h1, h2, h3⟩
    · unfold State.port at hvp ⊢
      rw [hpau (by rw [hspbu, hprojected, havailable]; exact hroom)]
      exact hvp

/-- A request word is stored and carried on. -/
theorem requestCarried {fits : RequestForm → Bool} {op : PortRef → RequestWord → Work → Work} {Q : State → Prop} {h : Handed}
    {desired : Bool} {request : Option PortConfig} (f : Work → Work) (hf : ∀ v, Settled v.st (f v).st)
    (hfind : s.tbp.handed.find? (fun x => x.word.isRequest) = some h) (hword : h.word = .portRequest p)
    (hnew : (RequestWord.ofBits h.value).sequence ≠ (s.port p).lastSeq) (hfits : fits (RequestWord.ofBits h.value).form = true)
    (hop : ∀ v : Work, v.st.port p = s.port p → op p (RequestWord.ofBits h.value) v = f (v.setPort p x)) (hx : SameStanding (s.port p) x)
    (hasks : x.asks = (desired, request, priority, (RequestWord.ofBits h.value).sequence, (s.port p).optic))
    (hQ : ∀ (w : Work) (t : State), StoredAs s p x w → t = publish (s.setTbp { s.tbp with handed := s.tbp.handed.erase h }) (settle (f w)) →
      requestStored s t h p desired request priority → Q t) :
    ∃ t, onRequest s fits op = .next t ∧ Q t := by
  refine requestTaken hfind hword hnew hfits ?_
  rw [hop (Work.start (s.setTbp { s.tbp with handed := s.tbp.handed.erase h })) rfl]
  have hstored := storedAs_start { s.tbp with handed := s.tbp.handed.erase h } hx
  have hst : ((Work.start (s.setTbp { s.tbp with handed := s.tbp.handed.erase h })).setPort p x).st =
      (s.setTbp { s.tbp with handed := s.tbp.handed.erase h }).setPort p x := rfl
  generalize (Work.start (s.setTbp { s.tbp with handed := s.tbp.handed.erase h })).setPort p x = w at hstored hst ⊢
  exact hQ w _ hstored rfl (requestStored_left rfl hst (hf w) hasks _ rfl)

/-- Settles O46: by the form of the word, the checks of R93 and the port's state. -/
theorem requestWordsMoveThePort : Obligations.RequestWordsMoveThePort := by
  intro s h p hfind hword hnew
  have hoff : ∀ {Q : State → Prop}, (RequestWord.ofBits h.value).form = .off →
      (∀ (x : Port) (w : Work) (t : State), StoredAs s p x w →
        t = publish (s.setTbp { s.tbp with handed := s.tbp.handed.erase h }) (settle (carryRequest w p false (s.port p).request)) →
        requestStored s t h p false (s.port p).request (s.port p).priority → Q t) → ∃ t, exec .portRequestOff s = .next t ∧ Q t :=
    fun {Q} hform hQ => by
      show ∃ t, execPortRequestOff s = .next t ∧ _
      unfold execPortRequestOff
      exact requestCarried (x := { s.port p with lastSeq := (RequestWord.ofBits h.value).sequence, desired := false })
        (fun w => carryRequest w p false (s.port p).request) (fun _ => settled_carryRequest (.refl _) _ _ _) hfind hword hnew
        (decide_eq_true hform) (fun v hv => by unfold requestOff; rw [hv]) ⟨rfl, rfl, rfl, rfl, rfl⟩ rfl (hQ _)
  refine ⟨fun c priority hform => ?_, fun hform => ?_, fun hform hb hup hs hidle => ?_, fun hform => ?_⟩
  · show ∃ t, execPortRequestOn s = .next t ∧ _
    unfold execPortRequestOn
    refine requestCarried (x := { s.port p with lastSeq := (RequestWord.ofBits h.value).sequence, desired := true, request := some c, priority := priority })
      (fun w => carryRequest w p true (s.port p).request) (fun _ => settled_carryRequest (.refl _) _ _ _) hfind hword hnew
      (by rw [hform]; rfl) (fun v hv => ?_) ⟨rfl, rfl, rfl, rfl, rfl⟩ rfl fun w t hw ht hstored =>
        ⟨hstored, on_left hw rfl rfl rfl rfl _ ht⟩
    rw [hform]
    show requestOn v p c priority (RequestWord.ofBits h.value).sequence = _
    unfold requestOn
    rw [hv]
  · refine hoff hform fun x w t hw ht hstored => ?_
    have hws : (w.st.port p).state = (s.port p).state := by rw [hw.port, hw.standing.state]
    refine ⟨hstored, fun hb hs => beyond_left hw hb hs _ _ _ ht, fun hb hs hmatch => ?_,
      fun hb hdown hs => down_left hw hb hdown _ _ (fun h => hs h.1) _ ht, fun hb hup hmatch => ?_⟩
    · rw [carryOff_shed hw hb hs] at ht
      obtain ⟨h1, h2, h3, -⟩ := offline_left (hw.idle (idlePort_of_waitsMatch hmatch (by rw [hs]; nofun) (by rw [hs]; nofun))) _ _ ht
      exact ⟨h1, h2, h3⟩
    · rw [carryRequest_up false _ (hw.beyondCount.trans hb) (by rw [hw.blade]; exact hup), if_neg nofun] at ht
      refine ⟨fun hs => ?_, fun hs => ?_, fun hs => ?_⟩
      · rw [evaluateOff_waiting (hws ▸ hs)] at ht
        obtain ⟨h1, h2, -, h3⟩ := offline_left (leaveWait_idle hmatch hw hs) _ _ ht
        exact ⟨h1, h2, h3⟩
      · rw [evaluateOff_online (hws.trans hs)] at ht
        exact online_down hw _ ht
      · rw [evaluateOff_still (hws ▸ hs)] at ht
        obtain ⟨h1, -, h3⟩ := still_left hw (by rcases hs with hs | hs | hs <;> rw [hs] <;> nofun) _ ht
        exact ⟨h1, h3⟩
  · refine hoff hform fun x w t hw ht hstored => ?_
    have hws : (w.st.port p).state = (s.port p).state := by rw [hw.port, hw.standing.state]
    rw [carryRequest_up false _ (hw.beyondCount.trans hb) (by rw [hw.blade]; exact hup), if_neg nofun, evaluateOff_online (hws.trans hs)] at ht
    obtain ⟨h1, h2, -⟩ := online_down hw _ ht
    exact ⟨h1, h2, hstored⟩
  · show ∃ t, execPortRequestInvalid s = .next t ∧ _
    unfold execPortRequestInvalid
    refine requestCarried (x := { s.port p with lastSeq := (RequestWord.ofBits h.value).sequence })
      (fun w => refusePort w p .badRequest) (fun _ => settled_refusePort (.refl _) _ _) hfind hword hnew
      (decide_eq_true hform) (fun v hv => ?_) ⟨rfl, rfl, rfl, rfl, rfl⟩ rfl fun w t hw ht hstored => ⟨hstored, invalid_left hw rfl _ ht⟩
    unfold requestInvalid
    rw [hv]

end Sys2Proof.Machine
end

section
/-! PROOFS. TOKEN_READ_COMPLETE: the checks of Table 6.6-1, and what each verdict leaves. -/

set_option Elab.async false

namespace Sys2Proof.Machine

variable {r s t u : State} {w : Work} {k : TokenIx} {f : Feature} {data : List Byte}

/-! ### The effective reserves (R106) -/

/-- Each effective reserve is the smaller of the reserve and of what those before it have left. -/
theorem effectiveReserves_getD : ∀ (l : List Nat) (e i : Nat),
    (effectiveReserves e l).getD i 0 = min (l.getD i 0) (e - ((effectiveReserves e l).take i).sum)
  | [], e, i => by simp [effectiveReserves]
  | a :: l, e, 0 => by simp [effectiveReserves]
  | a :: l, e, i + 1 => by
    have ih := effectiveReserves_getD l (e - min a e) i
    have hsum : ((effectiveReserves e (a :: l)).take (i + 1)).sum = min a e + ((effectiveReserves (e - min a e) l).take i).sum := by
      simp [effectiveReserves]
    have hcons : (effectiveReserves e (a :: l)).getD (i + 1) 0 = (effectiveReserves (e - min a e) l).getD i 0 := by
      simp [effectiveReserves]
    rw [hcons, ih, hsum, List.getD_cons_succ]
    omega

theorem length_effectiveReserves : ∀ (l : List Nat) (e : Nat), (effectiveReserves e l).length = l.length
  | [], _ => rfl
  | a :: l, e => by simp [effectiveReserves, length_effectiveReserves l]

theorem effReserve_list (s : State) (e : Nat) : effectiveReserves e s.lu.reserves.toList = (indices 8).map (s.effReserve e) := by
  have hindices : indices 8 = List.finRange 8 := by decide
  rw [hindices]
  refine List.ext_getElem (by simp [length_effectiveReserves]) fun i h1 h2 => ?_
  rw [List.getElem_map, List.getElem_finRange]
  exact (List.getD_eq_getElem _ _ h1).symm

theorem indices_below (b : Slot) : (indices 8).filter (fun c => decide (c < b)) = (indices 8).take b.1 := by
  revert b
  decide

/-- The effective reserves are the only figures with the law of R106. -/
theorem eff_unique {eff : Slot → Nat} {e : Nat}
    (h : ∀ b, eff b = min (s.lu.reserves.get b) (e - (((indices 8).filter (fun c => decide (c < b))).map eff).sum)) :
    ∀ b, eff b = s.effReserve e b := by
  have hall : ∀ n (b : Slot), b.1 < n → eff b = s.effReserve e b := by
    intro n
    induction n with
    | zero => exact fun _ h => absurd h (Nat.not_lt_zero _)
    | succ n ih =>
      intro b hb
      have hbelow : ((indices 8).filter (fun c => decide (c < b))).map eff = ((indices 8).filter (fun c => decide (c < b))).map (s.effReserve e) := by
        refine List.map_congr_left fun c hc => ih c ?_
        have hlt : c < b := of_decide_eq_true (List.mem_filter.1 hc).2
        exact Nat.lt_of_lt_of_le hlt (Nat.le_of_lt_succ hb)
      have hget := effectiveReserves_getD s.lu.reserves.toList e b.1
      have hreserve : s.lu.reserves.toList.getD b.1 0 = s.lu.reserves.get b := by
        rw [List.getD_eq_getElem _ _ (by simp)]
        rfl
      rw [h b, hbelow, indices_below, List.map_take, ← effReserve_list, ← hreserve]
      exact hget.symm
  exact fun b => hall 8 b b.2

theorem shortfall_of_shortBy {n d : Nat} (h : s.shortBy f n d) : s.shortfall f n = d := by
  obtain ⟨eff, heff, hd⟩ := h
  have hsame : eff = s.effReserve n := funext (eff_unique heff)
  subst hd
  unfold State.shortfall
  dsimp only
  cases f with
  | xdPorts => exact (Nat.max_zero _).symm
  | portUnits =>
    dsimp only
    unfold State.commonUse State.commonPool
    rw [foldl_add_eq, effReserve_list, hsame]

/-! ### The checks -/

theorem ofCode_iff (n : Nat) (f : Feature) : Feature.ofCode n = some f ↔ n = match f with
    | .portUnits => 1
    | .xdPorts => 2 := by
  unfold Feature.ofCode
  cases f <;> (dsimp only; split <;> [skip; split]) <;> simp_all

theorem tokenDigest_eq (x : Token) : tokenDigest x = digestOf x.feature x.units x.sequence := by
  have hstep : ∀ v a : BitVec 64, digestStep v a =
      (((v ^^^ a) * 6364136223846793005#64) <<< 23) ||| (((v ^^^ a) * 6364136223846793005#64) >>> 41) := fun v a => by
    unfold digestStep
    rw [BitVec.rotateLeft_def]
  unfold tokenDigest digestWith digestOf
  dsimp only
  rw [hstep, hstep, Nat.mul_comm x.feature, Nat.mul_comm x.units]

/-- The verdict on a token whose feature, serial and check value are right is that of its sequence and units. -/
theorem judgeToken_genuine (h : tokenGenuine data f) : judgeToken s (Token.ofLine data) = judgeSequence s f (Token.ofLine data) := by
  obtain ⟨hname, hserial, hcheck⟩ := h
  have hcode : Feature.ofCode (Token.ofLine data).feature = some f := (ofCode_iff _ f).2 hname
  unfold judgeToken
  rw [hcode]
  dsimp only
  have hdigest : (Token.ofLine data).check = (tokenDigest (Token.ofLine data)).toNat := by
    rw [tokenDigest_eq]
    exact hcheck
  rw [if_neg (show ¬(Token.ofLine data).serial ≠ _ from not_not_intro hserial), if_neg (not_not_intro hdigest)]

/-- A token that fails a check has that check's result. -/
theorem judgeToken_fails {r : TokenResult} {d : Nat} (h : tokenFails s data r d) : judgeToken s (Token.ofLine data) = .fails r d := by
  rcases h with ⟨hno, rfl, rfl⟩ | ⟨f, hname, hcase⟩
  · have hcode : Feature.ofCode (Token.ofLine data).feature = none := by
      cases hc : Feature.ofCode (Token.ofLine data).feature with
      | none => rfl
      | some f => exact absurd ((ofCode_iff _ f).1 hc) (hno f)
    unfold judgeToken
    rw [hcode]
    rfl
  · have hcode : Feature.ofCode (Token.ofLine data).feature = some f := (ofCode_iff _ f).2 hname
    rcases hcase with ⟨hserial, rfl, rfl⟩ | ⟨hserial, hno, rfl, rfl⟩ | ⟨hgen, hlow, rfl, rfl⟩ | ⟨hgen, hsame, hflag, rfl, rfl⟩ |
      ⟨hgen, hle, hflag, hpos, hshort, rfl⟩
    · unfold judgeToken
      rw [hcode]
      exact if_pos hserial
    · unfold judgeToken
      rw [hcode]
      dsimp only
      have hdigest : (Token.ofLine data).check ≠ (tokenDigest (Token.ofLine data)).toNat := by
        rw [tokenDigest_eq]
        exact fun hcheck => hno ⟨hname, hserial, hcheck⟩
      rw [if_neg (show ¬(Token.ofLine data).serial ≠ _ from not_not_intro hserial), if_pos hdigest]
    · rw [judgeToken_genuine hgen]
      exact if_pos hlow
    · rw [judgeToken_genuine hgen]
      unfold judgeSequence
      dsimp only
      rw [if_neg (by show ¬tokenField data 4 4 < _; omega), if_pos ⟨hsame, hflag⟩]
    · have hfall := shortfall_of_shortBy hshort
      rw [judgeToken_genuine hgen]
      unfold judgeSequence
      dsimp only
      rw [if_neg (by show ¬tokenField data 4 4 < _; omega), if_neg fun hh => Bool.false_ne_true ((hflag hh.1).symm.trans hh.2)]
      show (if 0 < s.shortfall f (tokenField data 2 2) then _ else _ : TokenVerdict) = _
      rw [hfall, if_pos hpos]
      exact congrArg _ hfall

/-- A token that passes every check is reinstated at its floor and programmed above it. -/
theorem judgeToken_passes (h : tokenPasses s data f) : judgeToken s (Token.ofLine data) =
    if tokenField data 4 4 = (s.lu.feature f).floor then .reinstated f else .programs f := by
  obtain ⟨hgen, hle, hflag, hshort⟩ := h
  have hfall := shortfall_of_shortBy hshort
  rw [judgeToken_genuine hgen]
  unfold judgeSequence
  dsimp only
  rw [if_neg (by show ¬tokenField data 4 4 < _; omega), if_neg fun hh => Bool.false_ne_true ((hflag hh.1).symm.trans hh.2)]
  show (if 0 < s.shortfall f (tokenField data 2 2) then _ else _ : TokenVerdict) = _
  rw [hfall, if_neg (Nat.lt_irrefl 0)]
  rfl

/-! ### What a verdict leaves -/

/-- The slot of a token with the fields as read. -/
def TokenSlot.read (x : TokenSlot) (t : Token) : TokenSlot := { x with feature := t.feature, units := t.units, tokenSeq := t.sequence }

/-- The slot of a submission that has ended. -/
def TokenSlot.ended (x : TokenSlot) (result : TokenResult) (detail : Nat) : TokenSlot :=
  { x with state := .done, result := result, detail := detail, resultSeq := x.current }

theorem tokenDone_st (w : Work) (k : TokenIx) (result : TokenResult) (detail : Nat) : (tokenDone w k result detail).st =
    w.st.setLu { w.st.lu with slots := Vector.put w.st.lu.slots k ((w.st.lu.slots.get k).ended result detail) } := rfl

theorem put_put {α : Type} {n : Nat} (v : Vector α n) (i : Fin n) (x y : α) : Vector.put (Vector.put v i x) i y = Vector.put v i y := by
  simp [Vector.put]

theorem put_get {α : Type} {n : Nat} (v : Vector α n) (i : Fin n) (x : α) : (Vector.put v i x).get i = x :=
  (Vector.get_put _ _ _ _).trans (if_pos rfl)

theorem actOnToken_fails {x : Token} {result : TokenResult} {d : Nat} (h : judgeToken w.st x = .fails result d) : (actOnToken w k x).st =
    w.st.setLu { w.st.lu with slots := Vector.put w.st.lu.slots k (((w.st.lu.slots.get k).read x).ended result d) } := by
  unfold actOnToken
  rw [h]
  dsimp only
  rw [tokenDone_st]
  show w.st.setLu { w.st.lu with slots := Vector.put (Vector.put w.st.lu.slots k _) k ((Vector.get (Vector.put w.st.lu.slots k _) k).ended result d) } = _
  rw [put_put, put_get]
  rfl

theorem setFeature_fields (l : Lu) (f : Feature) (x : FeatureState) : (l.setFeature f x).slots = l.slots ∧ (l.setFeature f x).fifo = l.fifo ∧
    (l.setFeature f x).reserves = l.reserves ∧ (l.setFeature f x).program = l.program ∧
    ∀ g, (l.setFeature f x).feature g = if g = f then x else l.feature g := by
  cases f <;> exact ⟨rfl, rfl, rfl, rfl, fun g => by cases g <;> rfl⟩

theorem actOnToken_reinstated {x : Token} (h : judgeToken w.st x = .reinstated f) : (actOnToken w k x).st =
    w.st.setLu { w.st.lu.setFeature f { w.st.lu.feature f with entitlement := x.units, reinstated := true } with
      slots := Vector.put w.st.lu.slots k (((w.st.lu.slots.get k).read x).ended .reinstated x.units) } := by
  unfold actOnToken
  rw [h]
  dsimp only
  rw [grantOnRise_st, tokenDone_st]
  cases f with
  | portUnits =>
    show w.st.setLu { w.st.lu with
      portUnits := _
      slots := Vector.put (Vector.put w.st.lu.slots k _) k ((Vector.get (Vector.put w.st.lu.slots k _) k).ended _ _) } = _
    rw [put_put, put_get]
    rfl
  | xdPorts =>
    show w.st.setLu { w.st.lu with
      xdPorts := _
      slots := Vector.put (Vector.put w.st.lu.slots k _) k ((Vector.get (Vector.put w.st.lu.slots k _) k).ended _ _) } = _
    rw [put_put, put_get]
    rfl

theorem actOnToken_programs {x : Token} (h : judgeToken w.st x = .programs f) : (actOnToken w k x).st =
    w.st.setLu { w.st.lu with
      slots := Vector.put w.st.lu.slots k { (w.st.lu.slots.get k).read x with state := .programming }
      program := some ⟨k, f, x.units, x.sequence, w.st.now + msec 4⟩ } := by
  unfold actOnToken
  rw [h]
  show w.st.setLu { w.st.lu with slots := Vector.put (Vector.put w.st.lu.slots k _) k { Vector.get (Vector.put w.st.lu.slots k _) k with state := _ }
                                 program := _ } = _
  rw [put_put, put_get]
  rfl

/-- What is left behind the verdict of a token's checks. -/
theorem tokenRead_left {v z : Work} {x : Lu} (hst : v.st = (clearChannel s).setLu x) (hz : Settled v.st z.st) (o : State)
    {t : State} (ht : t = publish o z) :
    t.lu.slots = x.slots ∧ (∀ f, t.lu.feature f = x.feature f) ∧ t.lu.program = x.program ∧ t.lu.fifo = x.fifo ∧ t.lu.reserves = x.reserves ∧
    (∀ q, (t.port q).asks = (s.port q).asks) ∧ t.tmc.inProgress = none ∧ admissionFrame { s with lu := t.lu } t := by
  subst ht
  have hlu : (publish o z).lu = z.st.lu := rfl
  have hmoved := moved_clearChannel s
  have hfree : (clearChannel s).tmc.inProgress = none := rfl
  generalize clearChannel s = c at hst hmoved hfree
  rw [hst] at hz
  have hadmits : Admits (s.setLu x) (c.setLu x) := by
    have hmem := hmoved.mem
    have hmarks := hmoved.marks
    rw [hmoved.rest]
    exact { Admits.refl (s.setLu x) with mem := hmem, marks := hmarks }
  refine ⟨hz.slots, fun f => ?_, hz.program, hz.fifo, hz.reserves, fun q => ?_, ?_, (hadmits.trans hz.admits).luFrame o⟩
  · cases f
    · exact hz.portUnits
    · exact hz.xdPorts
  · rw [hz.asks o q]
    show (c.port q).asks = _
    rw [hmoved.rest]
    rfl
  · rw [(publish_tmcKept o z).inProgress, hz.tmc]
    exact hfree

/-- What the verdict makes of the slot, the features and the program. -/
theorem verdict_left {v z : Work} {x : Lu} {y : TokenSlot} (hst : v.st = (clearChannel s).setLu x) (hz : Settled v.st z.st)
    (hslots : x.slots = Vector.put s.lu.slots k y) (hfifo : x.fifo = s.lu.fifo) (hreserves : x.reserves = s.lu.reserves) (o : State)
    {t : State} (ht : t = publish o z) :
    t.lu.slots.get k = y ∧ (∀ f, t.lu.feature f = x.feature f) ∧ t.lu.program = x.program ∧ t.tmc.inProgress = none ∧
    (∀ j, j ≠ k → t.lu.slots.get j = s.lu.slots.get j) ∧ (∀ q, (t.port q).asks = (s.port q).asks) ∧ t.lu.fifo = s.lu.fifo ∧
    t.lu.reserves = s.lu.reserves ∧ admissionFrame { s with lu := t.lu } t := by
  obtain ⟨hts, hfeature, hprogram, htf, htr, hasks, hfree, hframe⟩ := tokenRead_left hst hz o ht
  rw [hts, hslots]
  exact ⟨put_get _ _ _, hfeature, hprogram, hfree, fun j hj => (Vector.get_put _ _ _ _).trans (if_neg hj), hasks, htf.trans hfifo,
    htr.trans hreserves, hframe⟩

/-- The read of a token that is being checked. -/
theorem tokenRead_eq {p : InProgress} (h : (w.st.lu.slots.get k).state = .checking) : tokenRead w k p =
    if p.uncorrectable then tokenDone (w.map clearChannel) k .memoryError (64 * p.access.line)
    else settle (actOnToken (w.map clearChannel) k (Token.ofLine p.data)) := if_neg (not_not_intro h)

theorem clearChannel_lu (s : State) : (clearChannel s).lu = s.lu := by rw [(moved_clearChannel s).rest]

/-- Settles O48: by the read, and by the verdict of the checks. -/
theorem tokenIsDecidedByItsChecks : Obligations.TokenIsDecidedByItsChecks := by
  intro s p k hp hkind hchecking
  show ∃ t, execTokenReadComplete s = .next t ∧ _
  unfold execTokenReadComplete
  rw [hp]
  dsimp only
  rw [hkind]
  dsimp only
  refine finished ?_
  rw [tokenRead_eq (w := Work.start s) hchecking]
  have hw : ((Work.start s).map clearChannel).st = clearChannel s := rfl
  have hjudge : judgeToken ((Work.start s).map clearChannel).st (Token.ofLine p.data) = judgeToken s (Token.ofLine p.data) := by
    rw [hw, (moved_clearChannel s).rest]
    rfl
  have hnow : (clearChannel s).now = s.now := by rw [(moved_clearChannel s).rest]
  have hlu := clearChannel_lu s
  generalize (Work.start s).map clearChannel = w at hw hjudge ⊢
  rw [← hw] at hlu hnow
  cases hread : p.uncorrectable with
  | true =>
    rw [if_pos rfl]
    have hst := tokenDone_st w k .memoryError (64 * p.access.line)
    rw [hlu, hw] at hst
    generalize hz : tokenDone w k .memoryError (64 * p.access.line) = z at hst
    generalize ht : publish s z = t
    obtain ⟨hslot, hfeature, -, hrest⟩ := verdict_left hst (.refl _) rfl rfl rfl s ht.symm
    exact ⟨fun _ => ⟨hslot, hfeature⟩, nofun, nofun, nofun, nofun, hrest⟩
  | false =>
    rw [if_neg nofun]
    have hsettled := settle_settled (actOnToken w k (Token.ofLine p.data))
    have hfails := fun result d => actOnToken_fails (w := w) (k := k) (x := Token.ofLine p.data) (result := result) (d := d)
    have hreinstated := fun f => actOnToken_reinstated (w := w) (k := k) (f := f) (x := Token.ofLine p.data)
    have hprograms := fun f => actOnToken_programs (w := w) (k := k) (f := f) (x := Token.ofLine p.data)
    rw [hjudge, hlu] at hfails
    rw [hjudge, hlu] at hreinstated
    rw [hjudge, hlu, hnow] at hprograms
    rw [hw] at hfails hreinstated hprograms
    generalize actOnToken w k (Token.ofLine p.data) = v at hsettled hfails hreinstated hprograms ⊢
    generalize settle v = z at hsettled ⊢
    generalize ht : publish s z = t
    cases hv : judgeToken s (Token.ofLine p.data) with
    | fails result d =>
      obtain ⟨hslot, hfeature, -, hrest⟩ := verdict_left (hfails _ _ hv) hsettled rfl rfl rfl s ht.symm
      refine ⟨nofun, fun r' d' _ h => ?_, fun f _ h heq => ?_, fun f _ h hlt => ?_, fun _ => by rw [hslot]; exact ⟨rfl, rfl, rfl⟩, hrest⟩
      · have hsame := hv.symm.trans (judgeToken_fails h)
        cases hsame
        rw [hslot]
        exact ⟨rfl, rfl, rfl, rfl, hfeature⟩
      · have hsame := hv.symm.trans (judgeToken_passes h)
        rw [if_pos heq] at hsame
        cases hsame
      · have hsame := hv.symm.trans (judgeToken_passes h)
        rw [if_neg (by omega)] at hsame
        cases hsame
    | reinstated g =>
      obtain ⟨hslots, hfifo, hreserves, -, hset⟩ := setFeature_fields s.lu g
        { s.lu.feature g with entitlement := (Token.ofLine p.data).units, reinstated := true }
      obtain ⟨hslot, hfeature, -, hrest⟩ := verdict_left (hreinstated _ hv) hsettled rfl hfifo hreserves s ht.symm
      refine ⟨nofun, fun r' d' _ h => ?_, fun f _ h heq => ?_, fun f _ h hlt => ?_, fun _ => by rw [hslot]; exact ⟨rfl, rfl, rfl⟩, hrest⟩
      · exact nomatch hv.symm.trans (judgeToken_fails h)
      · have hsame := hv.symm.trans (judgeToken_passes h)
        rw [if_pos heq] at hsame
        cases hsame
        rw [hslot]
        refine ⟨rfl, rfl, rfl, rfl, ?_, fun h' hh => ?_⟩
        · exact (hfeature g).trans ((hset g).trans (if_pos rfl))
        · exact (hfeature h').trans ((hset h').trans (if_neg hh))
      · have hsame := hv.symm.trans (judgeToken_passes h)
        rw [if_neg (by omega)] at hsame
        cases hsame
    | programs g =>
      obtain ⟨hslot, hfeature, hprogram, hrest⟩ := verdict_left (hprograms _ hv) hsettled rfl rfl rfl s ht.symm
      refine ⟨nofun, fun r' d' _ h => ?_, fun f _ h heq => ?_, fun f _ h hlt => ?_, fun _ => by rw [hslot]; exact ⟨rfl, rfl, rfl⟩, hrest⟩
      · exact nomatch hv.symm.trans (judgeToken_fails h)
      · have hsame := hv.symm.trans (judgeToken_passes h)
        rw [if_pos heq] at hsame
        cases hsame
      · have hsame := hv.symm.trans (judgeToken_passes h)
        rw [if_neg (by omega)] at hsame
        cases hsame
        refine ⟨by rw [hslot], hfeature, hprogram⟩

end Sys2Proof.Machine
end

section
/-! PROOFS. LINK_ERROR_COUNT_WRITE: the count that a ring header on the status page overwrites. -/

set_option Elab.async false

namespace Sys2Proof.Machine

/-- An ARMED part before its memory is initialised, with a link error count to be written, a drop that no RING_LOST has told of, and
a layout whose ring header is line 40, that of the counts. -/
def ringOnStatusPage : State := { State.reset.setBlade 1 { Blade.reset with errorsAt := some 0 } with
  plu := { Plu.reset with part := .armed, layout := some ⟨0, 0, 0, 0, 2560, 0, Vector.replicate 8 0⟩ }
  evu := { Evu.reset with pending := 1, lostTotal := 1 } }

theorem ringOnStatusPage_linesWhole : ringOnStatusPage.linesWhole := by
  refine ⟨fun e he => (nomatch he), fun u n r h => ?_⟩
  have hnone : ringOnStatusPage.swq.waits u = [] := by cases u <;> rfl
  rw [hnone] at h
  cases h

/-- Nothing waits in the PAU, and every entry has the low byte 2 of the next event sequence where the count of slot 1 would stand. -/
def countOverwritten (t : State) : Bool :=
  decide (t.swq.waits .pau = []) && t.swq.entries.all (fun e => decide (e.bytes[14]? = some (some 2#8)))

/-- The RING_LOST that the command makes moves the event sequence, and the ring header that follows is merged over the count. -/
theorem ringHeader_over_count : ∃ t, exec (.linkErrorCountWrite 1) ringOnStatusPage = .next t ∧ countOverwritten t = true := by
  have hcheck : (match exec (.linkErrorCountWrite 1) ringOnStatusPage with
    | .next t => countOverwritten t
    | _ => false) = true := by decide +kernel
  split at hcheck
  · next t ht => exact ⟨t, ht, hcheck⟩
  · cases hcheck

/-- Refutes O45: at `ringOnStatusPage` the count of slot 1 is 0, nothing waits, and the one entry of line 40 holds the byte 2 of the
ring header in its place. -/
theorem not_settledBladeIsPoweredOrWaits : ¬Obligations.SettledBladeIsPoweredOrWaits := by
  rintro ⟨-, hwrite⟩
  obtain ⟨t, ht, -, hgiven, -⟩ := hwrite 1 ringOnStatusPage (by decide +kernel) ringOnStatusPage_linesWhole
  obtain ⟨t', ht', hover⟩ := ringHeader_over_count
  obtain rfl : t = t' := Host.Outcome.next.inj (ht.symm.trans ht')
  obtain ⟨hwaits, hentries⟩ := Bool.and_eq_true_iff.1 hover
  rcases hgiven with hwaiting | ⟨e, he, -, hbytes, -⟩
  · rw [of_decide_eq_true hwaits] at hwaiting
    cases hwaiting
  · have hcount := hbytes 14 0#8 (by decide +kernel)
    have hheader := of_decide_eq_true (List.all_eq_true.1 hentries e he)
    exact nomatch hcount.symm.trans hheader

end Sys2Proof.Machine
end

section
/-! PROOFS. The status write queue: how its entries and the writes that wait move, the publication of a command that changes no
figure, and the completion of the head entry. -/

set_option Elab.async false

namespace Sys2Proof.Machine

variable {s t u : State} {w : Work}

/-! ### How the entries of the queue move -/

/-- Entries stay in their order, with their lines, and further ones come behind them. Bytes change at touched lines alone, and the
head alone is issued. -/
def EntriesGrow (touched : Nat → Prop) (l m : List SwqEntry) : Prop :=
  ∀ (i : Nat) (x : SwqEntry), l[i]? = some x → ∃ y, m[i]? = some y ∧ y.id = x.id ∧ y.line = x.line ∧
    (¬touched x.line → y.bytes = x.bytes) ∧ (y.issued = x.issued ∨ i = 0)

variable {touched : Nat → Prop} {l m n : List SwqEntry}

theorem EntriesGrow.refl (l : List SwqEntry) : EntriesGrow touched l l := fun _ x hx => ⟨x, hx, rfl, rfl, fun _ => rfl, .inl rfl⟩

theorem EntriesGrow.trans (h : EntriesGrow touched l m) (g : EntriesGrow touched m n) : EntriesGrow touched l n := by
  intro i x hx
  obtain ⟨y, hy, hid, hline, hbytes, hissued⟩ := h i x hx
  obtain ⟨z, hz, gid, gline, gbytes, gissued⟩ := g i y hy
  refine ⟨z, hz, gid.trans hid, gline.trans hline, fun ht => (gbytes (hline ▸ ht)).trans (hbytes ht), ?_⟩
  rcases gissued with gissued | h0
  · exact hissued.imp_left gissued.trans
  · exact .inr h0

theorem entriesGrow_append (l m : List SwqEntry) : EntriesGrow touched l (l ++ m) := fun i x hx =>
  ⟨x, by rw [List.getElem?_append_left (List.getElem?_eq_some_iff.1 hx).1, hx], rfl, rfl, fun _ => rfl, .inl rfl⟩

theorem entriesGrow_map (l : List SwqEntry) {f : SwqEntry → SwqEntry}
    (hf : ∀ x, (f x).id = x.id ∧ (f x).line = x.line ∧ (f x).bytes = x.bytes ∧ (f x).issued = x.issued) :
    EntriesGrow touched l (l.map f) := by
  intro i x hx
  obtain ⟨hid, hline, hbytes, hissued⟩ := hf x
  exact ⟨f x, by rw [List.getElem?_map, hx, Option.map_some], hid, hline, fun _ => hbytes, .inl hissued⟩

/-- The numbers of the entries stay, in their order. -/
theorem EntriesGrow.ids (h : EntriesGrow touched l m) : ∃ r, m.map (·.id) = l.map (·.id) ++ r := by
  have hprefix : l.map (·.id) <+: m.map (·.id) := by
    rw [List.prefix_iff_getElem?]
    intro i hi
    have hl : l[i]? = some (l[i]'(by simpa using hi)) := List.getElem?_eq_getElem _
    obtain ⟨y, hy, hid, -⟩ := h i _ hl
    rw [List.getElem?_map, hy, Option.map_some, hid, List.getElem_map]
  obtain ⟨r, hr⟩ := hprefix
  exact ⟨r, hr.symm⟩

/-- A status write that has been taken since the queue stood at `q`: an entry for its line holds its bytes, and it has not been
issued, but for the head of a queue whose head had not been issued. -/
def EntryHolds (q : List SwqEntry) (line : Nat) (bytes : List (Option Byte)) (l : List SwqEntry) : Prop :=
  ∃ i e, l[i]? = some e ∧ e.line = line ∧ (∀ (k : Nat) (v : Byte), bytes[k]? = some (some v) → e.bytes[k]? = some (some v)) ∧
    (e.issued = false ∨ i = 0) ∧ (i = 0 → ∀ x, q.head? = some x → x.issued = false)

theorem EntryHolds.grow {q : List SwqEntry} {line : Nat} {bytes : List (Option Byte)} (h : EntryHolds q line bytes l)
    (g : EntriesGrow touched l m) (ht : ¬touched line) : EntryHolds q line bytes m := by
  obtain ⟨i, e, he, hline, hbytes, hissued, hhead⟩ := h
  obtain ⟨y, hy, -, gline, gbytes, gissued⟩ := g i e he
  refine ⟨i, y, hy, gline.trans hline, fun k v hv => ?_, ?_, hhead⟩
  · rw [gbytes (hline ▸ ht)]
    exact hbytes k v hv
  · rcases gissued with gissued | h0
    · exact hissued.imp_left gissued.trans
    · exact .inr h0

/-- The queue's own reading of an entry that holds a write. -/
theorem EntryHolds.entry {q : List SwqEntry} {line : Nat} {bytes : List (Option Byte)} (h : EntryHolds q line bytes l) :
    ∃ e ∈ l, e.line = line ∧ (∀ (k : Nat) (v : Byte), bytes[k]? = some (some v) → e.bytes[k]? = some (some v)) ∧
      (e.issued = false ∨ (l.head? = some e ∧ ∀ x, q.head? = some x → x.issued = false)) := by
  obtain ⟨i, e, he, hline, hbytes, hissued, hhead⟩ := h
  refine ⟨e, List.mem_of_getElem? he, hline, hbytes, hissued.imp_right fun h0 => ⟨?_, hhead h0⟩⟩
  subst h0
  rw [List.head?_eq_getElem?]
  exact he

/-! ### Taking a status write -/

/-- A byte that the newer mask enables is the newer one's. -/
theorem overlay_getElem?_of_newer {old new : List (Option Byte)} {k : Nat} {v : Byte} (hlength : old.length = new.length)
    (hv : new[k]? = some (some v)) : (overlay old new)[k]? = some (some v) := by
  have hk : k < old.length := hlength ▸ (List.getElem?_eq_some_iff.1 hv).1
  unfold overlay
  rw [List.getElem?_zipWith, hv, List.getElem?_eq_getElem hk]
  rfl

/-- A merge overlays one entry of the line that has not been issued. -/
theorem mergeEntry_eq {line : Nat} {bytes : List (Option Byte)} : ∀ {l m : List SwqEntry}, mergeEntry line bytes l = some m →
    ∃ pre e post, l = pre ++ e :: post ∧ e.line = line ∧ e.issued = false ∧
      m = pre ++ { e with bytes := overlay e.bytes bytes } :: post
  | [], m, h => by cases h
  | e :: rest, m, h => by
    unfold mergeEntry at h
    split at h
    · next hmatch =>
      obtain ⟨hline, hissued⟩ : e.line = line ∧ e.issued = false := by simpa using hmatch
      cases h
      exact ⟨[], e, rest, rfl, hline, hissued, rfl⟩
    · obtain ⟨m', hm', rfl⟩ := Option.map_eq_some_iff.1 h
      obtain ⟨pre, x, post, rfl, hline, hissued, rfl⟩ := mergeEntry_eq hm'
      exact ⟨e :: pre, x, post, rfl, hline, hissued, rfl⟩

/-- The SWQ takes a write: what waits stays, the entries of other lines keep their bytes, and one of its line holds the write's. -/
theorem takeWrite_grows {g : Bool} {q r : Swq} {line : Nat} {bytes : List (Option Byte)} (h : takeWrite g q line bytes = some r) :
    EntriesGrow (· = line) q.entries r.entries ∧ (∃ e ∈ r.entries, e.line = line) ∧
      ((∀ e ∈ q.entries, e.bytes.length = bytes.length) → EntryHolds q.entries line bytes r.entries) := by
  unfold takeWrite at h
  split at h
  · next es hes =>
    cases h
    obtain ⟨pre, e, post, hq, hline, hissued, rfl⟩ := mergeEntry_eq hes
    rw [hq]
    have hat : ∀ {y : SwqEntry}, (pre ++ y :: post)[pre.length]? = some y := by simp
    refine ⟨fun i x hx => ?_, ⟨_, List.mem_append_right _ List.mem_cons_self, hline⟩, fun hwhole => ?_⟩
    · by_cases hi : i = pre.length
      · subst hi
        obtain rfl : e = x := Option.some.inj (hat.symm.trans hx)
        exact ⟨_, hat, rfl, rfl, fun ht => absurd hline ht, .inl rfl⟩
      · refine ⟨x, ?_, rfl, rfl, fun _ => rfl, .inl rfl⟩
        rw [← hx]
        grind
    · refine ⟨pre.length, _, hat, hline, fun k v hv => overlay_getElem?_of_newer (hwhole e (by simp)) hv, .inl hissued,
        fun h0 x hx => ?_⟩
      obtain rfl : pre = [] := List.length_eq_zero_iff.1 h0
      obtain rfl : e = x := by simpa using hx
      exact hissued
  · split at h
    · cases h
      refine ⟨entriesGrow_append _ _, ⟨_, List.mem_append_right _ (List.mem_singleton.2 rfl), rfl⟩, fun _ => ?_⟩
      refine ⟨q.entries.length, ⟨q.nextId, line, bytes, false, false, false⟩, by simp, rfl, fun k v hv => hv, .inl rfl, fun h0 x hx => ?_⟩
      rw [List.length_eq_zero_iff.1 h0] at hx
      cases hx
    · cases h

theorem present_swq (s : State) (a : Access) : (present s a).swq = s.swq := by
  unfold present
  dsimp only
  split <;> rfl

theorem presentAll_swq : ∀ (l : List Access) (s : State), (presentAll s l).swq = s.swq
  | [], _ => rfl
  | a :: l, s => (presentAll_swq l (present s a)).trans (present_swq s a)

/-- Presenting the head entry issues it, and it alone. -/
theorem swqIssue_grows (s : State) : EntriesGrow touched s.swq.entries (swqIssue s).swq.entries ∧
    (swqIssue s).swq.waiting = s.swq.waiting ∧ (swqIssue s).swq.lastServed = s.swq.lastServed := by
  unfold swqIssue
  split
  · exact ⟨.refl _, rfl, rfl⟩
  · next e rest heq =>
    split
    · exact ⟨.refl _, rfl, rfl⟩
    · rw [present_swq]
      refine ⟨fun i x hx => ?_, rfl, rfl⟩
      rw [heq] at hx
      cases i with
      | zero =>
        obtain rfl : e = x := by simpa using hx
        exact ⟨_, rfl, rfl, rfl, fun _ => rfl, .inr rfl⟩
      | succ i => exact ⟨x, by simpa using hx, rfl, rfl, fun _ => rfl, .inl rfl⟩

/-- A status write of one line: what waits stays, but for the write itself behind its unit's. -/
theorem statusWrite_grows (s : State) (v : UnitId) {item : StatusItem} (hfill : ∀ k, item ≠ .zeroFill k)
    (htouched : ∀ line bytes, render s item = some (line, bytes) → touched line) :
    EntriesGrow touched s.swq.entries (statusWrite s v item).swq.entries ∧
      ∃ r, (∀ x ∈ r, x = .write item) ∧ (statusWrite s v item).swq.waits v = s.swq.waits v ++ r ∧
        ∀ c, c ≠ v → (statusWrite s v item).swq.waits c = s.swq.waits c := by
  have hsame : ∀ {p q : Swq}, p.waiting = q.waiting → ∀ c, p.waits c = q.waits c := fun h c => by
    unfold Swq.waits
    rw [h]
  unfold statusWrite
  split
  · next k => exact absurd rfl (hfill k)
  · split
    · exact ⟨.refl _, [], by simp, by simp, fun _ _ => rfl⟩
    · split
      · exact ⟨.refl _, [], by simp, by simp, fun _ _ => rfl⟩
      · next line bytes hrender =>
        split
        · next q hq =>
          obtain ⟨hgrow, hwait, -⟩ := swqIssue_grows (touched := touched) (s.setSwq q)
          have hwaits := hsame (hwait.trans (takeWrite_spec hq).1)
          have hline : EntriesGrow touched s.swq.entries q.entries := fun i x hx => by
            obtain ⟨y, hy, hid, hline, hbytes, hissued⟩ := (takeWrite_grows hq).1 i x hx
            exact ⟨y, hy, hid, hline, fun ht => hbytes fun e => ht (e ▸ htouched line bytes hrender), hissued⟩
          exact ⟨hline.trans hgrow, [], by simp, by simp [hwaits], fun c _ => hwaits c⟩
        · refine ⟨.refl _, [.write item], by simp, ?_, fun c hc => ?_⟩
          · rw [State.setSwq_swq, waits_setWaits, if_pos rfl]
          · rw [State.setSwq_swq, waits_setWaits, if_neg hc]

/-- A status write of a whole item waits, or an entry holds it. -/
theorem statusWrite_given (s : State) (v : UnitId) {item : StatusItem} (hfill : ∀ k, item ≠ .zeroFill k) {line : Nat}
    {bytes : List (Option Byte)} (hrender : render s item = some (line, bytes)) (hlength : bytes.length = 64) (hwhole : s.linesWhole) :
    .write item ∈ (statusWrite s v item).swq.waits v ∨
      EntryHolds s.swq.entries line bytes (statusWrite s v item).swq.entries := by
  unfold statusWrite
  split
  · next k => exact absurd rfl (hfill k)
  · split
    · next hwaits => exact .inl (List.contains_iff_mem.1 hwaits)
    · rw [hrender]
      dsimp only
      split
      · next q hq =>
        have hholds := (takeWrite_grows hq).2.2 fun e he => (hwhole.1 e he).trans hlength.symm
        exact .inr (hholds.grow (touched := fun _ => False) (swqIssue_grows (s.setSwq q)).1 not_false)
      · refine .inl ?_
        rw [State.setSwq_swq, waits_setWaits, if_pos rfl]
        simp

/-! ### Publication of a command that changes no figure -/

/-- Nothing that the status pages show has changed, but for the ring header. -/
def ShownKept (s t : State) : Prop :=
  t = { s with tmc := t.tmc, tbp := t.tbp, swq := t.swq, evu := t.evu, plu := { s.plu with fill := t.plu.fill } }

theorem ShownKept.render (h : ShownKept s t) {item : StatusItem} (hheader : item ≠ .ringHeader) : render t item = render s item := by
  rw [h]
  cases item with
  | ringHeader => exact absurd rfl hheader
  | _ => rfl

theorem ShownKept.changedItems (h : ShownKept s t) : changedItems s t = [] := by
  have hitem : ∀ item, item ≠ .ringHeader → itemDiffers s t item = false := fun item hitem => by
    unfold itemDiffers
    rw [h.render hitem]
    exact decide_eq_false (not_not.2 rfl)
  have hblades : changedBlades s t = [] := by
    have hstate : ∀ b, t.blade b = s.blade b := fun b => by rw [h]; rfl
    unfold changedBlades
    simp [hitem, hstate]
  have hports : changedPorts s t = [] := by
    have hpau : t.pau = s.pau := by rw [h]
    have huse : t.plu.inUse = s.plu.inUse := by rw [h]
    have harmed : t.armed = s.armed := by rw [h]; rfl
    unfold changedPorts
    rw [List.flatMap_eq_nil_iff]
    intro b _
    rw [List.filterMap_eq_nil_iff]
    intro e he
    have hsame : e.1.1 = e.1.2 := by
      obtain ⟨i, hi, hie⟩ := List.getElem_of_mem (List.of_mem_zip he).1
      rw [List.getElem_zip] at hie
      rw [← hie]
      simp [hpau]
    rw [hsame, harmed, huse]
    cases s.armed <;> simp
  unfold Machine.changedItems
  simp [hitem, hblades, hports]

/-- The writes that a command asks for have been enqueued. -/
def Work.enqueued (w : Work) : State := w.rewrites.foldl (fun s i => statusWrite s i.owner i) w.st

theorem asked_enqueued (w : Work) : Asked w.st w.enqueued := asked_foldl _ (fun s i => asked_statusWrite s i.owner i) _ _

/-- A command that changes no figure and raises no event enqueues the writes it asks for, and the ring header where it differs. -/
theorem publish_shown (h : ShownKept s w.st) (hevents : w.events = []) : publish s w = tmcRest (scrubRest
    (if itemDiffers s (evuRest w.enqueued) .ringHeader then statusWrite (evuRest w.enqueued) .evu .ringHeader else evuRest w.enqueued)) := by
  have hwritten : writtenItems s w = w.rewrites.map (fun i => (i.owner, i)) := by
    unfold writtenItems
    rw [h.changedItems]
    simp
  rw [publish_eq]
  unfold publishState
  rw [hwritten, hevents]
  dsimp only
  rw [List.foldl_map]
  rfl

theorem evuRest_swq (s : State) : (evuRest s).swq = s.swq := by
  unfold evuRest
  split <;> rfl

theorem header_line {line : Nat} {bytes : List (Option Byte)} (h : render s .ringHeader = some (line, bytes)) :
    ∃ l, s.plu.layout = some l ∧ s.armed = true ∧ line = l.ring / 64 := by
  have hlayout : ((if s.armed then s.plu.layout else none).map fun l => (l.ring / 64, maskAt 8 (s.evu.headerBytes (ringCapacity l.capCode)))) =
      some (line, bytes) := h
  obtain ⟨l, hl, heq⟩ := Option.map_eq_some_iff.1 hlayout
  split at hl
  · next harmed => exact ⟨l, hl, harmed, (congrArg Prod.fst heq).symm⟩
  · cases hl

/-- Behind the enqueued writes comes the ring header's, and nothing else. -/
theorem publish_shown_grows (h : ShownKept s w.st) (hevents : w.events = [])
    (htouched : ∀ l, w.st.plu.layout = some l → w.st.armed = true → touched (l.ring / 64)) :
    EntriesGrow touched w.enqueued.swq.entries (publish s w).swq.entries ∧
      ∃ r, (∀ x ∈ r, x = .write .ringHeader) ∧ (publish s w).swq.waits .evu = w.enqueued.swq.waits .evu ++ r ∧
        ∀ c, c ≠ .evu → (publish s w).swq.waits c = w.enqueued.swq.waits c := by
  have hswq : ∀ x : State, (tmcRest (scrubRest x)).swq = x.swq := fun _ => rfl
  rw [publish_shown h hevents, hswq]
  split
  · have hplu : (evuRest w.enqueued).plu = w.st.plu := (published_evuRest _).plu.trans (by rw [(asked_enqueued w).rest])
    have hwrite := statusWrite_grows (touched := touched) (evuRest w.enqueued) .evu (item := .ringHeader) (fun _ e => nomatch e)
      (fun line bytes hrender => by
        obtain ⟨l, hl, harmed, rfl⟩ := header_line hrender
        exact htouched l (hplu ▸ hl) (by unfold State.armed at harmed ⊢; rwa [← hplu]))
    rw [evuRest_swq] at hwrite
    exact hwrite
  · rw [evuRest_swq]
    exact ⟨.refl _, [], by simp, by simp, fun _ _ => rfl⟩

/-- With every drop told of and the ring header as it was, the enqueued writes are all. -/
theorem publish_shown_swq (h : ShownKept s w.st) (hevents : w.events = []) (htold : w.st.lossTold)
    (hheader : render w.st .ringHeader = render s .ringHeader) : (publish s w).swq = w.enqueued.swq := by
  have hrest : evuRest w.enqueued = w.enqueued := by
    have hplu : w.enqueued.plu.part = w.st.plu.part := by rw [(asked_enqueued w).rest]
    have hpins : w.enqueued.pins = w.st.pins := by rw [(asked_enqueued w).rest]
    exact lossTold_congr htold hplu hpins (asked_enqueued w).evu
  have hsame : itemDiffers s w.enqueued .ringHeader = false := by
    have hrender : render w.enqueued .ringHeader = render s .ringHeader := by
      rw [(asked_enqueued w).rest]
      exact hheader
    exact decide_eq_false (not_not.2 hrender.symm)
  rw [publish_shown h hevents, hrest, hsame]
  rfl

/-! ### The head entry completes -/

/-- A report of drain moves the phase of the EVU and the zero-fill, and nothing else. -/
theorem giveDrains_left (s : State) : giveDrains s =
      { s with evu := { s.evu with phase := (giveDrains s).evu.phase }, plu := { s.plu with fill := (giveDrains s).plu.fill } } ∧
    ∀ sev, s.evu.phase = .draining sev → (∀ x ∈ s.swq.entries, x.evuMark = false) → (giveDrains s).evu.phase = .drained sev := by
  have hplu : ∀ r : State, (if decide (r.plu.fill = .draining) && !r.swq.entries.any (fun e => e.pluMark) then
      r.setPlu { r.plu with fill := .drained } else r).evu = r.evu := fun r => by split <;> rfl
  unfold giveDrains
  dsimp only
  constructor
  · have hfill : ∀ r : State, r = { s with evu := { s.evu with phase := r.evu.phase } } →
        (if decide (r.plu.fill = .draining) && !r.swq.entries.any (fun e => e.pluMark) then r.setPlu { r.plu with fill := .drained } else r) =
          { s with evu := { s.evu with phase := r.evu.phase }
                   plu := { s.plu with fill := (if decide (r.plu.fill = .draining) && !r.swq.entries.any (fun e => e.pluMark) then
                      r.setPlu { r.plu with fill := .drained } else r).plu.fill } } := fun r hr => by
      rw [hr]
      split <;> rfl
    rw [hplu]
    refine hfill _ ?_
    split
    · split <;> rfl
    · rfl
  · intro sev hphase hmarks
    have hany : s.swq.entries.any (fun e => e.evuMark) = false := by simpa using hmarks
    rw [hplu, hphase]
    dsimp only
    rw [hany]
    rfl

theorem startRead_swq (s : State) (tag : BusTag) (lines : List Nat) : (startRead s tag lines).swq = s.swq := presentAll_swq _ _

theorem moved_startRead (s : State) (tag : BusTag) (lines : List Nat) : TmcMoved s (startRead s tag lines) :=
  (moved_setTmc s _).trans (asked_presentAll _ _).moved

/-- The held reads that await nothing more are asked of the TMC; the others stay held. -/
theorem releaseReads_left (s : State) :
    TmcMoved (s.setTbp { s.tbp with heldReads := s.tbp.heldReads.filter (fun r => !r.awaits.isEmpty) }) (releaseReads s) ∧
      (releaseReads s).swq = s.swq ∧ (releaseReads s).tmc.inProgress = s.tmc.inProgress := by
  unfold releaseReads
  dsimp only
  generalize s.tbp.heldReads.filter (fun r => r.awaits.isEmpty) = l
  have hall : ∀ (l : List HeldRead) (r : State), TmcMoved r (l.foldl (fun s r => startRead s r.tag r.lines) r) ∧
      (l.foldl (fun s r => startRead s r.tag r.lines) r).swq = r.swq ∧
      (l.foldl (fun s r => startRead s r.tag r.lines) r).tmc.inProgress = r.tmc.inProgress := fun l => by
    induction l with
    | nil => exact fun r => ⟨.refl r, rfl, rfl⟩
    | cons a l ih =>
      intro r
      obtain ⟨hmoved, hswq, hbusy⟩ := ih (startRead r a.tag a.lines)
      exact ⟨(moved_startRead r a.tag a.lines).trans hmoved, hswq.trans (startRead_swq r a.tag a.lines),
        hbusy.trans (asked_presentAll _ _).tmc.inProgress⟩
  exact hall l _

/-- What the completion of the head has reached. -/
theorem entryComplete_left {e : SwqEntry} {rest : List SwqEntry} (h : s.swq.entries = e :: rest) :
    (entryComplete s).tmc.inProgress = none ∧ EntriesGrow touched rest (entryComplete s).swq.entries ∧
      (∀ sev, s.evu.phase = .draining sev → (∀ x ∈ rest, x.evuMark = false) → (entryComplete s).evu.phase = .drained sev) ∧
      (∀ r ∈ (entryComplete s).tbp.heldReads, e.id ∉ r.awaits ∧ r.awaits ≠ []) ∧
      (entryComplete s).tmc.mem = s.tmc.mem ∧ (entryComplete s).tmc.marks = s.tmc.marks ∧
      entryComplete s = { s with tmc := (entryComplete s).tmc, tbp := (entryComplete s).tbp, swq := (entryComplete s).swq,
                                 evu := { s.evu with phase := (entryComplete s).evu.phase }
                                 plu := { s.plu with fill := (entryComplete s).plu.fill } } := by
  have hclear : TmcMoved s (clearChannel s) := moved_clearChannel s
  have hbusy : (clearChannel s).tmc.inProgress = none := (asked_tmcRest _).tmc.inProgress
  have hswq : (clearChannel s).swq = s.swq := rfl
  have heq : entryComplete s = entryGone (swqIssue (giveDrains ((clearChannel s).setSwq { s.swq with entries := rest }))) e.id := by
    unfold entryComplete
    dsimp only
    rw [hswq, h]
  rw [heq]
  clear heq
  generalize hr : (clearChannel s).setSwq { s.swq with entries := rest } = r
  have hrest : TmcMoved s r := hclear.trans (hr ▸ ⟨rfl, rfl, rfl⟩)
  have hrbusy : r.tmc.inProgress = none := hr ▸ hbusy
  have hentries : r.swq.entries = rest := by rw [← hr]; rfl
  clear hr
  obtain ⟨hdrains, hdrained⟩ := giveDrains_left r
  have hissued := asked_swqIssue (giveDrains r)
  have hgrow := (swqIssue_grows (touched := touched) (giveDrains r)).1
  have hdrainsSwq : (giveDrains r).swq.entries = rest := by rw [hdrains]; exact hentries
  rw [hdrainsSwq] at hgrow
  generalize giveDrains r = d at hdrains hdrained hissued hgrow ⊢
  have hd : d.tmc.inProgress = none ∧ d.tmc.mem = s.tmc.mem ∧ d.tmc.marks = s.tmc.marks := by
    rw [hdrains]
    exact ⟨hrbusy, hrest.mem, hrest.marks⟩
  have hdrest : d = { s with tmc := d.tmc, swq := d.swq, evu := { s.evu with phase := d.evu.phase }, plu := { s.plu with fill := d.plu.fill } } := by
    rw [hdrains, hrest.rest]
  have hphase : r.evu.phase = s.evu.phase := by rw [hrest.evu]
  generalize swqIssue d = i at hissued hgrow ⊢
  generalize hg : i.setTbp { i.tbp with heldReads := i.tbp.heldReads.map (fun r => { r with awaits := r.awaits.filter (fun x => decide (x ≠ e.id)) }) } = g
  obtain ⟨hmoved, hgswq, hgbusy⟩ := releaseReads_left g
  have hgone : entryGone i e.id = releaseReads g := by rw [← hg]; rfl
  rw [hgone, hgswq, hgbusy, hmoved.mem, hmoved.marks]
  have hgi : g.tmc = i.tmc ∧ g.swq = i.swq ∧ g.evu = d.evu ∧ g.plu = d.plu := by
    rw [← hg]
    refine ⟨rfl, rfl, hissued.evu, ?_⟩
    have hiplu : i.plu = d.plu := by rw [hissued.rest]
    exact hiplu
  obtain ⟨hgtmc, hgq, hgevu, hgplu⟩ := hgi
  refine ⟨?_, ?_, ?_, ?_, ?_, ?_, ?_⟩
  · rw [hgtmc, hissued.tmc.inProgress, hd.1]
  · rw [hgq]
    exact hgrow
  · intro sev hs hm
    rw [hmoved.evu]
    show g.evu.phase = _
    rw [hgevu]
    exact hdrained sev (hphase.trans hs) (hentries ▸ hm)
  · intro x hx
    rw [hmoved.tbp] at hx
    obtain ⟨hx, hne⟩ := List.mem_filter.1 hx
    rw [← hg] at hx
    obtain ⟨y, -, rfl⟩ := List.mem_map.1 hx
    refine ⟨fun hmem => ?_, by simpa using hne⟩
    simpa using (List.mem_filter.1 hmem).2
  · show g.tmc.mem = _
    rw [hgtmc, hissued.tmc.mem, hd.2.1]
  · show g.tmc.marks = _
    rw [hgtmc, hissued.tmc.marks, hd.2.2]
  · have hg' : g = { s with tmc := g.tmc, tbp := g.tbp, swq := g.swq, evu := { s.evu with phase := d.evu.phase }
                            plu := { s.plu with fill := d.plu.fill } } := by
      rw [← hg, hissued.rest, hdrest]
      rfl
    generalize releaseReads g = z at hmoved hgswq ⊢
    have hevu : z.evu.phase = d.evu.phase := by rw [hmoved.evu, ← hgevu]; rfl
    have hfill : z.plu.fill = d.plu.fill := by rw [hmoved.plu, ← hgplu]; rfl
    have htbp := hmoved.tbp
    rw [hevu, hfill, htbp, ← hgswq]
    refine hmoved.rest.trans ?_
    rw [hg']
    rfl

/-- Settles O25: what the head's completion leaves, step by step. -/
theorem swqHeadLeavesTheQueue : Obligations.SwqHeadLeavesTheQueue := by
  intro s p e rest hp hkind hentries
  have hexec : exec .swqEntryComplete s = .next (publish s ((Work.start s).map entryComplete)) := by
    show execSwqEntryComplete s = _
    unfold execSwqEntryComplete
    rw [hp]
    dsimp only
    rw [hkind]
    rfl
  obtain ⟨hfree, hgrow, hdrained, hheld, hmem, hmarks, hleft⟩ := entryComplete_left (touched := fun _ => True) hentries
  refine ⟨_, hexec, ?_⟩
  generalize hw : (Work.start s).map entryComplete = w
  have hst : w.st = entryComplete s := by rw [← hw]; rfl
  have hshown : ShownKept s w.st := by
    rw [hst, hleft]
    rfl
  have hqueue := (publish_shown_grows (touched := fun _ => True) hshown (by rw [← hw]; rfl) fun _ _ _ => trivial).1
  have henqueued : w.enqueued = entryComplete s := by rw [← hw]; rfl
  rw [henqueued] at hqueue
  have hpublished := publish_published s w
  rw [hst] at hpublished
  refine ⟨hpublished.tmc.inProgress.trans hfree, (hgrow.trans hqueue).ids, fun sev hs hm => ?_, ?_, ?_, ?_⟩
  · rw [hpublished.evu.phase]
    exact hdrained sev hs hm
  · rw [hpublished.tbp]
    exact hheld
  · have hevu : (entryComplete s).evu.producer = s.evu.producer ∧ (entryComplete s).evu.consumer = s.evu.consumer ∧
        (entryComplete s).evu.asserted = s.evu.asserted ∧ (entryComplete s).evu.coalesceAt = s.evu.coalesceAt := by
      rw [hleft]
      exact ⟨rfl, rfl, rfl, rfl⟩
    obtain ⟨hproducer, hconsumer, hasserted, htimer⟩ := hevu
    refine backgroundKept.trans ⟨fun a => ?_, hmarks, hproducer, hconsumer, hasserted, htimer⟩ (hst ▸ publish_backgroundKept s w)
    rw [hmem]
  · rw [hpublished.tbp, hpublished.plu]
    exact publish_frame s w (hst.trans hleft)

end Sys2Proof.Machine
end

section
/-! PROOFS. Event records: the write of a record and its publication. -/

set_option Elab.async false

namespace Sys2Proof.Machine

variable {s t u : State} {w : Work}

/-! ### The write of a record -/

/-- While a record is being placed, its drain report is asked for or not yet: the entries keep their bytes and what waits stays. -/
theorem askRecordDrain_left {sev : Severity} (h : s.evu.phase = .placing sev) :
    ∃ p, (p = .placing sev ∨ p = .draining sev ∨ p = .drained sev) ∧
      askRecordDrain s = { s with swq := (askRecordDrain s).swq, evu := { s.evu with phase := p } } ∧
      EntriesGrow (fun _ => False) s.swq.entries (askRecordDrain s).swq.entries ∧
      (askRecordDrain s).swq.waits = s.swq.waits := by
  unfold askRecordDrain
  rw [h]
  dsimp only
  split
  · exact ⟨.placing sev, .inl rfl, by rw [← h], .refl _, rfl⟩
  · unfold askDrainEvu
    split
    · exact ⟨.drained sev, .inr (.inr rfl), rfl, .refl _, rfl⟩
    · exact ⟨.draining sev, .inr (.inl rfl), rfl, entriesGrow_map _ fun _ => ⟨rfl, rfl, rfl, rfl⟩, rfl⟩

/-- The EVU is published as a command without an event leaves it, while a record is being written. -/
theorem publish_evu_writing (o : State) (hevents : w.events = []) (hphase : w.st.evu.phase ≠ .idle) : (publish o w).evu = w.st.evu := by
  have hu : Asked w.st (stateWritten o w) := asked_stateWritten o w
  have hrest : evuRest (stateWritten o w) = stateWritten o w := by
    unfold evuRest
    rw [hu.evu, decide_eq_false hphase]
    simp
  rw [publish_evu, publishState_evu, hevents, List.foldl_nil, hrest, hu.evu]

/-- What a record placed at the producer index leaves. -/
theorem recordPlaced {v : Evu} {sev : Severity} {record : List Byte} (hrecord : record.length = 32)
    (hproducer : v.producer = s.evu.producer) (hconsumer : v.consumer = s.evu.consumer) (hasserted : v.asserted = s.evu.asserted)
    (htimer : v.coalesceAt = s.evu.coalesceAt) (harmed : s.armed = true)
    (ht : askRecordDrain (publish s (placeRecord (Work.start s) v sev record)) = t) :
    (∃ p, (p = .placing sev ∨ p = .draining sev ∨ p = .drained sev) ∧ t.evu = { v with phase := p }) ∧
      (∀ l, s.plu.layout = some l → s.linesWhole → writeGiven s t .evu (.eventRecord v.producer record)
        (l.ring / 64 + 1 + v.producer / 2) (maskAt (32 * (v.producer % 2)) record)) ∧
      backgroundKept s t ∧ t = { s with tmc := t.tmc, swq := t.swq, evu := t.evu } := by
  generalize hw : placeRecord (Work.start s) v sev record = w at ht
  have hst : w.st = s.setEvu { v with phase := .placing sev } := by rw [← hw]; rfl
  have hevents : w.events = [] := by rw [← hw]; rfl
  have hevu : (publish s w).evu = { v with phase := .placing sev } := by
    rw [publish_evu_writing s hevents (by rw [hst]; exact fun e => nomatch e), hst]
    rfl
  obtain ⟨p, hp, hleft, hgrow, hwaits⟩ := askRecordDrain_left (s := publish s w) (sev := sev) (by rw [hevu])
  rw [ht] at hleft hgrow hwaits
  have htevu : t.evu = { v with phase := p } := by rw [hleft, hevu]
  have htmc := publish_tmcKept s w
  rw [hst] at htmc
  refine ⟨⟨p, hp, htevu⟩, fun l hl hwhole => ?_, ⟨fun a => ?_, ?_, ?_, ?_, ?_, ?_⟩, ?_⟩
  · have hrender : render w.st (.eventRecord v.producer record) =
        some (l.ring / 64 + 1 + v.producer / 2, maskAt (32 * (v.producer % 2)) record) := by
      rw [hst]
      show (if s.armed then s.plu.layout else none).map _ = _
      rw [harmed, hl]
      rfl
    obtain ⟨hqueue, r, -, hevuWaits, -⟩ := publish_shown_grows (touched := fun n => n = l.ring / 64) (s := s) (w := w) (by rw [hst]; rfl) hevents
      (fun l' hl' _ => by
        rw [hst] at hl'
        rw [Option.some.inj (hl'.symm.trans hl)])
    have henqueued : w.enqueued = statusWrite w.st .evu (.eventRecord v.producer record) := by rw [← hw]; rfl
    rw [henqueued] at hqueue hevuWaits
    have hlength : (maskAt (32 * (v.producer % 2)) record).length = 64 := maskAt_length (by omega)
    have hwholeSt : w.st.linesWhole := by rw [hst]; exact hwhole
    rcases statusWrite_given w.st .evu (item := .eventRecord v.producer record) (fun _ e => nomatch e) hrender hlength hwholeSt with hwait | hholds
    · refine .inl ?_
      rw [hwaits, hevuWaits]
      exact List.mem_append_left _ hwait
    · refine .inr ?_
      have hentry := ((hholds.grow hqueue (by omega)).grow hgrow not_false).entry
      rw [hst] at hentry
      exact hentry
  · rw [hleft]
    show (publish s w).tmc.mem.read a = _
    rw [htmc.mem]
    rfl
  · rw [hleft]
    exact htmc.marks
  · rw [htevu]; exact hproducer
  · rw [htevu]; exact hconsumer
  · rw [htevu]; exact hasserted
  · rw [htevu]; exact htimer
  · have hframe := publish_frame s w hst
    rw [hleft, hframe]
    rfl

theorem recordWritten_fields (e : Evu) (capacity : Nat) (x : Tunables) (sev : Severity) (now : Nat) :
    (e.recordWritten capacity x sev now).phase = e.phase ∧ (e.recordWritten capacity x sev now).producer = e.producer ∧
      (e.recordWritten capacity x sev now).consumer = e.consumer ∧ (e.recordWritten capacity x sev now).intake = e.intake := by
  unfold Evu.recordWritten
  split_ifs <;> exact ⟨rfl, rfl, rfl, rfl⟩

/-- The record of the ring event `e` goes to the ring with room, and is dropped with none. -/
theorem exec_recordWrite_event {e : Stamped} {rest : List Stamped} (hmay : s.mayRecord = true) (hlost : s.evu.ringLost = none)
    (hintake : s.evu.intake = e :: rest) : exec .recordWrite s = .next (if s.evu.full s.capacity then
      publish s ((Work.start s).map fun s => s.setEvu ({ s.evu with intake := rest } : Evu).drop) else
      askRecordDrain (publish s (placeRecord (Work.start s) { s.evu with intake := rest } e.event.severity
        (recordBytes e.seq e.time e.event)))) := by
  have hfull : ({ s.evu with intake := rest } : Evu).full s.capacity = s.evu.full s.capacity := rfl
  show execRecordWrite s = _
  unfold execRecordWrite
  rw [hmay, hlost, hintake]
  dsimp only
  rw [hfull]
  cases s.evu.full s.capacity <;> rfl

theorem exec_recordWrite_lost {r : RingLost} (hmay : s.mayRecord = true) (hlost : s.evu.ringLost = some r) :
    exec .recordWrite s = .next (if s.evu.full s.capacity then s else askRecordDrain (publish s (writeRingLost (Work.start s) r))) := by
  show execRecordWrite s = _
  unfold execRecordWrite
  rw [hmay, hlost]
  dsimp only
  cases s.evu.full s.capacity <;> rfl

/-- The drained record is published: attention follows the count, the severity and the timer. -/
theorem eventPublish_left {sev : Severity} (hphase : s.evu.phase = .drained sev) :
    ∃ t, exec .eventPublish s = .next t ∧ t.evu.phase = .idle ∧
    t.evu.producer = (s.evu.producer + 1) % s.capacity ∧ attentionFollows s t sev ∧
    t.evu.consumer = s.evu.consumer ∧ t.evu.intake = s.evu.intake ∧ memoryKept s t ∧
      t = { s with tmc := t.tmc, swq := t.swq, evu := t.evu } := by
  have hexec : exec .eventPublish s = .next (publish s ((Work.start s).map fun s => publishRecord s sev)) := by
    show execEventPublish s = _
    unfold execEventPublish
    rw [hphase]
    rfl
  refine ⟨_, hexec, ?_⟩
  generalize hw : (Work.start s).map (fun s => publishRecord s sev) = w
  generalize he : ({ s.evu with producer := (s.evu.producer + 1) % s.capacity, phase := .idle } : Evu) = e
  have hst : w.st = s.setEvu (e.recordWritten s.capacity s.plu.inUse sev s.now) := by rw [← hw, ← he]; rfl
  have hevu := (publish_published s w).evu
  have hintake : (publish s w).evu.intake = w.st.evu.intake := publish_no_event s (by rw [← hw]; rfl)
  rw [hst, State.setEvu_evu] at hevu hintake
  obtain ⟨hfphase, hfproducer, hfconsumer, hfintake⟩ := recordWritten_fields e s.capacity s.plu.inUse sev s.now
  refine ⟨hevu.phase.trans (hfphase.trans (by rw [← he])), hevu.producer.trans (hfproducer.trans (by rw [← he])), ?_,
    hevu.consumer.trans (hfconsumer.trans (by rw [← he])), hintake.trans (hfintake.trans (by rw [← he])), publish_memory s (by rw [hst]; rfl),
    (publish_frame s w hst).trans rfl⟩
  unfold attentionFollows
  rw [hevu.producer, hevu.asserted, hevu.coalesceAt, hfproducer]
  have hasserted : e.asserted = s.evu.asserted := by rw [← he]
  have htimer : e.coalesceAt = s.evu.coalesceAt := by rw [← he]
  have hcount : e.unconsumed s.capacity = (e.producer + s.capacity - s.evu.consumer) % s.capacity := by
    unfold Evu.unconsumed
    rw [← he]
  unfold Evu.recordWritten
  rw [hcount, hasserted, htimer]
  dsimp only
  cases hon : s.evu.asserted with
  | true => exact ⟨fun _ => ⟨hasserted.trans hon, htimer⟩, fun h => (by cases h), fun h => (by cases h)⟩
  | false =>
    rw [if_neg Bool.false_ne_true]
    by_cases hcrit : s.plu.inUse.coCount ≤ (e.producer + s.capacity - s.evu.consumer) % s.capacity ∨ sev = .critical
    · rw [if_pos hcrit]
      exact ⟨fun h => (by cases h), fun _ _ => ⟨rfl, rfl⟩, fun _ hdue => absurd (hcrit.imp_right .inl) hdue⟩
    · rw [if_neg hcrit]
      have hdue : ∀ {P : Prop}, (s.plu.inUse.coCount ≤ (e.producer + s.capacity - s.evu.consumer) % s.capacity ∨
          sev = .critical ∨ P) → P := fun h => (or_assoc.2 h).resolve_left hcrit
      cases hat : s.evu.coalesceAt with
      | some at0 =>
        rw [Option.isSome_some, if_pos rfl]
        refine ⟨fun h => (by cases h), fun _ h => (by cases (hdue h).1), fun _ _ => ⟨hasserted.trans hon, ?_⟩⟩
        rw [if_neg (fun h => nomatch h), htimer, hat]
      | none =>
        rw [Option.isSome_none, if_neg Bool.false_ne_true, if_pos rfl]
        by_cases hzero : s.plu.inUse.coTime = 0
        · rw [if_pos hzero]
          exact ⟨fun h => (by cases h), fun _ _ => ⟨rfl, rfl⟩, fun _ h => absurd (.inr (.inr ⟨rfl, hzero⟩)) h⟩
        · rw [if_neg hzero]
          exact ⟨fun h => (by cases h), fun _ h => absurd (hdue h).2 hzero, fun _ _ => ⟨rfl, rfl⟩⟩

/-- Settles O56: a record is placed, an event is dropped with the ring full, and the drained record is published. -/
theorem recordsAreWrittenAndPublished : Obligations.RecordsAreWrittenAndPublished := by
  have hmayRecord : ∀ {s : State}, s.mayRecord = true → s.armed = true ∧ s.evu.phase = .idle := fun {s} h => by
    unfold State.mayRecord at h
    simp only [Bool.and_eq_true, decide_eq_true_eq] at h
    exact ⟨h.1.1, h.2⟩
  refine ⟨fun s e rest hmay hlost hintake => ?_, fun s r hmay hlost => ⟨fun hfull => ?_, fun hroom => ?_⟩,
    fun s sev hphase => eventPublish_left hphase⟩
  · obtain ⟨harmed, hphase⟩ := hmayRecord hmay
    refine ⟨_, exec_recordWrite_event hmay hlost hintake, ?_⟩
    cases hfull : s.evu.full s.capacity with
    | true =>
      rw [if_pos rfl]
      generalize hw : (Work.start s).map (fun s => s.setEvu ({ s.evu with intake := rest } : Evu).drop) = w
      have hst : w.st = s.setEvu ({ s.evu with intake := rest } : Evu).drop := by rw [← hw]; rfl
      have hevents : w.events = [] := by rw [← hw]; rfl
      have hevu := (publish_published s w).evu
      have hintake := publish_no_event s hevents
      have hlostTotal : (publish s w).evu.lostTotal = w.st.evu.lostTotal := by
        rw [publish_evu, publishState_evu, (evuRest_intake_lostTotal _).2, hevents, List.foldl_nil, (asked_stateWritten s w).evu]
      have hkept := publish_backgroundKept s w
      rw [hst] at hevu hintake hlostTotal hkept
      exact ⟨hintake, hevu.producer, fun h => (by cases h), fun _ => ⟨hevu.phase.trans hphase, hlostTotal⟩, hkept,
        (publish_frame s w hst).trans rfl⟩
    | false =>
      rw [if_neg Bool.false_ne_true]
      generalize hv : ({ s.evu with intake := rest } : Evu) = v
      generalize hrec : recordBytes e.seq e.time e.event = record
      generalize ht : askRecordDrain _ = t
      obtain ⟨⟨p, hp, hevu⟩, hgiven, hkept, hframe⟩ := recordPlaced (s := s) (v := v) (by rw [← hrec]; exact recordBytes_length _ _ _)
        (by rw [← hv]) (by rw [← hv]) (by rw [← hv]) (by rw [← hv]) harmed ht
      have hproducer : v.producer = s.evu.producer := by rw [← hv]
      rw [hproducer] at hgiven
      rw [hevu]
      refine ⟨by rw [← hv], hproducer, fun _ => ⟨by rw [← hv], hp, fun l r hl hwhole hr => ?_⟩, fun h => (by cases h), hkept, ?_⟩
      · rw [hr]
        exact hgiven l hl hwhole
      · rw [← hevu]
        exact hframe
  · rw [exec_recordWrite_lost hmay hlost, if_pos hfull]
  · rw [exec_recordWrite_lost hmay hlost, hroom, if_neg Bool.false_ne_true]
    refine ⟨_, rfl, ?_⟩
    unfold writeRingLost
    dsimp only [Work.start_st]
    generalize hv : ({ s.evu with ringLost := none, pending := 0 } : Evu) = v
    generalize hrec : recordBytes r.seq r.time (ringLostEvent r.beforeArm s.evu.pending s.evu.lostTotal) = record
    generalize ht : askRecordDrain _ = t
    obtain ⟨⟨p, hp, hevu⟩, hgiven, hkept, hframe⟩ := recordPlaced (s := s) (v := v) (by rw [← hrec]; exact recordBytes_length _ _ _)
      (by rw [← hv]) (by rw [← hv]) (by rw [← hv]) (by rw [← hv]) (hmayRecord hmay).1 ht
    have hproducer : v.producer = s.evu.producer := by rw [← hv]
    rw [hproducer] at hgiven
    rw [hevu]
    refine ⟨by rw [← hv], by rw [← hv], by rw [← hv], hproducer, by rw [← hv], hp, fun l r' hl hwhole hr => ?_, hkept, ?_⟩
    · rw [hr]
      exact hgiven l hl hwhole
    · rw [← hevu]
      exact hframe

end Sys2Proof.Machine
end

section
/-! PROOFS. The place that a completed entry frees: the next unit's write takes it. -/

set_option Elab.async false

namespace Sys2Proof.Machine

variable {s t u : State} {w : Work}

/-! ### What the write's unit does next -/

/-- The events at the front go to the EVU, and what waits begins with the next write. -/
theorem releaseEvents_left (v : UnitId) : ∀ (l : List WaitItem) (s : State),
    (releaseEvents v l s).swq = s.swq.setWaits v (l.dropWhile (fun x => !x.isWrite)) ∧
      releaseEvents v l s = { s with swq := (releaseEvents v l s).swq, evu := (releaseEvents v l s).evu } ∧
      ((∀ e r, l ≠ .event e :: r) → (releaseEvents v l s).evu = s.evu)
  | [], s => ⟨rfl, rfl, fun _ => rfl⟩
  | .write item :: rest, s => ⟨rfl, rfl, fun _ => rfl⟩
  | .event e :: rest, s => by
    obtain ⟨hswq, hleft, -⟩ := releaseEvents_left v rest (handEvent s e)
    have hhand : handEvent s e = { s with evu := (handEvent s e).evu } := by
      unfold handEvent
      split
      · rfl
      · dsimp only
        split <;> rfl
    have hnext : releaseEvents v (.event e :: rest) s = releaseEvents v rest (handEvent s e) := rfl
    rw [hnext, hswq, handEvent_swq]
    refine ⟨rfl, ?_, fun h => absurd rfl (h e rest)⟩
    rw [← handEvent_swq s e, ← hswq]
    generalize releaseEvents v rest (handEvent s e) = x at hleft ⊢
    rw [hhand] at hleft
    exact hleft

/-- The list that a unit holds once its write has been taken. -/
def afterWaits (lay : Option Layout) (item : StatusItem) (rest : List WaitItem) : List WaitItem :=
  match item with
  | .zeroFill k => if k + 1 < (lay.map Layout.fillLines).getD 0 then .write (.zeroFill (k + 1)) :: rest
    else rest.dropWhile (fun x => !x.isWrite)
  | _ => rest.dropWhile (fun x => !x.isWrite)

/-- What a taken write's unit does next: the queue's entries keep their bytes, and the EVU and the zero-fill alone follow. -/
structure Followed (s : State) (v : UnitId) (waits : List WaitItem) (quiet : Prop) (t : State) : Prop where
  frame : t = { s with swq := t.swq, evu := t.evu, plu := { s.plu with fill := t.plu.fill } }
  entries : EntriesGrow (fun _ => False) s.swq.entries t.swq.entries
  served : t.swq.lastServed = s.swq.lastServed
  waits : t.swq.waits v = waits
  evu : backgroundKept s t
  quiet : quiet → ∃ p, t.evu = { s.evu with phase := p } ∧ (p = .idle → s.evu.phase = .idle)

theorem followed_releaseEvents (v : UnitId) (rest : List WaitItem) (s : State) :
    Followed s v (rest.dropWhile (fun x => !x.isWrite)) (∀ e r, rest ≠ .event e :: r) (releaseEvents v rest s) := by
  obtain ⟨hswq, hleft, hevu⟩ := releaseEvents_left v rest s
  have hkept := (published_releaseEvents v rest s).evu
  refine ⟨?_, by rw [hswq]; exact .refl _, by rw [hswq]; rfl, by rw [hswq, waits_setWaits, if_pos rfl], ?_, fun h => ⟨s.evu.phase, hevu h, id⟩⟩
  · refine hleft.trans ?_
    have hfill : (releaseEvents v rest s).plu.fill = s.plu.fill := by rw [hleft]
    rw [hfill]
  · refine ⟨fun a => ?_, ?_, hkept.producer, hkept.consumer, hkept.asserted, hkept.coalesceAt⟩
    · rw [hleft]
    · rw [hleft]

theorem Followed.drainEvu {v : UnitId} {l : List WaitItem} {quiet : Prop} (h : Followed s v l quiet t) (sev : Severity) :
    Followed s v l quiet (askDrainEvu t sev) := by
  have hleft : ∃ p, p ≠ .idle ∧ askDrainEvu t sev = { t with swq := (askDrainEvu t sev).swq, evu := { t.evu with phase := p } } ∧
      EntriesGrow (fun _ => False) t.swq.entries (askDrainEvu t sev).swq.entries ∧
      (askDrainEvu t sev).swq.lastServed = t.swq.lastServed ∧ (askDrainEvu t sev).swq.waits = t.swq.waits := by
    unfold askDrainEvu
    split
    · exact ⟨.drained sev, (fun e => nomatch e), rfl, .refl _, rfl, rfl⟩
    · exact ⟨.draining sev, (fun e => nomatch e), rfl, entriesGrow_map _ fun _ => ⟨rfl, rfl, rfl, rfl⟩, rfl, rfl⟩
  obtain ⟨p, hp, hleft, hgrow, hlast, hwait⟩ := hleft
  generalize askDrainEvu t sev = r at hleft hgrow hlast hwait ⊢
  have hevu : r.evu = { t.evu with phase := p } := by rw [hleft]
  refine ⟨?_, h.entries.trans hgrow, hlast.trans h.served, by rw [hwait]; exact h.waits, ?_, fun hq => ?_⟩
  · have hplu : r.plu.fill = t.plu.fill := by rw [hleft]
    rw [hplu, hevu, hleft]
    exact congrArg (fun x : State => { x with swq := r.swq, evu := { t.evu with phase := p } }) h.frame
  · refine h.evu.trans ⟨fun a => ?_, ?_, ?_, ?_, ?_, ?_⟩ <;> rw [hleft]
  · obtain ⟨p', hp', -⟩ := h.quiet hq
    exact ⟨p, by rw [hevu, hp'], fun e => absurd e hp⟩

theorem Followed.drainPlu {v : UnitId} {l : List WaitItem} {quiet : Prop} (h : Followed s v l quiet t) :
    Followed s v l quiet (askDrainPlu t) := by
  have hleft : askDrainPlu t = { t with swq := (askDrainPlu t).swq, plu := { t.plu with fill := (askDrainPlu t).plu.fill } } ∧
      EntriesGrow (fun _ => False) t.swq.entries (askDrainPlu t).swq.entries ∧
      (askDrainPlu t).swq.lastServed = t.swq.lastServed ∧ (askDrainPlu t).swq.waits = t.swq.waits := by
    unfold askDrainPlu
    split
    · exact ⟨rfl, .refl _, rfl, rfl⟩
    · exact ⟨rfl, entriesGrow_map _ fun _ => ⟨rfl, rfl, rfl, rfl⟩, rfl, rfl⟩
  obtain ⟨hleft, hgrow, hlast, hwait⟩ := hleft
  generalize askDrainPlu t = r at hleft hgrow hlast hwait ⊢
  have hevu : r.evu = t.evu := by rw [hleft]
  refine ⟨?_, h.entries.trans hgrow, hlast.trans h.served, by rw [hwait]; exact h.waits, ?_, fun hq => ?_⟩
  · rw [hevu]
    refine hleft.trans ?_
    exact congrArg (fun x : State => { x with swq := r.swq, plu := { x.plu with fill := r.plu.fill } }) h.frame
  · refine h.evu.trans ⟨fun a => ?_, ?_, ?_, ?_, ?_, ?_⟩ <;> rw [hleft]
  · rw [hevu]
    exact h.quiet hq

theorem followed_afterTaken (s : State) (item : StatusItem) (v : UnitId) (rest : List WaitItem) :
    Followed s v (afterWaits s.plu.layout item rest) (∀ e r, rest ≠ .event e :: r) (afterTaken s item v rest) := by
  have hrelease := followed_releaseEvents v rest s
  cases item with
  | zeroFill k =>
    unfold afterTaken afterWaits
    dsimp only
    split
    · exact ⟨rfl, .refl _, rfl, by rw [State.setSwq_swq, waits_setWaits, if_pos rfl], ⟨fun _ => rfl, rfl, rfl, rfl, rfl, rfl⟩,
        fun _ => ⟨s.evu.phase, rfl, id⟩⟩
    · exact hrelease.drainPlu
  | eventRecord slot record =>
    unfold afterTaken afterWaits
    dsimp only
    split
    · exact hrelease.drainEvu _
    · exact hrelease
  | _ => exact hrelease

/-! ### The granted place -/

theorem statusWrite_lastServed (s : State) (v : UnitId) {item : StatusItem} (hfill : ∀ k, item ≠ .zeroFill k) :
    (statusWrite s v item).swq.lastServed = s.swq.lastServed := by
  unfold statusWrite
  split
  · next k => exact absurd rfl (hfill k)
  · split
    · rfl
    · split
      · rfl
      · split
        · next q hq =>
          have hq' : q.lastServed = s.swq.lastServed := by
            unfold takeWrite at hq
            split at hq
            · cases hq; rfl
            · split at hq
              · cases hq; rfl
              · cases hq
          exact (swqIssue_grows (touched := fun _ => False) (s.setSwq q)).2.2.trans hq'
        · rfl

theorem publish_shown_lastServed (h : ShownKept s w.st) (hevents : w.events = []) :
    (publish s w).swq.lastServed = w.enqueued.swq.lastServed := by
  have hswq : ∀ x : State, (tmcRest (scrubRest x)).swq = x.swq := fun _ => rfl
  rw [publish_shown h hevents, hswq]
  split
  · rw [statusWrite_lastServed _ _ (item := .ringHeader) (fun k e => nomatch e), evuRest_swq]
  · rw [evuRest_swq]

/-- With a free place a granted write is taken. -/
theorem takeWrite_granted (q : Swq) (line : Nat) (bytes : List (Option Byte)) (hroom : q.entries.length < 64) :
    ∃ r, takeWrite true q line bytes = some r := by
  unfold takeWrite
  split
  · exact ⟨_, rfl⟩
  · rw [if_pos (by rw [Bool.true_or, Bool.and_true]; exact decide_eq_true hroom)]
    exact ⟨_, rfl⟩

/-- The granted write is taken, and its unit follows. -/
theorem placeGrant_eq {v : UnitId} {item : StatusItem} {rest : List WaitItem} {line : Nat} {bytes : List (Option Byte)} {q : Swq}
    (hunit : (unitsAfter s.swq.lastServed).find? s.swq.unitWaits = some v) (hwaits : s.swq.waits v = .write item :: rest)
    (hrender : render s item = some (line, bytes)) (hq : takeWrite true s.swq line bytes = some q) :
    placeGrant s = swqIssue (afterTaken (s.setSwq { q with lastServed := v }) item v rest) := by
  unfold placeGrant
  rw [hunit]
  dsimp only
  rw [hwaits]
  dsimp only
  rw [hrender]
  dsimp only
  rw [hq]

/-- Settles O26: the granted write is taken into the queue, its unit follows, and publication writes the ring header at most. -/
theorem freedPlaceGoesRound : Obligations.FreedPlaceGoesRound := by
  intro s v item rest line bytes hroom hwhole hunit hwaits hrender
  have hoccasion : (decide (s.swq.entries.length < swqPlaces) && allUnits.any s.swq.unitWaits) = true := by
    have hall : v ∈ allUnits := by cases v <;> decide
    rw [Bool.and_eq_true, decide_eq_true_eq]
    exact ⟨hroom, List.any_eq_true.2 ⟨v, hall, List.find?_some hunit⟩⟩
  obtain ⟨q, hq⟩ := takeWrite_granted s.swq line bytes hroom
  show ∃ t, execSwqPlaceGrant s = .next t ∧ _
  refine answered hoccasion ?_
  generalize hw : (Work.start s).map placeGrant = w
  obtain ⟨htake, htaken, hhold⟩ := takeWrite_grows hq
  have hfollow := followed_afterTaken (s.setSwq { q with lastServed := v }) item v rest
  have hissue := swqIssue_grows (touched := fun _ => False) (afterTaken (s.setSwq { q with lastServed := v }) item v rest)
  have hasked := asked_swqIssue (afterTaken (s.setSwq { q with lastServed := v }) item v rest)
  have hst : w.st = swqIssue (afterTaken (s.setSwq { q with lastServed := v }) item v rest) := by
    rw [← hw]
    exact placeGrant_eq hunit hwaits hrender hq
  rw [← hst] at hissue hasked
  generalize afterTaken (s.setSwq { q with lastServed := v }) item v rest = a at hfollow hissue hasked
  have hevents : w.events = [] := by rw [← hw]; rfl
  have henqueued : w.enqueued = w.st := by rw [← hw]; rfl
  clear hw hst
  have hleft : w.st = { s with tmc := w.st.tmc, swq := w.st.swq, evu := w.st.evu, plu := { s.plu with fill := w.st.plu.fill } } := by
    have hevu := hasked.evu
    have hplu : w.st.plu = a.plu := by rw [hasked.rest]
    rw [hevu, hplu]
    refine hasked.rest.trans ?_
    exact congrArg (fun x : State => { x with tmc := w.st.tmc, swq := w.st.swq }) hfollow.frame
  have hshown : ShownKept s w.st := by
    unfold ShownKept
    have htbp : w.st.tbp = s.tbp := by rw [hleft]
    rw [htbp]
    exact hleft
  have hbackground : backgroundKept s w.st := by
    refine backgroundKept.trans (t := a) hfollow.evu ⟨fun x => by rw [hasked.tmc.mem], hasked.tmc.marks, ?_, ?_, ?_, ?_⟩ <;>
      rw [hasked.evu]
  have hwait : w.st.swq.waits v = afterWaits s.plu.layout item rest := by
    have hsame : w.st.swq.waits v = a.swq.waits v := congrArg (fun x => Vector.get x v.index) hissue.2.1
    exact hsame.trans hfollow.waits
  have hgrow : EntriesGrow (fun _ => False) q.entries w.st.swq.entries := hfollow.entries.trans hissue.1
  have harmed : w.st.armed = s.armed := by rw [hleft]; rfl
  have hlayout : w.st.plu.layout = s.plu.layout := by rw [hleft]
  obtain ⟨hqueue, r, hr, hevuWaits, hotherWaits⟩ := publish_shown_grows
    (touched := fun n => ∃ l, s.plu.layout = some l ∧ s.armed = true ∧ n = l.ring / 64) hshown hevents
    fun l hl ha => ⟨l, hlayout ▸ hl, harmed ▸ ha, rfl⟩
  rw [henqueued] at hqueue hevuWaits hotherWaits
  refine ⟨?_, ?_, fun hheader => ?_, ?_, hbackground.trans (publish_backgroundKept s w), ?_⟩
  · rw [publish_shown_lastServed hshown hevents, henqueued, hissue.2.2]
    exact hfollow.served
  · obtain ⟨e, he, hline⟩ := htaken
    obtain ⟨i, hi⟩ := List.getElem?_of_mem he
    obtain ⟨x, hx, -, hxline, -⟩ := hgrow i e hi
    obtain ⟨y, hy, -, hyline, -⟩ := hqueue i x hx
    exact ⟨y, List.mem_of_getElem? hy, hyline.trans (hxline.trans hline)⟩
  · have hitem : item.whole := by
      rw [StatusItem.whole_iff]
      rintro n record rfl
      exact hwhole.2 v n record (by rw [hwaits]; exact List.mem_cons_self)
    have hlength : bytes.length = 64 := render_length hitem hrender
    have hholds := (hhold fun e he => (hwhole.1 e he).trans hlength.symm).grow hgrow not_false
    rcases hheader with hheader | ⟨htold, hquiet⟩
    · refine (hholds.grow hqueue ?_).entry
      rintro ⟨l, hl, ha, hline⟩
      refine hheader (maskAt 8 (s.evu.headerBytes (ringCapacity l.capCode))) ?_
      show (if s.armed then s.plu.layout else none).map _ = _
      rw [ha, hl, hline]
      rfl
    · obtain ⟨p, hevu, hp⟩ := hfollow.quiet hquiet
      rw [← hasked.evu] at hevu
      have hstTold : w.st.lossTold := by
        rw [lossTold_iff] at htold ⊢
        have hpins : w.st.pins = s.pins := by rw [hleft]
        rw [harmed, hpins, hevu]
        rintro ⟨ha, hwarm, hidle, hlost, hpending⟩
        exact htold ⟨ha, hwarm, hp hidle, hlost, hpending⟩
      have hstHeader : render w.st .ringHeader = render s .ringHeader := by
        rw [hleft, hevu]
        rfl
      rw [publish_shown_swq hshown hevents hstTold hstHeader, henqueued]
      exact hholds.entry
  · have hafter : ∃ l, (∀ x ∈ l, v = .evu ∧ x = .write .ringHeader) ∧ (publish s w).swq.waits v = afterWaits s.plu.layout item rest ++ l := by
      by_cases hv : v = .evu
      · subst hv
        exact ⟨r, fun x hx => ⟨rfl, hr x hx⟩, by rw [hevuWaits, hwait]⟩
      · exact ⟨[], fun x hx => (by cases hx), by rw [hotherWaits v hv, hwait, List.append_nil]⟩
    obtain ⟨l, hl, hafter⟩ := hafter
    refine ⟨l, hl, fun hfill => ?_, fun k lay hitem hlay => ?_⟩
    · rw [hafter]
      unfold afterWaits
      split
      · next k => exact absurd rfl (hfill k)
      · rfl
    · rw [hafter, hitem, hlay]
      rfl
  · rw [publish_plu]
    exact (publish_frame s w hleft).trans rfl

end Sys2Proof.Machine
end

section
/-! PROOFS. The end of a program and the grant round that follows a raised entitlement. -/

set_option Elab.async false

namespace Sys2Proof.Machine

variable {s t u : State} {w v : Work} {b c : Slot} {e : LicenceEntry} {p q : PortRef}

/-! ### Units -/

theorem slotUnits_congr (h : ∀ i, (t.port ⟨b, i⟩).units = (s.port ⟨b, i⟩).units) : t.slotUnits b = s.slotUnits b := by
  unfold State.slotUnits sumPorts
  rw [foldl_add_eq, foldl_add_eq]
  congr 1
  refine List.ext_getElem (by simp) fun i hi _ => ?_
  have hi48 : i < 48 := by simpa using hi
  rw [List.getElem_map, List.getElem_map]
  exact h ⟨i, hi48⟩

/-- A port that leaves keeps its units. -/
theorem units_leavePort (w : Work) (p q : PortRef) (c : LeaveCause) : ((leavePort w p c).st.port q).units = (w.st.port q).units := by
  unfold leavePort
  split
  · next hs =>
    rw [toGoingDown_port]
    split
    · next hq =>
      subst hq
      unfold Port.units
      rw [hs]
      rfl
    · rfl
  · next hs =>
    rw [Work.setPort_st, State.port_setPort]
    split
    · next hq =>
      subst hq
      rfl
    · rfl
  · rfl

theorem units_selectShed (a : Nat) : ∀ (l : List (PortRef × Port)) (m n : Nat) (w : Work) (q : PortRef),
    ((selectShed a l m n w).1.st.port q).units = (w.st.port q).units
  | [], _, _, _, _ => rfl
  | (p, x) :: rest, m, n, w, q => by
    unfold selectShed
    split
    · rfl
    · rw [units_selectShed a rest]
      exact units_leavePort w p q _

/-- A budget computation sends ports off with their units. -/
theorem units_budgetStep (w : Work) (q : PortRef) : ((budgetStep none w).st.port q).units = (w.st.port q).units := by
  have hsection : ∀ v : Work, ((if v.st.pbu.available < v.st.projected then shedSelection none v else setCritical v false).st.port q).units =
      (v.st.port q).units := fun v => by
    split
    · rw [shedSelection_st]
      exact units_selectShed _ _ _ _ _ _
    · rw [setCritical_st]
      rfl
  unfold budgetStep
  split
  · rfl
  · unfold computeBudget
    dsimp only
    rw [hsection]
    split <;> rfl

/-! ### What a grant leaves -/

/-- The licence queues hold ports in WAIT_LICENSE, each once. -/
def State.licenceWaits (s : State) : Prop :=
  ∀ b, (∀ e ∈ s.queue b, (s.port ⟨b, e.port⟩).state = .waitLicense) ∧ ((s.queue b).map (·.port)).Nodup

/-- What the grants of a round leave: the queues hold waiting ports, no restore has become due, and no port has joined them. -/
structure RoundKeeps (w v : Work) : Prop where
  waits : v.st.licenceWaits
  due : v.restoreDue = w.restoreDue
  left : ∀ q, (w.st.port q).state ≠ .waitLicense → (v.st.port q).state ≠ .waitLicense

theorem RoundKeeps.refl (h : w.st.licenceWaits) : RoundKeeps w w := ⟨h, rfl, fun _ h => h⟩

theorem RoundKeeps.trans {x : Work} (h : RoundKeeps w v) (g : RoundKeeps v x) : RoundKeeps w x :=
  ⟨g.waits, g.due.trans h.due, fun q hq => g.left q (h.left q hq)⟩

/-- The completion of a waiting port whose units fit takes it out of WAIT_LICENSE and leaves the others. -/
theorem completeMove_fits (w : Work) (p : PortRef) (power : Bool) (hstate : (w.st.port p).state = .waitLicense) :
    w.sameDue (completeMove w p true power) ∧
      ((w.st.port p).request ≠ none → ((completeMove w p true power).st.port p).state ≠ .waitLicense) := by
  unfold completeMove
  split
  · next hnone => exact ⟨⟨rfl, rfl⟩, fun h => absurd hnone h⟩
  · next d hd =>
    split
    · refine ⟨⟨rfl, rfl⟩, fun _ => ?_⟩
      have hport : (refuseXd w p).st.port p = { w.st.port p with state := .offline, cause := .noXdLicense } :=
        (State.port_setPort _ _ _ _).trans (if_pos rfl)
      rw [hport]
      nofun
    · unfold decideAdmission
      rw [if_pos rfl]
      split
      · refine ⟨chargePort_due w p d (by rw [hstate]; rfl), fun _ => ?_⟩
        rw [chargePort_port]
        split <;> nofun
      · refine ⟨⟨rfl, rfl⟩, fun _ => ?_⟩
        rw [joinPower_port]
        nofun

theorem grantHead_port_other (w : Work) (b : Slot) (e : LicenceEntry) (hq : q ≠ ⟨b, e.port⟩) : (grantHead w b e).st.port q = w.st.port q := by
  unfold grantHead
  exact (apart_completeMove hq.symm _ _ _).port

/-- A grant takes its head's port out of WAIT_LICENSE, and leaves the other waiting ports. -/
theorem grantHead_keeps (h : w.st.licenceWaits) (he : (w.st.queue b).head? = some e) : RoundKeeps w (grantHead w b e) ∧
    ((w.st.port ⟨b, e.port⟩).request ≠ none → ((grantHead w b e).st.port ⟨b, e.port⟩).state ≠ .waitLicense) := by
  obtain ⟨rest, hrest⟩ : ∃ rest, w.st.queue b = e :: rest := by
    cases hq : w.st.queue b with
    | nil => rw [hq] at he; cases he
    | cons x rest => rw [hq] at he; cases he; exact ⟨rest, rfl⟩
  have hwait : (w.st.port ⟨b, e.port⟩).state = .waitLicense := (h b).1 e (by rw [hrest]; exact List.mem_cons_self)
  have hqueue : ∀ c, (grantHead w b e).st.queue c = if c = b then rest else w.st.queue c := fun c => by
    rw [queue_grantHead, hrest]
    rfl
  have hfits := completeMove_fits (w.map fun s => s.setQueue b (s.queue b).tail) ⟨b, e.port⟩
  have hgrant : ∃ power, grantHead w b e = completeMove (w.map fun s => s.setQueue b (s.queue b).tail) ⟨b, e.port⟩ true power := ⟨_, rfl⟩
  obtain ⟨power, hgrant⟩ := hgrant
  obtain ⟨hdue, hleaves⟩ := hfits power hwait
  rw [← hgrant] at hdue hleaves
  refine ⟨⟨fun c => ?_, hdue.2, fun q hq => ?_⟩, hleaves⟩
  · rw [hqueue]
    obtain ⟨hstates, hnodup⟩ := h c
    split
    · next hc =>
      subst hc
      rw [hrest] at hstates hnodup
      obtain ⟨hnotin, hnodup⟩ := List.nodup_cons.1 hnodup
      refine ⟨fun x hx => ?_, hnodup⟩
      have hne : (⟨c, x.port⟩ : PortRef) ≠ ⟨c, e.port⟩ := fun heq => by
        injection heq with _ hport
        exact hnotin (List.mem_map.2 ⟨x, hx, hport⟩)
      rw [grantHead_port_other w c e hne]
      exact hstates x (List.mem_cons_of_mem _ hx)
    · next hc =>
      refine ⟨fun x hx => ?_, hnodup⟩
      have hne : (⟨c, x.port⟩ : PortRef) ≠ ⟨b, e.port⟩ := fun heq => by
        injection heq with hslot _
        exact hc hslot
      rw [grantHead_port_other w b e hne]
      exact hstates x hx
  · by_cases hqp : q = ⟨b, e.port⟩
    · subst hqp
      exact absurd hwait hq
    · rwa [grantHead_port_other w b e hqp]

theorem reserveStep_keeps (acc : Work × Bool) (h : acc.1.st.licenceWaits) (b : Slot) : RoundKeeps acc.1 (reserveStep acc b).1 := by
  unfold reserveStep
  split
  · next e he =>
    split
    · exact (grantHead_keeps h he).1
    · exact .refl h
  · exact .refl h

theorem reserveFold_keeps : ∀ (l : List Slot) (acc : Work × Bool), acc.1.st.licenceWaits → RoundKeeps acc.1 (l.foldl reserveStep acc).1
  | [], _, h => .refl h
  | b :: l, acc, h => (reserveStep_keeps acc h b).trans (reserveFold_keeps l _ (reserveStep_keeps acc h b).waits)

theorem roundFrom_keeps : ∀ (n : Nat) (w : Work), w.st.licenceWaits → RoundKeeps w (roundFrom n w)
  | 0, _, h => .refl h
  | n + 1, w, h => by
    have hpass : RoundKeeps w (reservePass w).1 := reserveFold_keeps _ (w, false) h
    unfold roundFrom
    dsimp only
    split
    · exact hpass.trans (roundFrom_keeps n _ hpass.waits)
    · split
      · exact .refl h
      · next counters b _ =>
        have h1 : RoundKeeps w (w.map fun s => s.setLu { s.lu with counters := counters }) := ⟨h, rfl, fun _ hq => hq⟩
        split
        · next e he =>
          have h2 := h1.trans (grantHead_keeps h1.waits he).1
          exact h2.trans (roundFrom_keeps n _ h2.waits)
        · exact h1

/-! ### The reserve pass -/

/-- A head that its slot's unused reserve holds. -/
structure HeadFits (s : State) (b : Slot) (e : LicenceEntry) : Prop where
  head : (s.queue b).head? = some e
  request : (s.port ⟨b, e.port⟩).request ≠ none
  fits : e.units ≤ s.unusedReserve (s.lu.entitlementInUse .portUnits) b

/-- A grant of another slot leaves a head and its room. -/
theorem HeadFits.grantHead (h : HeadFits w.st b e) (hc : c ≠ b) (x : LicenceEntry) : HeadFits (grantHead w c x).st b e := by
  have hport : ∀ i, (Machine.grantHead w c x).st.port ⟨b, i⟩ = w.st.port ⟨b, i⟩ := fun i =>
    grantHead_port_other w c x fun heq => hc (by injection heq with hslot _; exact hslot.symm)
  have hlu : (Machine.grantHead w c x).st.lu = (w.st.setQueue c (w.st.queue c).tail).lu := by
    unfold Machine.grantHead
    exact lu_completeMove _ _ _
  refine ⟨?_, by rw [hport]; exact h.request, ?_⟩
  · rw [queue_grantHead, if_neg hc.symm]
    exact h.head
  · have hunits : (Machine.grantHead w c x).st.slotUnits b = w.st.slotUnits b := slotUnits_congr fun i => by rw [hport]
    have hfits := h.fits
    unfold State.unusedReserve State.effReserve at hfits ⊢
    rw [hunits, hlu]
    exact hfits

theorem HeadFits.reserveStep {acc : Work × Bool} (h : HeadFits acc.1.st b e) (hc : c ≠ b) :
    HeadFits (Machine.reserveStep acc c).1.st b e := by
  unfold Machine.reserveStep
  split
  · next x _ =>
    split
    · exact h.grantHead hc x
    · exact h
  · exact h

theorem HeadFits.granted {acc : Work × Bool} (h : HeadFits acc.1.st b e) (hwaits : acc.1.st.licenceWaits) :
    ((Machine.reserveStep acc b).1.st.port ⟨b, e.port⟩).state ≠ .waitLicense := by
  unfold Machine.reserveStep
  rw [h.head]
  dsimp only
  rw [if_pos h.fits]
  exact (grantHead_keeps hwaits h.head).2 h.request

theorem reserveFold_grants (l : List Slot) : ∀ acc : Work × Bool, acc.1.st.licenceWaits → b ∈ l → HeadFits acc.1.st b e →
    ((l.foldl reserveStep acc).1.st.port ⟨b, e.port⟩).state ≠ .waitLicense := by
  induction l with
  | nil => exact fun _ _ hb => absurd hb List.not_mem_nil
  | cons c l ih =>
    intro acc hwaits hb h
    have hstep := reserveStep_keeps acc hwaits c
    rw [List.foldl_cons]
    by_cases hc : c = b
    · subst hc
      exact (reserveFold_keeps l _ hstep.waits).left _ (h.granted hwaits)
    · exact ih _ hstep.waits ((List.mem_cons.1 hb).resolve_left (Ne.symm hc)) (h.reserveStep hc)

/-- A round takes a head that its slot's unused reserve holds out of WAIT_LICENSE. -/
theorem roundFrom_reserve (n : Nat) (h : w.st.licenceWaits) (hfits : HeadFits w.st b e) :
    ((roundFrom (n + 1) w).st.port ⟨b, e.port⟩).state ≠ .waitLicense := by
  have hgrants : ((reservePass w).1.st.port ⟨b, e.port⟩).state ≠ .waitLicense := by
    unfold reservePass
    exact reserveFold_grants (indices 8) (w, false) h (mem_indices b) hfits
  have hpass : RoundKeeps w (reservePass w).1 := reserveFold_keeps _ (w, false) h
  rcases reservePass_spec w with ⟨hany, -⟩ | ⟨-, hnone⟩
  · unfold roundFrom
    dsimp only
    rw [if_pos hany]
    exact (roundFrom_keeps n _ hpass.waits).left _ hgrants
  · exact absurd hfits.fits (Nat.not_le.2 (hnone b e hfits.head))

/-! ### The weighted selection -/

theorem largestCounter_eq {counters : Vector Int 8} : ∀ {l : List Slot}, l.Pairwise (· < ·) → b ∈ l →
    (∀ c ∈ l, c ≠ b → counters.get c < counters.get b ∨ (counters.get c = counters.get b ∧ b < c)) → largestCounter counters l = some b
  | x :: l, hsorted, hb, hmost => by
    obtain ⟨hfirst, hsorted⟩ := List.pairwise_cons.1 hsorted
    unfold largestCounter
    by_cases hx : x = b
    · subst hx
      split
      · rfl
      · next y hy =>
        have hmem := largestCounter_mem hy
        have hle := hmost y (List.mem_cons_of_mem _ hmem) (ne_of_gt (hfirst y hmem))
        rw [if_neg]
        rcases hle with hlt | ⟨heq, -⟩ <;> omega
    · have hmem : b ∈ l := (List.mem_cons.1 hb).resolve_left (Ne.symm hx)
      rw [largestCounter_eq hsorted hmem fun c hc => hmost c (List.mem_cons_of_mem _ hc)]
      dsimp only
      rw [if_pos]
      rcases hmost x List.mem_cons_self hx with hlt | ⟨-, hlt⟩
      · exact hlt
      · exact absurd (hfirst b hmem) (lt_asymm hlt)

theorem raisedCounters {f : Slot → Int → Int} : ∀ (l : List Slot) (counters : Vector Int 8), l.Nodup → ∀ b,
    (l.foldl (fun c b => Vector.put c b (f b (c.get b))) counters).get b = if b ∈ l then f b (counters.get b) else counters.get b
  | [], _, _, _ => (if_neg List.not_mem_nil).symm
  | x :: l, counters, hnodup, b => by
    obtain ⟨hx, hnodup⟩ := List.nodup_cons.1 hnodup
    rw [List.foldl_cons, raisedCounters l _ hnodup, Vector.get_put]
    by_cases hb : b = x
    · subst hb
      rw [if_neg hx, if_pos rfl, if_pos List.mem_cons_self]
    · rw [if_neg hb]
      simp [hb]

/-- The candidate with the largest raised counter, the lowest slot of those, is selected. -/
theorem weightedSelection_eq (hb : s.candidate b = true) (hmost : ∀ c, c ≠ b → s.candidate c = true →
    clampCounter (s.lu.counters.get c + s.weight c) < clampCounter (s.lu.counters.get b + s.weight b) ∨
      (clampCounter (s.lu.counters.get c + s.weight c) = clampCounter (s.lu.counters.get b + s.weight b) ∧ b < c)) :
    ∃ counters, weightedSelection s = some (counters, b) := by
  have hsorted : ((indices 8).filter s.candidate).Pairwise (· < ·) := List.Pairwise.filter _ (by decide)
  have hmem : ∀ c, c ∈ (indices 8).filter s.candidate ↔ s.candidate c = true := fun c => by simp [mem_indices]
  have hraised := raisedCounters (f := fun c n => clampCounter (n + (s.weight c : Int))) _ s.lu.counters (hsorted.imp fun h => ne_of_lt h)
  have hlargest := largestCounter_eq (counters := ((indices 8).filter s.candidate).foldl
    (fun c b => Vector.put c b (clampCounter (c.get b + (s.weight b : Int)))) s.lu.counters) hsorted ((hmem b).2 hb) fun c hc hne => by
      rw [hraised, hraised, if_pos hc, if_pos ((hmem b).2 hb)]
      exact hmost c hne ((hmem c).1 hc)
  unfold weightedSelection
  dsimp only
  rw [hlargest]
  exact ⟨_, rfl⟩

/-- Where no reserve holds a head, a round takes the head of the selected candidate out of WAIT_LICENSE. -/
theorem roundFrom_weighted (n : Nat) (h : w.st.licenceWaits)
    (hnone : ∀ c x, (w.st.queue c).head? = some x → w.st.unusedReserve (w.st.lu.entitlementInUse .portUnits) c < x.units)
    (he : (w.st.queue b).head? = some e) (hrequest : (w.st.port ⟨b, e.port⟩).request ≠ none)
    (hselected : ∃ counters, weightedSelection w.st = some (counters, b)) :
    ((roundFrom (n + 1) w).st.port ⟨b, e.port⟩).state ≠ .waitLicense := by
  obtain ⟨counters, hselected⟩ := hselected
  have hpass : (reservePass w).2 = false := by
    have hall : ∀ l : List Slot, l.foldl reserveStep (w, false) = (w, false) := fun l => by
      induction l with
      | nil => rfl
      | cons c l ih =>
        have hstep : reserveStep (w, false) c = (w, false) := by
          unfold reserveStep
          dsimp only
          split
          · next x hx => exact if_neg (Nat.not_le.2 (hnone c x hx))
          · rfl
        rw [List.foldl_cons, hstep, ih]
    unfold reservePass
    rw [hall]
  have h1 : RoundKeeps w (w.map fun s => s.setLu { s.lu with counters := counters }) := ⟨h, rfl, fun _ hq => hq⟩
  have he1 : ((w.map fun s => s.setLu { s.lu with counters := counters }).st.queue b).head? = some e := he
  obtain ⟨hkeeps, hleaves⟩ := grantHead_keeps h1.waits he1
  unfold roundFrom
  dsimp only
  rw [hpass, if_neg Bool.false_ne_true, hselected]
  dsimp only
  rw [he1]
  exact (roundFrom_keeps n _ hkeeps.waits).left _ (hleaves hrequest)

/-! ### Settling with a grant round due -/

theorem budgetStep_lu (w : Work) : (budgetStep none w).st.lu = w.st.lu ∧ (budgetStep none w).st.plu = w.st.plu := by
  cases hhold : w.st.pbu.hold with
  | true =>
    unfold budgetStep
    rw [if_pos hhold]
    exact ⟨rfl, rfl⟩
  | false =>
    rw [(budgetStep_budgeted w hhold).rest]
    exact ⟨rfl, rfl⟩

/-- An event that makes a grant round due, and not the restore process, settles with the budget and the round. -/
theorem settle_round (hgrant : w.grantDue = true) (hrestore : w.restoreDue = false) (h : (budgetStep none w).st.licenceWaits) :
    (settle w).st = (roundFrom ((budgetStep none w).st.queued + 1) (budgetStep none w)).st := by
  obtain ⟨hg, hr⟩ := sameDue_budgetStep w none
  unfold settle
  generalize budgetStep none w = v at h hg hr ⊢
  have hround : grantIfDue v = { roundFrom (v.st.queued + 1) v with grantDue := false } := by
    unfold grantIfDue grantRound
    rw [if_pos (hg.trans hgrant)]
  have hdue := (roundFrom_keeps (v.st.queued + 1) v h).due
  rw [hround]
  generalize roundFrom (v.st.queued + 1) v = x at hdue ⊢
  unfold restoreIfDue
  rw [if_neg]
  dsimp only
  rw [hdue, hr, hrestore]
  exact Bool.false_ne_true

/-- The budget leaves the licence figures of a state: units, entitlement and reserves. -/
theorem budgetStep_licence (w : Work) (hs : ∀ q, (w.st.port q).units = (s.port q).units) (hreserves : w.st.lu.reserves = s.lu.reserves)
    (hentitled : w.st.lu.entitlementInUse .portUnits = s.lu.entitlementInUse .portUnits) :
    (∀ n b, (budgetStep none w).st.unusedReserve n b = s.unusedReserve n b) ∧
      ∀ b n, (budgetStep none w).st.licenceFits b n = s.licenceFits b n := by
  obtain ⟨hlu, -⟩ := budgetStep_lu w
  have hunits : ∀ b, (budgetStep none w).st.slotUnits b = s.slotUnits b := fun b =>
    slotUnits_congr fun i => (units_budgetStep w _).trans (hs _)
  have heff : ∀ n b, (budgetStep none w).st.effReserve n b = s.effReserve n b := fun n b => by
    unfold State.effReserve
    rw [hlu, hreserves]
  have hunused : ∀ n b, (budgetStep none w).st.unusedReserve n b = s.unusedReserve n b := fun n b => by
    unfold State.unusedReserve
    rw [heff, hunits]
  refine ⟨hunused, fun b n => ?_⟩
  unfold State.licenceFits State.commonFree State.commonUse State.commonPool
  dsimp only
  simp only [hunused, hunits, heff, hlu, hreserves, hentitled]

/-! ### The end of a program -/

/-- What a program's end makes of the LU, before the event settles. -/
structure ProgramEnded (s : State) (p : Program) (verified : Bool) (l : Lu) : Prop where
  program : l.program = none
  fifo : l.fifo = s.lu.fifo
  reserves : l.reserves = s.lu.reserves
  queues : l.queues = s.lu.queues
  counters : l.counters = s.lu.counters
  others : ∀ g, g ≠ p.feature → l.feature g = s.lu.feature g
  slots : l.slots = Vector.put s.lu.slots p.slot (if verified then (s.lu.slots.get p.slot).ended .applied p.units
    else (s.lu.slots.get p.slot).ended .nvFault (s.lu.feature p.feature).floor)
  applied : verified = true → (l.feature p.feature).floor = p.seq ∧ (l.feature p.feature).entitlement = p.units ∧
    (l.feature p.feature).reinstated = true
  failed : verified = false → (l.feature p.feature).floor = (s.lu.feature p.feature).floor ∧
    (l.feature p.feature).entitlement = (s.lu.feature p.feature).entitlement

theorem programDone_left (p : Program) (verified : Bool) (hw : w.st = s) : ∃ l, (programDone w p verified).st = s.setLu l ∧
    ProgramEnded s p verified l ∧ (programDone w p verified).restoreDue = w.restoreDue ∧
    (s.lu.entitlementInUse .portUnits < l.entitlementInUse .portUnits → (programDone w p verified).grantDue = true) := by
  subst hw
  have hrise : ∀ (before : Nat) (v : Work), (grantOnRise before v).st = v.st ∧ (grantOnRise before v).restoreDue = v.restoreDue ∧
      (before < v.st.lu.entitlementInUse .portUnits → (grantOnRise before v).grantDue = true) := fun before v => by
    unfold grantOnRise
    split
    · exact ⟨rfl, rfl, fun _ => rfl⟩
    · next h => exact ⟨rfl, rfl, fun h' => absurd h' h⟩
  obtain ⟨slot, f, units, seq, doneAt⟩ := p
  cases verified with
  | true =>
    obtain ⟨hst, hdue, hgrant⟩ := hrise (w.st.lu.entitlementInUse .portUnits) (tokenDone (entitle ((w.map fun s =>
      s.setLu { writeCell s.lu ⟨slot, f, units, seq, doneAt⟩ true with program := none }).map fun s => s.setLu (s.lu.setFeature f
        { (w.map fun s => s.setLu { writeCell s.lu ⟨slot, f, units, seq, doneAt⟩ true with program := none }).st.lu.feature f with
          floor := seq })) f units) slot .applied units)
    refine ⟨_, hst, ?_, hdue, hgrant⟩
    cases f with
    | portUnits => exact ⟨rfl, rfl, rfl, rfl, rfl, fun g hg => by cases g; exacts [absurd rfl hg, rfl], rfl, fun _ => ⟨rfl, rfl, rfl⟩, nofun⟩
    | xdPorts => exact ⟨rfl, rfl, rfl, rfl, rfl, fun g hg => by cases g; exacts [rfl, absurd rfl hg], rfl, fun _ => ⟨rfl, rfl, rfl⟩, nofun⟩
  | false =>
    obtain ⟨hst, hdue, hgrant⟩ := hrise (w.st.lu.entitlementInUse .portUnits) (tokenDone (w.map fun s =>
      s.setLu { writeCell s.lu ⟨slot, f, units, seq, doneAt⟩ false with program := none }) slot .nvFault
        ((w.map fun s => s.setLu { writeCell s.lu ⟨slot, f, units, seq, doneAt⟩ false with program := none }).st.lu.feature f).floor)
    refine ⟨_, hst, ?_, hdue, hgrant⟩
    cases f with
    | portUnits => exact ⟨rfl, rfl, rfl, rfl, rfl, fun g hg => by cases g; exacts [absurd rfl hg, rfl], rfl, nofun, fun _ => ⟨rfl, rfl⟩⟩
    | xdPorts => exact ⟨rfl, rfl, rfl, rfl, rfl, fun g hg => by cases g; exacts [rfl, absurd rfl hg], rfl, nofun, fun _ => ⟨rfl, rfl⟩⟩

/-- What the end of a program and what it leads to leave. -/
theorem programEnded_left {p : Program} {verified : Bool} {l : Lu} (hst : w.st = s.setLu l) (hl : ProgramEnded s p verified l) (o : State)
    {t : State} (ht : t = publish o (settle w)) : t.lu.program = none ∧ (∀ f, t.lu.feature f = l.feature f) ∧ t.lu.slots = l.slots ∧
    (∀ q, (t.port q).asks = (s.port q).asks) ∧ t.lu.fifo = s.lu.fifo ∧ t.lu.reserves = s.lu.reserves ∧
    admissionFrame { s with lu := t.lu } t := by
  subst ht
  have hz := settle_settled w
  rw [hst] at hz
  generalize settle w = z at hz
  refine ⟨hz.program.trans hl.program, fun f => ?_, hz.slots, hz.asks o, hz.fifo.trans hl.fifo, hz.reserves.trans hl.reserves,
    hz.admits.luFrame o⟩
  cases f
  · exact hz.portUnits
  · exact hz.xdPorts

theorem entitlementInUse_congr {a b : Lu} {f : Feature} (hprogram : a.program = b.program) (hfeature : a.feature f = b.feature f) :
    a.entitlementInUse f = b.entitlementInUse f := by
  unfold Lu.entitlementInUse
  rw [hprogram, hfeature]

theorem roundEnded_publish (o : State) (h : roundEnded w.st) : roundEnded (publish o w) := by
  unfold publish
  generalize (publishState o w).swq = a
  generalize (publishState o w).tmc = b
  generalize (publishState o w).evu = c
  exact h

/-- The grant round of a raised entitlement. -/
theorem raisedRound {p : Program} {verified : Bool} {l : Lu} (hst : w.st = s.setLu l) (hl : ProgramEnded s p verified l)
    (hrestore : w.restoreDue = false) (hgrant : w.grantDue = true) (hmatch : s.waitsMatch) (o : State) {t r : State}
    (ht : t = publish o (settle w)) (hentitled : r.lu.entitlementInUse .portUnits = l.entitlementInUse .portUnits)
    (hr : ∃ x y, r = s.setLu { s.lu with portUnits := x, xdPorts := y, program := none }) :
    (∀ b e, (s.queue b).head? = some e → (s.port ⟨b, e.port⟩).request ≠ none →
      e.units ≤ r.unusedReserve (r.lu.entitlementInUse .portUnits) b → (t.port ⟨b, e.port⟩).state ≠ .waitLicense) ∧
    (∀ b e, (∀ c x, (s.queue c).head? = some x → r.unusedReserve (r.lu.entitlementInUse .portUnits) c < x.units) →
      (s.queue b).head? = some e → (s.port ⟨b, e.port⟩).request ≠ none → 0 < r.weight b → r.licenceFits b e.units = true →
      (∀ c x, c ≠ b → (s.queue c).head? = some x → 0 < r.weight c → r.licenceFits c x.units = true →
        clampCounter (s.lu.counters.get c + r.weight c) < clampCounter (s.lu.counters.get b + r.weight b) ∨
        (clampCounter (s.lu.counters.get c + r.weight c) = clampCounter (s.lu.counters.get b + r.weight b) ∧ b < c)) →
      (t.port ⟨b, e.port⟩).state ≠ .waitLicense) ∧
    roundEnded t := by
  subst ht
  obtain ⟨x, y, hr⟩ := hr
  obtain ⟨hlu, hplu⟩ := budgetStep_lu w
  have hwlu : w.st.lu = l := by rw [hst]; rfl
  have hqueue : ∀ b, (budgetStep none w).st.queue b = s.queue b := fun b => by
    unfold State.queue
    rw [hlu, hwlu, hl.queues]
  have hport : ∀ q, w.st.port q = s.port q := fun q => by rw [hst]; rfl
  have hwait : ∀ b, ∀ e ∈ s.queue b, (budgetStep none w).st.port ⟨b, e.port⟩ = s.port ⟨b, e.port⟩ := fun b e he => by
    have hstate := (hmatch.1 b).1 e he
    rw [budgetStep_port w _ (by rw [hport]; unfold Port.sheddable; rw [hstate]; rfl), hport]
  have hwaits : (budgetStep none w).st.licenceWaits := fun b => by
    obtain ⟨hstates, hnodup⟩ := hmatch.1 b
    rw [hqueue]
    exact ⟨fun e he => by rw [hwait b e he]; exact hstates e he, hnodup⟩
  have hrunits : ∀ q, (w.st.port q).units = (r.port q).units := fun q => by rw [hport, hr]; rfl
  have hrreserves : w.st.lu.reserves = r.lu.reserves := by rw [hwlu, hl.reserves, hr]; rfl
  obtain ⟨hunused, hfits⟩ := budgetStep_licence (s := r) w hrunits hrreserves (by rw [hwlu, hentitled])
  have hentitledNow : (budgetStep none w).st.lu.entitlementInUse .portUnits = r.lu.entitlementInUse .portUnits := by
    rw [hlu, hwlu, hentitled]
  have hweight : ∀ b, (budgetStep none w).st.weight b = r.weight b := fun b => by
    unfold State.weight
    rw [hplu, hst, hr]
    rfl
  have hcounters : (budgetStep none w).st.lu.counters = s.lu.counters := by rw [hlu, hwlu, hl.counters]
  have hround := settle_round hgrant hrestore hwaits
  have hmem : ∀ {b e}, (s.queue b).head? = some e → e ∈ s.queue b := fun h => List.mem_of_mem_head? h
  have hpublished : ∀ q, (publish o (settle w)).port q = (settle w).st.port q := fun q => by
    unfold State.port
    rw [publish_pau]
  have hended : roundEnded (publish o (settle w)) := by
    refine roundEnded_publish o ?_
    rw [hround]
    exact roundFrom_ended _ _ (Nat.lt_succ_self _)
  clear hst hl hrestore hgrant hlu hplu hwlu hrunits hrreserves hport
  generalize settle w = z at hround hpublished hended ⊢
  generalize budgetStep none w = v at hqueue hwait hwaits hunused hfits hentitledNow hweight hcounters hround
  refine ⟨fun b e he hrequest hroom => ?_, fun b e hnone he hrequest hpos hlicence hmost => ?_, hended⟩
  all_goals rw [hpublished, hround]
  · refine roundFrom_reserve _ hwaits ⟨by rw [hqueue]; exact he, by rw [hwait b e (hmem he)]; exact hrequest, ?_⟩
    rw [hunused, hentitledNow]
    exact hroom
  · refine roundFrom_weighted _ hwaits (fun c x hx => ?_) (by rw [hqueue]; exact he) (by rw [hwait b e (hmem he)]; exact hrequest) ?_
    · rw [hunused, hentitledNow]
      exact hnone c x (hqueue c ▸ hx)
    · have hcandidate : ∀ c, v.st.candidate c = true ↔
          ∃ x, (s.queue c).head? = some x ∧ 0 < r.weight c ∧ r.licenceFits c x.units = true := fun c => by
        unfold State.candidate
        rw [hqueue, hweight]
        cases hx : (s.queue c).head? with
        | none => simp
        | some x => simp [hfits]
      refine weightedSelection_eq ((hcandidate b).2 ⟨e, he, hpos, hlicence⟩) fun c hc hcand => ?_
      obtain ⟨x, hx, hcpos, hcfits⟩ := (hcandidate c).1 hcand
      rw [hcounters, hweight, hweight]
      exact hmost c x hc hx hcpos hcfits

/-- Settles O49: by the program's end, what settling leaves, and the round of a raised entitlement. -/
theorem programEndsAppliedOrFaulted : Obligations.ProgramEndsAppliedOrFaulted := by
  intro s p verified hp hdone
  have hexec : exec (.nvProgramComplete verified) s = .next (publish s (settle (programDone (Work.start s) p verified))) := by
    show execNvProgramComplete verified s = _
    unfold execNvProgramComplete
    rw [hp]
    exact act_of_occasion s _ (decide_eq_true hdone)
  refine ⟨_, hexec, ?_⟩
  obtain ⟨l, hst, hl, hrestore, hgrant⟩ := programDone_left (w := Work.start s) p verified rfl
  generalize programDone (Work.start s) p verified = w at hst hrestore hgrant
  generalize ht : publish s (settle w) = t
  obtain ⟨hprogram, hfeature, hslots, hasks, hfifo, hreserves, hframe⟩ := programEnded_left hst hl s ht.symm
  rw [hprogram, hslots, hl.slots]
  refine ⟨rfl, fun hv => ?_, fun hv => ?_, fun r hmatch hrise hr => ?_, fun f hf => (hfeature f).trans (hl.others f hf), fun j hj => ?_,
    hasks, hfifo, hreserves, hframe⟩
  · rw [hfeature, hv, put_get]
    obtain ⟨hfloor, hentitled, hflag⟩ := hl.applied hv
    exact ⟨hfloor, hentitled, hflag, rfl, rfl, rfl⟩
  · rw [hfeature, hv, put_get]
    obtain ⟨hfloor, hentitled⟩ := hl.failed hv
    exact ⟨hfloor, hentitled, rfl, rfl, rfl⟩
  · have hprograms : t.lu.program = l.program := hprogram.trans hl.program.symm
    have hinUse := entitlementInUse_congr hprograms (hfeature .portUnits)
    have hdue : w.grantDue = true := hgrant (hinUse ▸ hrise)
    have hrinUse : r.lu.entitlementInUse .portUnits = t.lu.entitlementInUse .portUnits :=
      entitlementInUse_congr (by rw [hr, hprogram]; rfl) (by rw [hr]; rfl)
    rw [← hrinUse]
    exact raisedRound hst hl hrestore hdue hmatch s ht.symm (hrinUse.trans hinUse) ⟨_, _, hr⟩
  · exact (Vector.get_put _ _ _ _).trans (if_neg hj)

end Sys2Proof.Machine
end

section
/-! PROOFS. Entry to ARMED: a budget without a port to shed, the settled blades, and the events of the entry. -/

set_option Elab.async false

namespace Sys2Proof.Machine

variable {s t u : State} {v w : Work} {b c : Slot}

/-! ### A budget without a port to shed -/

/-- What a computation of the budget makes of the PBU where no port can be shed. -/
def State.budgeted (s : State) : Pbu :=
  if s.pbu.hold then s.pbu
  else { computeFigures s with powerCritical := decide ((computeFigures s).available < s.projected) }

theorem shedCandidates_none (h : ∀ q, (s.port q).sheddable = false) : shedCandidates s none = [] := by
  refine List.eq_nil_iff_forall_not_mem.2 fun e he => ?_
  have hcand := ((mem_shedCandidates s e).1 he).1
  have := (sheddable_iff _).2 hcand.2
  rw [h] at this
  cases this

/-- Each event of a computation of the budget is one of an alarm's change. -/
theorem setCritical_events (w : Work) (c : Bool) : (setCritical w c).events.length ≤ w.events.length + 1 := by
  unfold setCritical
  split
  · omega
  · exact (List.length_append).le

theorem shedSelection_calm (h : ∀ q, (w.st.port q).sheddable = false) :
    shedSelection none w = setCritical w (decide (w.st.pbu.available < w.st.projected)) := by
  unfold shedSelection
  rw [shedCandidates_none h]
  rfl

/-- Where no port can be shed, a computation of the budget changes the PBU alone. -/
theorem budgetStep_calm (h : ∀ q, (w.st.port q).sheddable = false) :
    (budgetStep none w).st = w.st.setPbu w.st.budgeted ∧ (budgetStep none w).events.length ≤ w.events.length + 2 := by
  unfold budgetStep State.budgeted
  split
  · exact ⟨rfl, by omega⟩
  · unfold computeBudget
    dsimp only
    have hend : ∀ x : Work, x.st = w.st.setPbu (computeFigures w.st) → x.events.length ≤ w.events.length + 1 →
        (if x.st.pbu.available < x.st.projected then shedSelection none x else setCritical x false).st =
          w.st.setPbu { computeFigures w.st with powerCritical := decide ((computeFigures w.st).available < w.st.projected) } ∧
        (if x.st.pbu.available < x.st.projected then shedSelection none x else setCritical x false).events.length ≤
          w.events.length + 2 := fun x hx hevents => by
      have hprojected : x.st.projected = w.st.projected := by rw [hx]; rfl
      have havailable : x.st.pbu.available = (computeFigures w.st).available := by rw [hx]; rfl
      have hsection : (if x.st.pbu.available < x.st.projected then shedSelection none x else setCritical x false) =
          setCritical x (decide (x.st.pbu.available < x.st.projected)) := by
        split
        · next hlt => rw [shedSelection_calm fun q => by rw [hx]; exact h q]
        · next hge => rw [decide_eq_false hge]
      rw [hsection, setCritical_st, havailable, hprojected]
      have := setCritical_events x (decide ((computeFigures w.st).available < w.st.projected))
      refine ⟨?_, by omega⟩
      rw [hx]
      rfl
    refine hend _ ?_ ?_
    · split <;> rfl
    · split
      · exact (List.length_append).le
      · exact Nat.le_succ _

/-- A second computation with the same inputs gives the same figures. -/
theorem computeFigures_again {x : Bool} (hpbu : t.pbu = { computeFigures s with powerCritical := x }) (hpins : t.pins = s.pins)
    (hplu : t.plu = s.plu) : computeFigures t = { computeFigures s with powerCritical := x } := by
  have husable : t.usableOf = s.usableOf := by
    unfold State.usableOf
    rw [hpbu, hpins]
    rfl
  have hcounted : t.countedIn = s.countedIn := by
    unfold State.countedIn
    rw [hpbu]
    rfl
  have hsupply : t.supplyOf = s.supplyOf := by
    unfold State.supplyOf State.usableSum State.usableMax
    rw [husable, hcounted, hplu]
  unfold computeFigures at hpbu ⊢
  rw [hsupply, hplu, hpbu]
  simp

/-! ### The settled blades -/

theorem baseDraw_setBlade (s : State) (b : Slot) (x : Blade) : (s.setBlade b x).baseDraw + (s.blade b).base = s.baseDraw + x.base :=
  sum_put Blade.base s.pau.blades b x

/-- The settled blades that the entry has reached, and what the blades and the charge then say of each other. -/
structure Releasing (u : State) (n : Nat) (done : List Slot) (v : Work) : Prop where
  rest : v.st = { u with blc := v.st.blc, pau := { u.pau with blades := v.st.pau.blades } }
  other : ∀ b, b ∉ done ∨ ¬u.settledBlade b → v.st.blade b = u.blade b ∧ v.st.link b = u.link b
  settled : ∀ b ∈ done, u.settledBlade b → ((v.st.blade b).state = .powering ∧ (v.st.blade b).base = u.plu.inUse.defaultBase ∧
    (v.st.blade b).powerEn = true) ∨ ((v.st.blade b).state = .waitPower ∧ (v.st.blade b).powerEn = false ∧ v.st.link b = u.link b)
  ordered : ∀ b ∈ done, ∀ c ∈ done, u.settledBlade b → u.settledBlade c → b < c → (v.st.blade b).state = .waitPower →
    (v.st.blade c).state = .waitPower
  hold : ∀ b ∈ done, u.settledBlade b → u.pbu.hold = true → (v.st.blade b).state = .waitPower
  fits : ∀ b ∈ done, u.settledBlade b → (v.st.blade b).state = .powering → v.st.baseDraw ≤ u.pbu.available
  waits : ∀ b ∈ done, u.settledBlade b → u.pbu.hold = false → u.bladeWait = [] → (v.st.blade b).state = .waitPower →
    u.pbu.available < v.st.baseDraw + u.plu.inUse.defaultBase
  due : v.grantDue = false ∧ v.restoreDue = false
  events : v.events.length ≤ n + done.length

theorem mem_bladeWait : b ∈ s.bladeWait ↔ (s.blade b).state = .waitPower := by
  simp [State.bladeWait, mem_indices]

/-- A blade passes its check where none waits, outside HOLD, and the default base draw fits the headroom. -/
theorem bladeFits_iff : s.bladeFits = true ↔
    s.bladeWait = [] ∧ s.pbu.hold = false ∧ (s.plu.inUse.defaultBase : Int) ≤ s.headroom := by
  unfold State.bladeFits
  simp [and_assoc]

/-- With no port drawn, projected draw is the base draw. -/
theorem projected_of_reset (h : ∀ q, s.port q = Port.reset) : s.projected = s.baseDraw := by
  have hdraw : (fun p : Port => if p.departing then 0 else p.draw s.plu.inUse) Port.reset = 0 := rfl
  unfold State.projected State.sumAll
  rw [foldl_add_eq, List.sum_eq_zero]
  · rfl
  · intro n hn
    obtain ⟨x, hx, rfl⟩ := List.mem_map.1 hn
    obtain ⟨i, hi, rfl⟩ := List.getElem_of_mem hx
    unfold sumPorts
    rw [foldl_add_eq, List.sum_eq_zero]
    intro m hm
    obtain ⟨y, hy, rfl⟩ := List.mem_map.1 hm
    obtain ⟨j, hj, rfl⟩ := List.getElem_of_mem hy
    have hi8 : i < 8 := by simpa using hi
    have hj48 : j < 48 := by simpa using hj
    have hport := h ⟨⟨i, hi8⟩, ⟨j, hj48⟩⟩
    exact (congrArg (fun p : Port => if p.departing then 0 else p.draw s.plu.inUse) hport).trans hdraw

theorem moveBlade_events (w : Work) (b : Slot) (x : Blade) : (moveBlade w b x).events.length ≤ w.events.length + 1 := by
  unfold moveBlade
  dsimp only
  split
  · exact Nat.le_succ _
  · exact (List.length_append).le

/-- The next settled blade is powered, where none waits and the charge fits, or waits and leaves the charge. -/
theorem Releasing.extend {n : Nat} {done : List Slot} {x : Work} (h : Releasing u n done v) (hc : ∀ d ∈ done, d < c)
    (hrest : x.st = { v.st with blc := x.st.blc, pau := { v.st.pau with blades := x.st.pau.blades } })
    (hother : ∀ d, d ≠ c → x.st.blade d = v.st.blade d ∧ x.st.link d = v.st.link d) (hsettled : u.settledBlade c)
    (hown : ((x.st.blade c).state = .powering ∧ (x.st.blade c).base = u.plu.inUse.defaultBase ∧ (x.st.blade c).powerEn = true ∧
        u.pbu.hold = false ∧ (∀ d ∈ done, u.settledBlade d → (v.st.blade d).state ≠ .waitPower) ∧ x.st.baseDraw ≤ u.pbu.available) ∨
      ((x.st.blade c).state = .waitPower ∧ (x.st.blade c).powerEn = false ∧ x.st.link c = u.link c ∧ x.st.baseDraw = v.st.baseDraw ∧
        (u.pbu.hold = false → u.bladeWait = [] → u.pbu.available < v.st.baseDraw + u.plu.inUse.defaultBase)))
    (hdue : v.sameDue x) (hevents : x.events.length ≤ v.events.length + 1) : Releasing u n (c :: done) x := by
  have hne : ∀ d ∈ done, d ≠ c := fun d hd e => lt_irrefl _ (e ▸ hc d hd)
  have hold : ∀ d ∈ done, (x.st.blade d).state = (v.st.blade d).state := fun d hd => by rw [(hother d (hne d hd)).1]
  have hpowering : ∀ {P : Prop}, (x.st.blade c).state = .powering → (x.st.blade c).state = .waitPower → P := fun h1 h2 =>
    nomatch h1.symm.trans h2
  refine ⟨?_, fun b hb => ?_, fun b hb hs => ?_, fun b hb d hd hsb hsd hlt hwait => ?_, fun b hb hs hh => ?_, fun b hb hs hp => ?_,
    fun b hb hs hh hnone hwait => ?_, ⟨hdue.1.trans h.due.1, hdue.2.trans h.due.2⟩, ?_⟩
  · refine hrest.trans ?_
    have := h.rest
    generalize v.st = y at this
    rw [this]
  · have hbc : b ≠ c := by
      rintro rfl
      exact hb.elim (fun hn => hn List.mem_cons_self) fun hn => hn hsettled
    obtain ⟨hblade, hlink⟩ := h.other b (hb.imp_left fun hn hmem => hn (List.mem_cons_of_mem _ hmem))
    exact ⟨(hother b hbc).1.trans hblade, (hother b hbc).2.trans hlink⟩
  · rcases List.mem_cons.1 hb with rfl | hb
    · rcases hown with ⟨hp, hbase, hen, -⟩ | ⟨hw, hen, hlink, -⟩
      · exact .inl ⟨hp, hbase, hen⟩
      · exact .inr ⟨hw, hen, hlink⟩
    · rw [(hother b (hne b hb)).1, (hother b (hne b hb)).2]
      exact h.settled b hb hs
  · have hdc : d = c ∨ d ∈ done := List.mem_cons.1 hd
    rcases List.mem_cons.1 hb with hbc | hbdone
    · rw [hbc] at hlt
      rcases hdc with hdc | hddone
      · exact absurd hlt (hdc ▸ lt_irrefl _)
      · exact absurd hlt (lt_asymm (hc d hddone))
    · rw [hold b hbdone] at hwait
      rcases hdc with hdc | hddone
      · rw [hdc]
        rcases hown with ⟨-, -, -, -, hnone, -⟩ | ⟨hw, -⟩
        · exact absurd hwait (hnone b hbdone hsb)
        · exact hw
      · rw [hold d hddone]
        exact h.ordered b hbdone d hddone hsb hsd hlt hwait
  · rcases List.mem_cons.1 hb with rfl | hb
    · rcases hown with ⟨-, -, -, hno, -⟩ | ⟨hw, -⟩
      · rw [hno] at hh
        cases hh
      · exact hw
    · rw [hold b hb]
      exact h.hold b hb hs hh
  · rcases hown with ⟨-, -, -, -, -, hle⟩ | ⟨hw, -, -, hbase, -⟩
    · exact hle
    · rcases List.mem_cons.1 hb with rfl | hb
      · exact hpowering hp hw
      · rw [hold b hb] at hp
        rw [hbase]
        exact h.fits b hb hs hp
  · rcases hown with ⟨hp, -, -, -, hno, -⟩ | ⟨-, -, -, hbase, hlt⟩
    · rcases List.mem_cons.1 hb with rfl | hb
      · exact hpowering hp hwait
      · rw [hold b hb] at hwait
        exact absurd hwait (hno b hb hs)
    · rw [hbase]
      exact hlt hh hnone
  · have := h.events
    rw [List.length_cons]
    omega

theorem powerBlade_left (w : Work) (b : Slot) : (powerBlade w b).st = { w.st with
      blc := (powerBlade w b).st.blc, pau := { w.st.pau with blades := (powerBlade w b).st.pau.blades } } ∧
    (∀ d, d ≠ b → (powerBlade w b).st.link d = w.st.link d) ∧ w.sameDue (powerBlade w b) ∧
    (powerBlade w b).events.length ≤ w.events.length + 1 ∧
    (powerBlade w b).st.baseDraw + (w.st.blade b).base = w.st.baseDraw + w.st.plu.inUse.defaultBase := by
  have hstart : ∀ s : State, startLink s b = { s with blc := (startLink s b).blc } ∧ ∀ d, d ≠ b → (startLink s b).link d = s.link d := fun s => by
    unfold startLink
    dsimp only
    split
    · exact ⟨rfl, fun d hd => by rw [State.link_setLink, if_neg hd]⟩
    · exact ⟨rfl, fun _ _ => rfl⟩
  have hmove := moveBlade_st w b { w.st.blade b with state := .powering, base := w.st.plu.inUse.defaultBase, debounced := false }
  have hevents := moveBlade_events w b { w.st.blade b with state := .powering, base := w.st.plu.inUse.defaultBase, debounced := false }
  have hdue : w.sameDue (moveBlade w b { w.st.blade b with state := .powering, base := w.st.plu.inUse.defaultBase, debounced := false }) := by
    unfold moveBlade
    dsimp only
    split <;> exact ⟨rfl, rfl⟩
  unfold powerBlade
  dsimp only
  generalize moveBlade w b _ = x at hmove hevents hdue ⊢
  obtain ⟨hst, hlink⟩ := hstart x.st
  have hbase := baseDraw_setBlade w.st b { w.st.blade b with state := .powering, base := w.st.plu.inUse.defaultBase, debounced := false, powerEn := true }
  have hpau : (startLink x.st b).pau = x.st.pau := by rw [hst]
  refine ⟨?_, fun d hd => ?_, hdue, hevents, ?_⟩
  · rw [Work.map_st, hpau]
    refine hst.trans ?_
    rw [hmove]
    rfl
  · rw [Work.map_st, hlink d hd, hmove]
    rfl
  · have hdraw : (startLink x.st b).baseDraw = x.st.baseDraw := by
      unfold State.baseDraw
      rw [hpau]
    rw [Work.map_st, hdraw, hmove]
    exact hbase

theorem Releasing.step {n : Nat} {done : List Slot} (h : Releasing u n done v) (hports : ∀ q, u.port q = Port.reset)
    (hc : ∀ d ∈ done, d < c) : Releasing u n (c :: done) (releaseSettled v c) := by
  have hcdone : c ∉ done := fun hmem => lt_irrefl _ (hc c hmem)
  obtain ⟨hcblade, hclink⟩ := h.other c (.inl hcdone)
  have hsame : ∀ b, b ∉ c :: done ∨ ¬u.settledBlade b → b ∉ done ∨ ¬u.settledBlade b := fun b hb =>
    hb.imp_left fun hn hmem => hn (List.mem_cons_of_mem _ hmem)
  have hplu : v.st.plu = u.plu := by rw [h.rest]
  have hpbu : v.st.pbu = u.pbu := by rw [h.rest]
  have hprojected : v.st.projected = v.st.baseDraw := projected_of_reset fun q => by rw [h.rest]; exact hports q
  unfold releaseSettled
  dsimp only
  by_cases hset : u.settledBlade c
  · obtain ⟨hstate, hdebounced⟩ := hset
    rw [if_pos (by rw [hcblade]; exact ⟨hstate, hdebounced⟩)]
    unfold bladePowerCheck
    split
    · next hfits =>
      obtain ⟨hwait, hhold, hroom⟩ := bladeFits_iff.1 hfits
      obtain ⟨hrest, hlinks, hdue, hevents, hbase⟩ := powerBlade_left v c
      have hblade := powerBlade_blade v c
      refine h.extend hc hrest (fun d hd => ⟨(hblade d).trans (if_neg hd), hlinks d hd⟩) ⟨hstate, hdebounced⟩ (.inl ?_) hdue hevents
      rw [hblade c, if_pos rfl, ← hpbu, ← hplu]
      refine ⟨rfl, rfl, rfl, hhold, fun d _ _ hw => ?_, ?_⟩
      · have hmem := mem_bladeWait.2 hw
        rw [hwait] at hmem
        cases hmem
      · unfold State.headroom at hroom
        rw [hprojected] at hroom
        omega
    · next hno =>
      have hmove := moveBlade_st v c { v.st.blade c with state := .waitPower, debounced := false }
      have hevents := moveBlade_events v c { v.st.blade c with state := .waitPower, debounced := false }
      have hdue : v.sameDue (moveBlade v c { v.st.blade c with state := .waitPower, debounced := false }) := by
        unfold moveBlade
        dsimp only
        split <;> exact ⟨rfl, rfl⟩
      have hbase := baseDraw_setBlade v.st c { v.st.blade c with state := .waitPower, debounced := false, powerEn := false }
      generalize moveBlade v c { v.st.blade c with state := .waitPower, debounced := false } = x at hmove hevents hdue ⊢
      have hst : x.st = v.st.setBlade c { v.st.blade c with state := .waitPower, debounced := false, powerEn := false } := hmove
      refine h.extend hc ?_ (fun d hd => ?_) ⟨hstate, hdebounced⟩ (.inr ?_) hdue hevents
      · rw [hst]
        rfl
      · rw [hst, State.blade_setBlade, if_neg hd]
        exact ⟨rfl, rfl⟩
      · rw [hst, State.blade_setBlade, if_pos rfl]
        refine ⟨rfl, rfl, hclink, ?_, fun hhold hnone => ?_⟩
        · exact Nat.add_right_cancel hbase
        · by_cases hany : ∃ d ∈ done, u.settledBlade d ∧ (v.st.blade d).state = .waitPower
          · obtain ⟨d, hd, hsd, hwd⟩ := hany
            exact h.waits d hd hsd hhold hnone hwd
          · have hwait : v.st.bladeWait = [] := List.eq_nil_iff_forall_not_mem.2 fun d hd => by
              have hw := mem_bladeWait.1 hd
              by_cases hdd : d ∈ done ∧ u.settledBlade d
              · exact hany ⟨d, hdd.1, hdd.2, hw⟩
              · have hkept := (h.other d (not_and_or.1 hdd)).1
                rw [hkept] at hw
                have hmem := mem_bladeWait.2 hw
                rw [hnone] at hmem
                cases hmem
            have hroom : ¬(v.st.plu.inUse.defaultBase : Int) ≤ v.st.headroom := fun hle =>
              hno (bladeFits_iff.2 ⟨hwait, by rw [hpbu]; exact hhold, hle⟩)
            unfold State.headroom at hroom
            rw [hprojected, hplu, hpbu] at hroom
            omega
  · rw [if_neg (by rw [hcblade]; exact hset)]
    have hne : ∀ b, b ∈ c :: done → u.settledBlade b → b ∈ done := fun b hb hs =>
      (List.mem_cons.1 hb).resolve_left fun e => hset (e ▸ hs)
    exact ⟨h.rest, fun b hb => h.other b (hsame b hb), fun b hb hs => h.settled b (hne b hb hs) hs,
      fun b hb d hd hsb hsd => h.ordered b (hne b hb hsb) d (hne d hd hsd) hsb hsd, fun b hb hs => h.hold b (hne b hb hs) hs,
      fun b hb hs => h.fits b (hne b hb hs) hs, fun b hb hs => h.waits b (hne b hb hs) hs, h.due,
      by have := h.events; rw [List.length_cons]; omega⟩

/-- The settled blades are reached in slot order. -/
theorem releasing_fold (hports : ∀ q, u.port q = Port.reset) {n : Nat} : ∀ (l done : List Slot) (v : Work), Releasing u n done v →
    l.Pairwise (· < ·) → (∀ d ∈ done, ∀ x ∈ l, d < x) → Releasing u n (l.reverse ++ done) (l.foldl releaseSettled v)
  | [], done, v, h, _, _ => h
  | c :: l, done, v, h, hsorted, hbelow => by
    obtain ⟨hfirst, hsorted⟩ := List.pairwise_cons.1 hsorted
    have hstep := h.step hports fun d hd => hbelow d hd c List.mem_cons_self
    rw [List.reverse_cons, List.append_assoc, List.singleton_append, List.foldl_cons]
    refine releasing_fold hports l (c :: done) _ hstep hsorted fun d hd x hx => ?_
    rcases List.mem_cons.1 hd with rfl | hd
    · exact hfirst x hx
    · exact hbelow d hd x (List.mem_cons_of_mem _ hx)

/-! ### The events of the entry -/

/-- The events handed since the EVU stood as `e`, at a time and with a sequence as bases: each taken with the next sequence, and none
dropped before the intake is full. -/
def EventsTaken (e : Evu) (time first n : Nat) (x : Evu) : Prop :=
  x.ringLost = e.ringLost ∧ ∃ l, x.intake = e.intake ++ l ∧ l.length ≤ n ∧
    (∀ (i : Nat) (y : Stamped), l[i]? = some y → y.seq = first + i + 1 ∧ y.time = time) ∧
    ((x.sequence = first + l.length ∧ x.pending = e.pending ∧ x.lostTotal = e.lostTotal) ∨ 32 ≤ x.intake.length)

theorem eventsTaken_hand {e : Evu} {time first n : Nat} (h : EventsTaken e time first n s.evu) (harmed : s.armed = true)
    (htime : s.timestamp = time) (hfirst : first ≤ 1) (x : Event) : EventsTaken e time first (n + 1) (handEvent s x).evu := by
  obtain ⟨hlost, l, hl, hlen, hseq, hcount⟩ := h
  by_cases hroom : s.evu.intake.length < 32
  · obtain ⟨hsequence, hpending, htotal⟩ := hcount.resolve_right (by omega)
    have hshort : l.length < 32 := by
      rw [hl, List.length_append] at hroom
      omega
    have hnext : (s.evu.sequence + 1) % 65536 = first + l.length + 1 := by rw [hsequence]; omega
    rw [handEvent_taken x harmed hroom]
    refine ⟨hlost, l ++ [⟨(s.evu.sequence + 1) % 65536, s.timestamp, x⟩], ?_, ?_, fun i y hy => ?_, .inl ⟨?_, hpending, htotal⟩⟩
    · show s.evu.intake ++ _ = _
      rw [hl, List.append_assoc]
    · rw [List.length_append, List.length_singleton]
      omega
    · by_cases hi : i < l.length
      · rw [List.getElem?_append_left hi] at hy
        exact hseq i y hy
      · rw [List.getElem?_append_right (by omega)] at hy
        have hi0 : i - l.length = 0 := by
          by_contra hne
          rw [List.getElem?_eq_none (by simp; omega)] at hy
          cases hy
        rw [hi0] at hy
        cases hy
        refine ⟨?_, htime⟩
        show (s.evu.sequence + 1) % 65536 = _
        omega
    · rw [List.length_append, List.length_singleton]
      exact hnext
  · have hdropped : (handEvent s x).evu.intake = s.evu.intake ∧ (handEvent s x).evu.ringLost = s.evu.ringLost := by
      unfold handEvent
      rw [harmed]
      dsimp only
      rw [if_neg hroom]
      exact ⟨rfl, rfl⟩
    obtain ⟨hintake, hring⟩ := hdropped
    refine ⟨hring.trans hlost, l, hintake.trans hl, by omega, hseq, .inr ?_⟩
    rw [hintake]
    omega

theorem EventsTaken.mono {e x : Evu} {time first n : Nat} (h : EventsTaken e time first n x) : EventsTaken e time first (n + 1) x := by
  obtain ⟨hlost, l, hl, hlen, hrest⟩ := h
  exact ⟨hlost, l, hl, by omega, hrest⟩

theorem eventsTaken_fold {e : Evu} {time first : Nat} (hfirst : first ≤ 1) (written : List (UnitId × StatusItem)) :
    ∀ (l : List Raised) (n : Nat) (s : State), EventsTaken e time first n s.evu → s.armed = true → s.timestamp = time →
      EventsTaken e time first (n + l.length) (l.foldl (handRaised written) s).evu
  | [], _, _, h, _, _ => h
  | r :: l, n, s, h, harmed, htime => by
    have hkept := published_handRaised written s r
    have hstep : EventsTaken e time first (n + 1) (handRaised written s r).evu := by
      unfold handRaised
      split
      · exact eventsTaken_hand h harmed htime hfirst _
      · split
        · exact h.mono
        · exact eventsTaken_hand h harmed htime hfirst _
    have hlength : n + (r :: l).length = n + 1 + l.length := by rw [List.length_cons]; omega
    rw [List.foldl_cons, hlength]
    refine eventsTaken_fold hfirst written l (n + 1) _ hstep ?_ ?_
    · unfold State.armed
      rw [hkept.plu]
      exact harmed
    · unfold State.timestamp
      rw [hkept.now]
      exact htime

/-- A RING_LOST is created for drops when none is held, and not as one of before arming. -/
theorem evuRest_evu (s : State) : (evuRest s).evu = s.evu ∨ (s.evu.ringLost = none ∧ 0 < s.evu.pending ∧
    ∃ n, (evuRest s).evu = { s.evu with sequence := n, ringLost := some ⟨n, s.timestamp, false⟩ }) := by
  unfold evuRest
  split
  · next h =>
    simp only [Bool.and_eq_true, Option.isNone_iff_eq_none, decide_eq_true_eq] at h
    exact .inr ⟨h.1.2, h.2, _, rfl⟩
  · exact .inl rfl

/-- The EVU behind a command with at most 32 events, from a state of the entry to ARMED. -/
theorem eventsStart_publish (o : State) (harmed : w.st.armed = true) (hnow : w.st.now = s.now) (hevu : w.st.evu = s.evu.onArmed s.timestamp)
    (hevents : w.events.length < 32) : eventsStart s (publish o w) := by
  have hu : Asked w.st (stateWritten o w) := asked_stateWritten o w
  have htime : w.st.timestamp = s.timestamp := by unfold State.timestamp; rw [hnow]
  generalize hfirst : (if 0 < s.evu.pending then 1 else 0) = first
  have hfirst1 : first ≤ 1 := by
    rw [← hfirst]
    split <;> omega
  have hsequence : (s.evu.onArmed s.timestamp).sequence = first := by
    rw [← hfirst]
    unfold Evu.onArmed
    dsimp only
    simp
  have hstart : EventsTaken (s.evu.onArmed s.timestamp) s.timestamp first 0 (stateWritten o w).evu := by
    rw [hu.evu, hevu]
    refine ⟨rfl, [], by simp, Nat.le_refl _, fun i y hy => (by simp at hy), .inl ⟨?_, rfl, rfl⟩⟩
    rw [hsequence]
    rfl
  have htaken := eventsTaken_fold hfirst1 (writtenItems o w) w.events 0 _ hstart (hu.armed.trans harmed) (hu.timestamp.trans htime)
  have hpublished := (publish_published o w).evu
  rw [hevu] at hpublished
  unfold eventsStart
  rw [hfirst]
  rw [publish_evu, publishState_evu] at hpublished ⊢
  generalize (w.events.foldl (handRaised (writtenItems o w)) (stateWritten o w)) = x at htaken hpublished ⊢
  obtain ⟨hring, l, hl, hlen, hseq, hcount⟩ := htaken
  have honArmed : (s.evu.onArmed s.timestamp).ringLost = if 0 < s.evu.pending then some ⟨1, s.timestamp, true⟩ else none := by
    unfold Evu.onArmed
    dsimp only
    simp
  rw [honArmed] at hring
  refine ⟨hpublished.producer, hpublished.consumer, hpublished.phase, hpublished.asserted, hpublished.coalesceAt, fun hpos => ?_,
    fun hzero r hr => ?_, ⟨l, (evuRest_intake_lostTotal x).1.trans hl, hseq⟩, fun hempty => ?_⟩
  · rw [if_pos hpos] at hring
    rcases evuRest_evu x with hsame | ⟨hnone, -⟩
    · rw [hsame, hring]
    · rw [hring] at hnone
      cases hnone
  · rw [if_neg (by omega)] at hring
    rcases evuRest_evu x with hsame | ⟨-, -, n, hcreated⟩
    · rw [hsame, hring] at hr
      cases hr
    · rw [hcreated] at hr
      cases hr
      rfl
  · have hintake : x.evu.intake = l := by
      rw [hl]
      show s.evu.intake ++ l = l
      rw [hempty]
      rfl
    obtain ⟨hsequence, hpending, htotal⟩ := hcount.resolve_right (by rw [hintake]; omega)
    have hsame : (evuRest x).evu = x.evu := by
      rcases evuRest_evu x with hsame | ⟨hnone, hpos, -⟩
      · exact hsame
      · rw [hpending] at hpos
        have hpos' : 0 < s.evu.pending := hpos
        rw [if_pos hpos'] at hring
        rw [hring] at hnone
        cases hnone
    rw [hsame, hintake]
    exact ⟨hsequence, hpending, htotal, fun hzero => by rw [hring, if_neg (by omega)]⟩

/-! ### The entry -/

/-- What the entry's work has reached: the units' starting points, the settled blades, the targets and the figures. -/
structure Entered (s : State) (w : Work) : Prop where
  rest : w.st = { armUnits s with blc := w.st.blc, pau := { (armUnits s).pau with blades := w.st.pau.blades }, pbu := w.st.pbu, ftu := w.st.ftu }
  blades : settledBladesFollow s w.st
  budget : budgetStarts s w.st
  targets : targetsStart s w.st
  events : w.events.length < 32

theorem armUnits_port (s : State) (q : PortRef) : (armUnits s).port q = Port.reset := by
  show ((Vector.replicate 8 (Vector.replicate 48 Port.reset)).get q.slot).get q.port = Port.reset
  rw [Vector.get_replicate, Vector.get_replicate]

theorem entered_enterArmedWork (s : State) : Entered s (enterArmedWork (Work.start s)) := by
  have hsheddable : Port.reset.sheddable = false := rfl
  obtain ⟨hfirst, hfirstEvents⟩ := budgetStep_calm (w := (Work.start s).map armUnits) fun q => by
    rw [Work.map_st, Work.start_st, armUnits_port]
    rfl
  obtain ⟨hgrant, hrestore⟩ := sameDue_budgetStep ((Work.start s).map armUnits) none
  unfold enterArmedWork
  dsimp only
  generalize budgetStep none ((Work.start s).map armUnits) = w1 at hfirst hfirstEvents hgrant hrestore ⊢
  rw [Work.map_st, Work.start_st] at hfirst
  have hports : ∀ q, ((armUnits s).setPbu (armUnits s).budgeted).port q = Port.reset := armUnits_port s
  have hreleasing := releasing_fold hports (n := 2) (indices 8) [] w1
    ⟨by rw [hfirst], fun b _ => by rw [hfirst]; exact ⟨rfl, rfl⟩, fun b hb => (by cases hb), fun b hb => (by cases hb), fun b hb => (by cases hb),
      fun b hb => (by cases hb), fun b hb => (by cases hb), ⟨hgrant, hrestore⟩, hfirstEvents⟩ (by decide) (fun d hd => by cases hd)
  have hall : ∀ b, b ∈ (indices 8).reverse ++ [] := fun b => by simp [mem_indices]
  generalize (indices 8).foldl releaseSettled w1 = w2 at hreleasing ⊢
  have htargets := targeted_targetStep w2
  have hdue3 : w2.sameDue (targetStep w2) := ⟨rfl, rfl⟩
  have hevents3 : (targetStep w2).events = w2.events := rfl
  generalize targetStep w2 = w3 at htargets hdue3 hevents3 ⊢
  rw [settle_of_notDue w3 (hdue3.1.trans hreleasing.due.1) (hdue3.2.trans hreleasing.due.2)]
  obtain ⟨hlast, hlastEvents⟩ := budgetStep_calm (w := w3) fun q => by
    rw [htargets.rest, hreleasing.rest]
    exact (congrArg Port.sheddable (armUnits_port s q)).trans hsheddable
  have hbudgeted := budgetStep_budgeted w3
  generalize budgetStep none w3 = w4 at hlast hlastEvents hbudgeted ⊢
  have hftu3 : w3.st.ftu = { s.ftu with zones := w3.st.ftu.zones, rotors := w3.st.ftu.rotors } := by
    have hrest := congrArg State.ftu htargets.rest
    have hftu2 : w2.st.ftu = s.ftu := by rw [hreleasing.rest]; rfl
    rw [State.setFtu_ftu, hftu2] at hrest
    exact hrest
  have hst3 : w3.st = { (armUnits s).setPbu (armUnits s).budgeted with
      blc := w2.st.blc, pau := { (armUnits s).pau with blades := w2.st.pau.blades }, ftu := w3.st.ftu } := by
    have hrest := hreleasing.rest
    have htarget := htargets.rest
    rw [show w2.st.ftu = s.ftu by rw [hrest]; rfl, ← hftu3] at htarget
    refine htarget.trans ?_
    generalize w2.st = x at hrest
    rw [hrest]
    rfl
  have hstate : (w4.rewrite ((indices 4).map .psuRecord ++ [.budgetFigures, .budgetTunables])).st = { armUnits s with
      blc := w2.st.blc, pau := { (armUnits s).pau with blades := w2.st.pau.blades }, pbu := w3.st.budgeted, ftu := w3.st.ftu } := by
    refine hlast.trans ?_
    generalize w3.st.budgeted = x
    rw [hst3]
    rfl
  have hevents : (w4.rewrite ((indices 4).map .psuRecord ++ [.budgetFigures, .budgetTunables])).events.length < 32 := by
    have h2 := hreleasing.events
    have h4 : w4.events.length ≤ w3.events.length + 2 := hlastEvents
    have hlen : ((indices 8).reverse ++ []).length = 8 := by decide
    show w4.events.length < 32
    rw [hevents3] at h4
    omega
  have hlaw : (armUnits s).pbu.hold = false → budgetLaw (w4.rewrite ((indices 4).map .psuRecord ++ [.budgetFigures, .budgetTunables])).st :=
    fun hhold => by
      have hhold3 : w3.st.pbu.hold = false := by
        rw [hst3]
        show (armUnits s).budgeted.hold = false
        unfold State.budgeted
        rw [hhold]
        exact hhold
      exact (hbudgeted hhold3).budgetLaw
  generalize w4.rewrite _ = w at hstate hevents hlaw
  have hpbu : w.st.pbu = w3.st.budgeted := by rw [hstate]
  have hblade : ∀ b, w.st.blade b = w2.st.blade b := fun b => by rw [hstate]; rfl
  have hlink : ∀ b, w.st.link b = w2.st.link b := fun b => by rw [hstate]; rfl
  have hbase : w.st.baseDraw = w2.st.baseDraw := by rw [hstate]; rfl
  have hpbu3 : w3.st.pbu = (armUnits s).budgeted := by rw [hst3]; rfl
  have hheld : s.pbu.hold = true → (armUnits s).budgeted = (armUnits s).pbu ∧ w.st.pbu = (armUnits s).pbu := fun hhold => by
    have hfirst : (armUnits s).budgeted = (armUnits s).pbu := if_pos hhold
    refine ⟨hfirst, hpbu.trans ?_⟩
    unfold State.budgeted
    rw [hpbu3, hfirst]
    exact if_pos hhold
  have hfree : s.pbu.hold = false → ∃ x, (armUnits s).budgeted = { computeFigures (armUnits s) with powerCritical := x } ∧
      w.st.pbu = { computeFigures (armUnits s) with powerCritical := decide ((computeFigures (armUnits s)).available < w.st.baseDraw) } :=
    fun hhold => by
      have hfirst : (armUnits s).budgeted = { computeFigures (armUnits s) with
          powerCritical := decide ((computeFigures (armUnits s)).available < (armUnits s).projected) } :=
        if_neg (by show ¬s.pbu.hold = true; rw [hhold]; exact Bool.false_ne_true)
      refine ⟨_, hfirst, hpbu.trans ?_⟩
      have hagain := computeFigures_again (t := w3.st) (hpbu3.trans hfirst) (by rw [hst3]; rfl) (by rw [hst3]; rfl)
      have hprojected : w3.st.projected = w.st.baseDraw := by
        rw [projected_of_reset fun q => ?_, hbase, hst3]
        · rfl
        · rw [hst3]
          exact armUnits_port s q
      have hhold3 : w3.st.pbu.hold = false := by
        rw [hpbu3, hfirst]
        exact hhold
      unfold State.budgeted
      rw [hhold3, if_neg Bool.false_ne_true, hprojected, hagain]
  have havailable : (armUnits s).budgeted.available = w.st.pbu.available := by
    cases hhold : s.pbu.hold with
    | true =>
      obtain ⟨hfirst, hlast⟩ := hheld hhold
      rw [hfirst, hlast]
    | false =>
      obtain ⟨x, hfirst, hlast⟩ := hfree hhold
      rw [hfirst, hlast]
  have hheldFirst : (armUnits s).budgeted.hold = s.pbu.hold := by
    cases hhold : s.pbu.hold with
    | true => rw [(hheld hhold).1]; exact hhold
    | false =>
      obtain ⟨x, hfirst, -⟩ := hfree hhold
      rw [hfirst]
      exact hhold
  refine ⟨by rw [hstate], ?_, ?_, ?_, hevents⟩
  · have hsettled := hreleasing.settled
    refine ⟨fun b hb => ?_, fun b c hb hc hlt hwait => ?_, fun b hb hhold => ?_, fun b hb hp => ?_, fun b hb hhold hnone hwait => ?_,
      fun b hb => ?_, fun b hb => ?_⟩
    · rw [hblade]
      exact (hreleasing.settled b (hall b) hb).imp_right fun h => ⟨h.1, h.2.1⟩
    · rw [hblade] at hwait ⊢
      exact hreleasing.ordered b (hall b) c (hall c) hb hc hlt hwait
    · rw [hblade]
      exact hreleasing.hold b (hall b) hb (hheldFirst.trans hhold)
    · rw [hblade] at hp
      rw [hbase, ← havailable]
      exact hreleasing.fits b (hall b) hb hp
    · rw [hblade] at hwait
      rw [hbase, ← havailable]
      exact hreleasing.waits b (hall b) hb (hheldFirst.trans hhold) hnone hwait
    · rw [hblade]
      exact (hreleasing.other b (.inr hb)).1
    · rw [hlink]
      rw [hblade] at hb
      by_cases hs : s.settledBlade b
      · rcases hreleasing.settled b (hall b) hs with ⟨hp, -⟩ | ⟨-, -, hkept⟩
        · exact absurd hp (hb.resolve_right (not_not_intro hs))
        · exact hkept
      · exact (hreleasing.other b (.inr hs)).2
  · cases hhold : s.pbu.hold with
    | true =>
      obtain ⟨-, hlast⟩ := hheld hhold
      unfold budgetStarts
      rw [hlast, hhold]
      exact ⟨rfl, rfl, rfl, rfl, hhold, fun _ => rfl, nofun⟩
    | false =>
      obtain ⟨x, -, hlast⟩ := hfree hhold
      have hlawNow := hlaw hhold
      unfold budgetStarts
      rw [hhold]
      refine ⟨?_, ?_, ?_, ?_, ?_, nofun, fun _ => ⟨hlawNow, ?_, ?_⟩⟩
      all_goals rw [hlast]
      · rfl
      · rfl
      · rfl
      · rfl
      · exact hhold
      · exact decide_eq_true_iff
      · rfl
  · have htarget : ∀ z, w.st.targetDuty z = w2.st.targetDuty z := fun z => by
      rw [← htargets.targetDuty z]
      refine targetDuty_congr z ?_ ?_ ?_ fun b => ?_
      all_goals rw [hstate, hst3]
      all_goals rfl
    have hzone : ∀ z, w2.st.ftu.zones.get z = s.ftu.zones.get z := fun z => by rw [hreleasing.rest]; rfl
    have hrotor : ∀ r, w2.st.ftu.rotors.get r = s.ftu.rotors.get r := fun r => by rw [hreleasing.rest]; rfl
    have hftu : w.st.ftu = w3.st.ftu := by rw [hstate]
    refine ⟨fun z => ?_, fun r hr => ?_, ?_⟩
    · have hmem : z ∈ ([0, 1] : List FanZone) := by fin_cases z <;> decide
      obtain ⟨htake, hdriven⟩ := htargets.zone z hmem
      rw [hftu, htarget, htake, hdriven, htargets.lowest, hzone]
      exact ⟨rfl, rfl, rfl⟩
    · rw [htarget, ← hzone] at hr
      rw [hftu, htargets.rotor r (.inr hr), hrotor]
    · rw [hftu]
      exact hftu3

/-- What the entry says of blades, budget and targets is of fields that the publication keeps. -/
theorem entered_publish (o : State) (hblades : settledBladesFollow s w.st) (hbudget : budgetStarts s w.st) (htargets : targetsStart s w.st) :
    settledBladesFollow s (publish o w) ∧ budgetStarts s (publish o w) ∧ targetsStart s (publish o w) := by
  unfold publish
  generalize (publishState o w).swq = a
  generalize (publishState o w).tmc = b
  generalize (publishState o w).evu = c
  exact ⟨hblades, hbudget, htargets⟩

/-- Settles O59: the entry's work, published. -/
theorem enterArmedStartsTheUnits : Obligations.EnterArmedStartsTheUnits := by
  intro s hpart hfill
  show ∃ t, execEnterArmed s = .next t ∧ _
  refine answered (by rw [hpart, hfill]; rfl) ?_
  have hentered := entered_enterArmedWork s
  generalize enterArmedWork (Work.start s) = w at hentered ⊢
  obtain ⟨hrest, hblades, hbudget, htargets, hevents⟩ := hentered
  obtain ⟨hblades, hbudget, htargets⟩ := entered_publish s hblades hbudget htargets
  have hstart : eventsStart s (publish s w) := eventsStart_publish s (by rw [hrest]; rfl) (by rw [hrest]; rfl) (by rw [hrest]; rfl) hevents
  have hmemory : memoryKept s (publish s w) := fun a => by
    rw [(publish_tmcKept s w).mem, hrest]
    rfl
  have hframe := publish_frame s w hrest
  generalize publish s w = t at *
  have hziu : t.ziu = s.ziu.onArmed := by rw [hframe]; rfl
  have hlu : t.lu = s.lu.onArmed ((s.plu.layout.map (·.reserves)).getD (Vector.replicate 8 0)) := by rw [hframe]; rfl
  have hplu : t.plu = { s.plu with part := .armed, result := .armed, detail := 0, armSeq := s.plu.started, fill := .idle } := by rw [hframe]; rfl
  have hrecords : t.pau.ports = (armUnits s).pau.ports := by rw [hframe]
  have hports : ∀ q, t.port q = Port.reset := fun q => by
    rw [← armUnits_port s q]
    unfold State.port
    rw [hrecords]
  rw [hplu, hziu]
  refine ⟨rfl, rfl, rfl, rfl, rfl, rfl, rfl, rfl, rfl, rfl, rfl, rfl, rfl, Vector.get_replicate _ _, rfl, rfl, rfl, rfl, rfl, rfl,
    hports, hblades, fun b => ?_, ?_, fun k => ?_, fun b => ?_, fun l hl => ?_, fun f => ?_, ?_, hbudget, htargets, hstart, hmemory, ?_⟩
  · unfold State.queue
    rw [hlu]
    exact Vector.get_replicate _ _ b
  · rw [hlu]
    rfl
  · rw [hlu]
    exact Vector.get_replicate _ _ k
  · rw [hlu]
    exact Vector.get_replicate _ _ b
  · rw [hlu, hl]
    rfl
  · rw [hlu]
    cases f <;> rfl
  · rw [hlu]
    rfl
  · rw [hframe]
    rfl

end Sys2Proof.Machine
end

section
/-! PROOFS. A blade seated and pulled, and the waiting lists that every step keeps. -/

set_option Elab.async false

namespace Sys2Proof.Machine

variable {s t u : State} {w : Work} {b : Slot}

/-! ### Every step -/

theorem powerOn_waitsMatch (s : State) (p : PowerOn) : (powerOn s p).waitsMatch := waitsMatch_of_empty (Vector.get_replicate 8 []) rfl

theorem step_waitsMatch (hs : s.waitsMatch) (h : step s = .next t) : t.waitsMatch := by
  rcases step_cases h with ⟨q, p, rfl⟩ | hc
  · exact powerOn_waitsMatch _ _
  · exact hc.1.waits trivial hs

/-! ### The ports of a blade pulled -/

/-- What a port's record becomes when it goes out of service (R92). -/
def Port.outOfService (x : Port) : Port :=
  if x.state = .offline then x else { x with state := .offline, cause := .bladeDown, leaving := .clear, granted := none }

theorem Port.outOfService_state (x : Port) : x.outOfService.state = .offline := by
  unfold Port.outOfService
  split
  · assumption
  · rfl

theorem outOfService_port (w : Work) (p q : PortRef) :
    (outOfService w p).st.port q = if q = p then (w.st.port p).outOfService else w.st.port q := by
  unfold outOfService Port.outOfService
  by_cases h : (w.st.port p).state = .offline
  · rw [if_pos h, if_pos h]
    split
    · next e => rw [e]
    · rfl
  · rw [if_neg h, if_neg h, toOffline_st, State.port_setPort, leaveWait_port, leaveWait_port]

theorem bladeOutOfService_port (w : Work) (b : Slot) (q : PortRef) :
    (bladeOutOfService w b).st.port q = if q.slot = b then (w.st.port q).outOfService else w.st.port q := by
  unfold bladeOutOfService
  rw [foldl_port outOfService_port _ _ _ (portsOf_nodup b)]
  exact if_congr (mem_portsOf b q) rfl rfl

/-- An OFFLINE port holds no units and draws nothing. -/
theorem offline_holds_nothing {x : Port} (h : x.state = .offline) (tunables : Tunables) : x.units = 0 ∧ x.xdUnits = 0 ∧ x.draw tunables = 0 := by
  unfold Port.units Port.xdUnits Port.draw
  rw [h]
  cases x.granted <;> exact ⟨rfl, rfl, rfl⟩

/-! ### A blade pulled -/

/-- The record of a blade that has been pulled (R91). -/
def Blade.pulled (x : Blade) : Blade :=
  { x with state := .absent, debounceAt := none, debounced := false, portCount := none, base := 0, cause := .removed, powerEn := false }

/-- What the removal of a blade leaves: its record, its ports OFFLINE with unknown optics, and the rest. -/
structure Pulled (b : Slot) (s t : State) : Prop where
  admits : Admits (s.setZiu t.ziu) t
  blade : t.blade b = (s.blade b).pulled
  others : ∀ c, c ≠ b → (s.blade c).state ≠ .waitPower → t.blade c = s.blade c
  ports : ∀ q, q.slot ≠ b → PortKept (s.port q) (t.port q)
  offline : ∀ i, (t.port ⟨b, i⟩).state = .offline ∧ (t.port ⟨b, i⟩).optic = none

/-- The stop of a powered blade's link leaves its record but for the power enable. -/
theorem stopped_left (w : Work) (b : Slot) : ∃ y, Admits (w.st.setZiu y.ziu) y ∧ y.pau.ports = w.st.pau.ports ∧ (∀ c, c ≠ b → y.blade c = w.st.blade c) ∧
    (y.blade b).pulled = (w.st.blade b).pulled ∧
    (if (w.st.blade b).state.powered then stopLink (w.setBlade b { w.st.blade b with powerEn := false }) b else w).st = y := by
  split
  · have hset : Admits w.st (w.setBlade b { w.st.blade b with powerEn := false }).st := admits_setBlade _ _ _
    have hother : ∀ c, c ≠ b → (w.setBlade b { w.st.blade b with powerEn := false }).st.blade c = w.st.blade c := fun c hc => by simp [hc]
    have hself : ((w.setBlade b { w.st.blade b with powerEn := false }).st.blade b).pulled = (w.st.blade b).pulled := by simp [Blade.pulled]
    have hports : (w.setBlade b { w.st.blade b with powerEn := false }).st.pau.ports = w.st.pau.ports := rfl
    generalize w.setBlade b { w.st.blade b with powerEn := false } = v at hset hother hself hports ⊢
    by_cases hdown : (v.st.link b).state = .down
    · rw [stopLink_of_down hdown]
      exact ⟨v.st, { hset with ziu := rfl }, hports, hother, hself, rfl⟩
    · rw [stopLink_of_not_down hdown]
      have habandoned := abandonLink_abandoned v b
      generalize abandonLink v b = x at habandoned ⊢
      have hblade : ∀ c, x.st.blade c = v.st.blade c := fun c => by unfold State.blade; rw [habandoned.pau]
      refine ⟨x.st.setLink b (x.st.link b).downed, ?_, ?_, fun c hc => (hblade c).trans (hother c hc), ?_, rfl⟩
      · exact Admits.ziu_trans { hset with ziu := rfl } (habandoned.admits.trans (admits_setLink _ _ _))
      · exact (congrArg Pau.ports habandoned.pau).trans hports
      · exact (congrArg Blade.pulled (hblade b)).trans hself
  · exact ⟨w.st, { Admits.refl _ with ziu := rfl }, rfl, fun _ _ => rfl, rfl, rfl⟩

theorem removeBlade_pulled (w : Work) (b : Slot) : Pulled b w.st (removeBlade w b).st := by
  obtain ⟨y, hadmits, hports, hothers, hblade, hst⟩ := stopped_left w b
  unfold removeBlade
  dsimp only
  generalize (if (w.st.blade b).state.powered then stopLink (w.setBlade b { w.st.blade b with powerEn := false }) b else w) = v at hst ⊢
  generalize hx : releaseBase (moveBlade v b _) _ = x
  have hxst : x.st = y.setBlade b (w.st.blade b).pulled := by
    rw [← hblade, ← hx, ← hst]
    unfold releaseBase
    split <;> exact moveBlade_st _ _ _
  have hout := settled_bladeOutOfService (w := x) (.refl _) b
  have hport := bladeOutOfService_port x b
  generalize bladeOutOfService x b = z at hout hport ⊢
  rw [hxst] at hout
  have hyport : ∀ q, x.st.port q = w.st.port q := fun q => by
    rw [hxst]
    show y.port q = _
    unfold State.port
    rw [hports]
  have hself : ((y.setBlade b (w.st.blade b).pulled).blade b) = (w.st.blade b).pulled := by rw [State.blade_setBlade, if_pos rfl]
  have hadmitted : Admits (w.st.setZiu z.st.ziu) z.st := by
    have h := hadmits.ziu_trans (t := z.st) (by
      have h := (admits_setBlade y b (w.st.blade b).pulled).trans hout.admits
      exact { h with ziu := rfl })
    exact h
  refine ⟨?_, ?_, fun c hc hs => ?_, fun q hq => ?_, fun i => ?_⟩
  · exact hadmitted.trans { Admits.refl z.st with }
  · show z.st.blade b = _
    rw [hout.blade b (by rw [hself]; nofun), hself]
  · show z.st.blade c = _
    have hkept : (y.setBlade b (w.st.blade b).pulled).blade c = w.st.blade c := by rw [State.blade_setBlade, if_neg hc, hothers c hc]
    rw [hout.blade c (by rw [hkept]; exact hs), hkept]
  · rw [Work.map_st, forgetOptics_port, if_neg hq, hport, if_neg hq, hyport]
    exact .refl _
  · rw [Work.map_st, forgetOptics_port, if_pos rfl, hport, if_pos rfl]
    exact ⟨Port.outOfService_state _, rfl⟩

/-! ### The targets and the settling behind them -/

/-- The targets and settling change of the fans' unit zones and rotors alone, and of an OFFLINE port in no list nothing. -/
theorem settledTargets (v : Work) : ∃ F : Ftu, F.temps = v.st.ftu.temps ∧ Settled (v.st.setFtu F) (settle (targetStep v)).st ∧
    (v.st.waitsMatch → ∀ p, (v.st.port p).state = .offline → (settle (targetStep v)).st.port p = v.st.port p) := by
  have htargeted := (targeted_targetStep v).rest
  generalize targetStep v = x at htargeted ⊢
  have hsettled := settle_settled x
  have hx : x.st = v.st.setFtu { v.st.ftu with zones := x.st.ftu.zones, rotors := x.st.ftu.rotors } := htargeted
  refine ⟨{ v.st.ftu with zones := x.st.ftu.zones, rotors := x.st.ftu.rotors }, rfl, by rw [← hx]; exact hsettled, fun hmatch p hp => ?_⟩
  have hport : x.st.port p = v.st.port p := by rw [hx]; rfl
  have hidle : x.st.idlePort p := by
    rw [hx]
    exact idlePort_of_waitsMatch (s := v.st) hmatch (by rw [hp]; nofun) (by rw [hp]; nofun)
  have hrest := (settle_atRest hidle (by rw [hport, hp]; nofun)).port
  rw [hport] at hrest
  generalize (settle x).st.port p = y at hrest ⊢
  cases hrest with
  | same => rfl
  | off h => rw [hp] at h; cases h
  | flag h => rw [hp] at h; cases h

/-- The frame where lines and the fans' unit have changed as well. -/
theorem Admits.pinsFtuFrame {x : Pins} {y : Ftu} (h : Admits ((s.setPins x).setFtu y) w.st) (o : State) :
    admissionFrame { s with pins := (publish o w).pins, ftu := (publish o w).ftu } (publish o w) := by
  have hframe := h.frame o
  rw [publish_pins, h.pins, publish_ftu, h.ftu]
  exact hframe

theorem Admits.pinsFtuZiuFrame {x : Pins} {y : Ftu} {z : Ziu} (h : Admits (((s.setPins x).setFtu y).setZiu z) w.st) (o : State) :
    admissionFrame { s with pins := (publish o w).pins, ftu := (publish o w).ftu, ziu := (publish o w).ziu } (publish o w) := by
  have hframe := h.frame o
  rw [publish_pins, h.pins, publish_ftu, h.ftu, publish_ziu, h.ziu]
  exact hframe

/-! ### The two commands -/

/-- A blade is seated in an ABSENT slot. -/
theorem bladeInserted_left (hpresent : s.pins.bladePresent.get b = false) (habsent : (s.blade b).state = .absent) :
    ∃ t, exec (.bladeInserted b) s = .next t ∧ t.pins = { s.pins with bladePresent := Vector.put s.pins.bladePresent b true } ∧
      (t.blade b).state = .settling ∧
      (t.blade b).debounceAt = some (s.now + sec 1) ∧ (t.blade b).powerEn = false ∧ otherBladesKept s t b ∧
      (s.waitsMatch → (∀ i, (s.port ⟨b, i⟩).state = .offline) → ∀ i, t.port ⟨b, i⟩ = s.port ⟨b, i⟩) ∧
      (∀ q, (t.port q).asks = (s.port q).asks) ∧ admissionFrame { s with pins := t.pins, ftu := t.ftu } t := by
  show ∃ t, execBladeInserted b s = .next t ∧ _
  refine answered (by rw [hpresent]; rfl) ?_
  rw [if_pos habsent]
  generalize hv : moveBlade ((Work.start s).map fun s => setPresent s b true) b _ = v
  have hst : v.st = (setPresent s b true).setBlade b { s.blade b with
      state := .settling, debounceAt := some (s.now + sec 1), debounced := false, powerEn := false } := by
    rw [← hv, moveBlade_st]
    rfl
  obtain ⟨F, -, hsettled, hports⟩ := settledTargets v
  generalize settle (targetStep v) = w at hsettled hports ⊢
  rw [hst] at hsettled
  have hseated : ((setPresent s b true).setBlade b { s.blade b with
      state := .settling, debounceAt := some (s.now + sec 1), debounced := false, powerEn := false }).blade b = { s.blade b with
      state := .settling, debounceAt := some (s.now + sec 1), debounced := false, powerEn := false } := by
    rw [State.blade_setBlade, if_pos rfl]
  have hself := (hsettled.blade b (fun h => nomatch (congrArg Blade.state hseated).symm.trans h)).trans hseated
  refine ⟨hsettled.pins, congrArg Blade.state hself, congrArg Blade.debounceAt hself, congrArg Blade.powerEn hself, fun c hc hs => ?_,
    fun hmatch hoff i => ?_, fun q => (hsettled.port q).asks, ?_⟩
  · have hother : ((setPresent s b true).setBlade b { s.blade b with
        state := .settling, debounceAt := some (s.now + sec 1), debounced := false, powerEn := false }).blade c = s.blade c := by
      rw [State.blade_setBlade, if_neg hc]
      rfl
    exact (hsettled.blade c (fun h => hs ((congrArg Blade.state hother).symm.trans h))).trans hother
  · have hport : v.st.port ⟨b, i⟩ = s.port ⟨b, i⟩ := by rw [hst]; rfl
    rw [← hport]
    exact hports (by rw [hst]; exact hmatch) _ (by rw [hport]; exact hoff i)
  · have hadmits := hsettled.admits
    exact Admits.pinsFtuFrame (x := { s.pins with bladePresent := Vector.put s.pins.bladePresent b true }) (y := F)
      { hadmits with } s

/-- A blade is pulled. -/
theorem bladeRemoved_left (hpresent : s.pins.bladePresent.get b = true) : ∃ t, exec (.bladeRemoved b) s = .next t ∧
    t.pins = { s.pins with bladePresent := Vector.put s.pins.bladePresent b false } ∧
    (t.blade b).state = .absent ∧ (t.blade b).cause = .removed ∧ (t.blade b).base = 0 ∧
    (t.blade b).powerEn = false ∧ (t.blade b).portCount = none ∧ t.ftu.temps.get b = BladeTemp.reset ∧
    (s.waitsMatch → ∀ i, (t.port ⟨b, i⟩).state = .offline ∧ (t.port ⟨b, i⟩).units = 0 ∧ (t.port ⟨b, i⟩).xdUnits = 0 ∧
      (t.port ⟨b, i⟩).draw t.plu.inUse = 0) ∧
    (∀ i, (t.port ⟨b, i⟩).optic = none) ∧ otherBladesKept s t b ∧
    (∀ q, q.slot ≠ b → (t.port q).asks = (s.port q).asks) ∧ admissionFrame { s with pins := t.pins, ftu := t.ftu, ziu := t.ziu } t := by
  show ∃ t, execBladeRemoved b s = .next t ∧ _
  refine answered hpresent ?_
  have hpulled := removeBlade_pulled ((Work.start s).map fun s => setPresent s b false) b
  have hwaits := (reached_removeBlade (k := .invariants) ((Reached.start s).map (fun s => setPresent s b false) (kept_setPins _ _)) b).st.waits trivial
  have hst0 : ((Work.start s).map fun s => setPresent s b false).st = setPresent s b false := rfl
  generalize removeBlade ((Work.start s).map fun s => setPresent s b false) b = u at hpulled hwaits ⊢
  rw [hst0] at hpulled
  obtain ⟨F, htemps, hsettled, hports⟩ := settledTargets (forgetTemp u b)
  generalize settle (targetStep (forgetTemp u b)) = w at hsettled hports ⊢
  have hst : (forgetTemp u b).st = u.st.setFtu { u.st.ftu with temps := Vector.put u.st.ftu.temps b .reset } := rfl
  rw [hst] at hsettled hports htemps
  obtain ⟨hadmits, hblade, hothers, hportsKept, hoffline⟩ := hpulled
  have hself : (publish s w).blade b = (s.blade b).pulled := (hsettled.blade b (by
    show (u.st.blade b).state ≠ _
    rw [hblade]
    nofun)).trans hblade
  have hoptic : ∀ i, ((publish s w).port ⟨b, i⟩).optic = none := fun i => (hsettled.port ⟨b, i⟩).optic.trans (hoffline i).2
  refine ⟨hsettled.pins.trans hadmits.pins, congrArg Blade.state hself, congrArg Blade.cause hself, congrArg Blade.base hself,
    congrArg Blade.powerEn hself, congrArg Blade.portCount hself, ?_, fun hmatch i => ?_, hoptic, fun c hc hs => ?_, fun q hq => ?_, ?_⟩
  · rw [publish_ftu, hsettled.ftu, State.setFtu_ftu, htemps]
    exact (Vector.get_put _ _ _ _).trans (if_pos rfl)
  · have hkept : (publish s w).port ⟨b, i⟩ = u.st.port ⟨b, i⟩ := hports (hwaits hmatch) _ (hoffline i).1
    have hoff : ((publish s w).port ⟨b, i⟩).state = .offline := (congrArg Port.state hkept).trans (hoffline i).1
    exact ⟨hoff, offline_holds_nothing hoff _⟩
  · have hu := hothers c hc hs
    exact (hsettled.blade c (by show (u.st.blade c).state ≠ _; rw [hu]; exact hs)).trans hu
  · exact ((hportsKept q hq).trans (hsettled.port q)).asks
  · refine Admits.pinsFtuZiuFrame (x := { s.pins with bladePresent := Vector.put s.pins.bladePresent b false }) (y := F) (z := u.st.ziu) ?_ s
    exact ({ hadmits with ftu := rfl } : Admits (((setPresent s b false).setFtu F).setZiu u.st.ziu) (u.st.setFtu F)).trans hsettled.admits

/-- Settles O44: the seated blade changes its record alone, the removal takes every port of its slot off, and each operation on a port
takes it out of its list before it changes its state. -/
theorem bladeSeatedAndPulled : Obligations.BladeSeatedAndPulled :=
  ⟨fun _ _ hpresent habsent => bladeInserted_left hpresent habsent, fun _ _ hpresent => bladeRemoved_left hpresent, fun _ _ => step_waitsMatch⟩

end Sys2Proof.Machine
end

section
/-! PROOFS. The service order: the arbiter's picks are the turns that Table 3.4-2 gives. -/

set_option Elab.async false

namespace Sys2Proof.Machine

variable {s t : State} {a : Access} {p : Access → Bool}

/-! ### The eligible accesses -/

theorem Access.clashes_eq_false (a x : Access) : a.clashes x = false ↔ ∀ l ∈ a.lines, l ∉ x.lines := by
  unfold Access.clashes
  simp

theorem Access.clashes_self (a : Access) : a.clashes a = true := by
  have hne : a.lines ≠ [] := by
    unfold Access.lines
    split <;> exact List.cons_ne_nil _ _
  obtain ⟨l, rest, hl⟩ := List.exists_cons_of_ne_nil hne
  unfold Access.clashes
  rw [hl]
  simp

/-- An access stands at a place of a list, free of those before it and of some others. -/
def freeAt (before after : List Access) (i : Nat) (a : Access) : Prop :=
  after[i]? = some a ∧ (∀ x ∈ before, a.clashes x = false) ∧ ∀ j x, j < i → after[j]? = some x → a.clashes x = false

theorem freeAt_zero (before : List Access) (y : Access) (after : List Access) (a : Access) :
    freeAt before (y :: after) 0 a ↔ y = a ∧ ∀ x ∈ before, y.clashes x = false := by
  unfold freeAt
  constructor
  · rintro ⟨h, hb, -⟩
    obtain rfl : y = a := by simpa using h
    exact ⟨rfl, hb⟩
  · rintro ⟨rfl, hb⟩
    exact ⟨rfl, hb, fun j x hj => absurd hj (Nat.not_lt_zero j)⟩

theorem freeAt_succ (before : List Access) (y : Access) (after : List Access) (i : Nat) (a : Access) :
    freeAt before (y :: after) (i + 1) a ↔ freeAt (before ++ [y]) after i a := by
  unfold freeAt
  constructor
  · rintro ⟨h, hb, hj⟩
    refine ⟨by simpa using h, fun x hx => ?_, fun j x hlt hx => hj (j + 1) x (by omega) (by simpa using hx)⟩
    rcases List.mem_append.1 hx with hx | hx
    · exact hb x hx
    · rw [List.mem_singleton.1 hx]
      exact hj 0 y (by omega) rfl
  · rintro ⟨h, hb, hj⟩
    refine ⟨by simpa using h, fun x hx => hb x (List.mem_append_left _ hx), fun j x hlt hx => ?_⟩
    cases j with
    | zero =>
      obtain rfl : y = x := by simpa using hx
      exact hb y (by simp)
    | succ j => exact hj j x (by omega) (by simpa using hx)

/-- The first of the eligible accesses with a property is the first that is free with it; with none there is none. -/
theorem find_eligibleFrom : ∀ (after before : List Access),
    (∀ a, (eligibleFrom before after).find? p = some a → p a = true ∧ ∃ i, freeAt before after i a ∧ ∀ j x, j < i → freeAt before after j x → p x = false) ∧
      ((eligibleFrom before after).find? p = none → ∀ i x, freeAt before after i x → p x = false)
  | [], before => ⟨fun a h => (nomatch h), fun _ i x h => by simp [freeAt] at h⟩
  | y :: after, before => by
    obtain ⟨ihsome, ihnone⟩ := find_eligibleFrom after (before ++ [y])
    have hlater : (∀ x, freeAt before (y :: after) 0 x → p x = false) →
        (∀ a, (eligibleFrom (before ++ [y]) after).find? p = some a →
          p a = true ∧ ∃ i, freeAt before (y :: after) i a ∧ ∀ j x, j < i → freeAt before (y :: after) j x → p x = false) ∧
        ((eligibleFrom (before ++ [y]) after).find? p = none → ∀ i x, freeAt before (y :: after) i x → p x = false) := by
      refine fun hzero => ⟨fun a h => ?_, fun h i x hx => ?_⟩
      · obtain ⟨hp, i, hi, hbefore⟩ := ihsome a h
        refine ⟨hp, i + 1, (freeAt_succ _ _ _ _ _).2 hi, fun j x hj hx => ?_⟩
        cases j with
        | zero => exact hzero x hx
        | succ j => exact hbefore j x (by omega) ((freeAt_succ _ _ _ _ _).1 hx)
      · cases i with
        | zero => exact hzero x hx
        | succ i => exact ihnone h i x ((freeAt_succ _ _ _ _ _).1 hx)
    unfold eligibleFrom
    split
    · next hclash =>
      refine hlater fun x hx => ?_
      obtain ⟨rfl, hfree⟩ := (freeAt_zero _ _ _ _).1 hx
      obtain ⟨b, hb, hbad⟩ := List.any_eq_true.1 hclash
      rw [hfree b hb] at hbad
      cases hbad
    · next hclash =>
      have hfree : freeAt before (y :: after) 0 y := (freeAt_zero _ _ _ _).2 ⟨rfl, fun x hx => by
        by_contra h
        exact hclash (List.any_eq_true.2 ⟨x, hx, by simpa using h⟩)⟩
      cases hp : p y with
      | true =>
        rw [List.find?_cons_of_pos hp]
        refine ⟨fun a h => ?_, fun h => (nomatch h)⟩
        obtain rfl : y = a := Option.some.inj h
        exact ⟨hp, 0, hfree, fun j x hj => absurd hj (Nat.not_lt_zero j)⟩
      | false =>
        rw [List.find?_cons_of_neg (by rw [hp]; exact Bool.false_ne_true)]
        refine hlater fun x hx => ?_
        obtain ⟨rfl, -⟩ := (freeAt_zero _ _ _ _).1 hx
        exact hp

theorem eligibleAt_iff (s : State) (i : Nat) (a : Access) : s.eligibleAt i a ↔ freeAt [] s.tmc.presented i a := by
  unfold State.eligibleAt freeAt
  simp only [Access.clashes_eq_false, List.not_mem_nil, false_implies, implies_true, true_and]

/-- An access is eligible at one place alone, its first. -/
theorem State.eligibleAt.first {i j : Nat} (h : s.eligibleAt i a) (hj : s.tmc.presented[j]? = some a) : i ≤ j := by
  by_contra hlt
  have hfree := ((eligibleAt_iff s i a).1 h).2.2 j a (by omega) hj
  rw [a.clashes_self] at hfree
  cases hfree

/-- The first eligible access with a property is the oldest. -/
theorem find_eligible_of_oldest {q : Access → Prop} (hq : ∀ x, p x = true ↔ q x) (h : s.oldest q a) : s.tmc.eligible.find? p = some a := by
  obtain ⟨hpa, i, hi, hbefore⟩ := h
  obtain ⟨hsome, hnone⟩ := find_eligibleFrom (p := p) s.tmc.presented []
  unfold Tmc.eligible
  cases hfind : (eligibleFrom [] s.tmc.presented).find? p with
  | none =>
    have := hnone hfind i a ((eligibleAt_iff s i a).1 hi)
    rw [(hq a).2 hpa] at this
    cases this
  | some b =>
    obtain ⟨hpb, j, hj, hfirst⟩ := hsome b hfind
    have hle : ¬i < j := fun hlt => by
      have := hfirst i a hlt ((eligibleAt_iff s i a).1 hi)
      rw [(hq a).2 hpa] at this
      cases this
    have hge : ¬j < i := fun hlt => hbefore j b hlt ((eligibleAt_iff s j b).2 hj) ((hq b).1 hpb)
    obtain rfl : i = j := by omega
    have hsame : some a = some b := hi.1.symm.trans hj.1
    exact hsame.symm

theorem find_eligible_of_none {q : Access → Prop} (hq : ∀ x, p x = true ↔ q x) (h : s.noneEligible q) : s.tmc.eligible.find? p = none := by
  obtain ⟨hsome, -⟩ := find_eligibleFrom (p := p) s.tmc.presented []
  unfold Tmc.eligible
  cases hfind : (eligibleFrom [] s.tmc.presented).find? p with
  | none => rfl
  | some b =>
    obtain ⟨hpb, j, hj, -⟩ := hsome b hfind
    exact absurd ((hq b).1 hpb) (h j b ((eligibleAt_iff s j b).2 hj))

/-- Where one is eligible, the oldest is found. -/
theorem find_eligible_of_some {q : Access → Prop} (hq : ∀ x, p x = true ↔ q x) (h : ¬s.noneEligible q) : ∃ x, s.tmc.eligible.find? p = some x := by
  obtain ⟨-, hnone⟩ := find_eligibleFrom (p := p) s.tmc.presented []
  unfold Tmc.eligible
  cases hfind : (eligibleFrom [] s.tmc.presented).find? p with
  | some b => exact ⟨b, rfl⟩
  | none =>
    refine absurd (fun i x hx hqx => ?_) h
    have := hnone hfind i x ((eligibleAt_iff s i x).1 hx)
    rw [(hq x).2 hqx] at this
    cases this

theorem mem_eligible_iff (s : State) (a : Access) : a ∈ s.tmc.eligible ↔ ∃ i, s.eligibleAt i a := by
  have hq : ∀ x : Access, decide (x = a) = true ↔ x = a := fun x => decide_eq_true_iff
  constructor
  · intro h
    by_contra hnone
    have := find_eligible_of_none (s := s) hq (fun i x hx he => hnone ⟨i, he ▸ hx⟩)
    exact List.find?_eq_none.1 this a h (decide_eq_true rfl)
  · rintro ⟨i, hi⟩
    obtain ⟨x, hx⟩ := find_eligible_of_some (s := s) hq (fun hnone => hnone i a hi rfl)
    rw [← of_decide_eq_true (List.find?_some (p := fun x => decide (x = a)) hx)]
    exact List.mem_of_find?_eq_some hx

end Sys2Proof.Machine
end

section
/-! PROOFS. The arbiter's picks of each class, and its choice row by row. -/

set_option Elab.async false

namespace Sys2Proof.Machine

variable {s t : State} {a : Access}

/-! ### The bus and the scrubs -/

theorem pickTbp_some (h : s.oldest (fun x => x.kind.isTbp = true) a) : s.tmc.pickTbp = some a := find_eligible_of_oldest (fun _ => Iff.rfl) h

theorem pickTbp_none (h : s.noneEligible (fun x => x.kind.isTbp = true)) : s.tmc.pickTbp = none := find_eligible_of_none (fun _ => Iff.rfl) h

theorem pickScrub_some (h : s.scrubTurn a) : s.tmc.pickScrub = some a := by
  unfold Tmc.pickScrub
  rcases h with ⟨n, e, he, hold, hbefore⟩ | ⟨hnone, hold⟩
  · refine (congrArg (fun x => Option.or x _) (List.findSome?_eq_some_iff.2 ⟨s.tmc.deferred.take n, e, s.tmc.deferred.drop (n + 1), ?_, ?_, ?_⟩)).trans rfl
    · obtain ⟨hlt, rfl⟩ := List.getElem?_eq_some_iff.1 he
      rw [List.getElem_cons_drop, List.take_append_drop]
    · exact find_eligible_of_oldest (fun x => decide_eq_true_iff) hold
    · intro f hf
      obtain ⟨m, hm, rfl⟩ := List.mem_take_iff_getElem.1 hf
      exact find_eligible_of_none (fun x => decide_eq_true_iff) (hbefore m _ (by omega) (List.getElem?_eq_getElem _))
  · have hfirst : s.tmc.deferred.findSome? (fun e => s.tmc.eligible.find? (fun a => decide (a.kind.scrub = some e))) = none :=
      List.findSome?_eq_none_iff.2 fun e he => find_eligible_of_none (fun x => decide_eq_true_iff) (hnone e he)
    rw [hfirst, Option.none_or]
    exact find_eligible_of_oldest (fun x => decide_eq_true_iff) hold

/-! ### The internal classes -/

/-- The access is a token read. -/
def Access.isToken (a : Access) : Bool :=
  match a.kind with
  | .token _ => true
  | _ => false

theorem Access.isToken_iff (a : Access) : a.isToken = true ↔ a.forToken := by
  unfold Access.isToken Access.forToken
  split
  · next k h => exact ⟨fun _ => ⟨k, h⟩, fun _ => rfl⟩
  · next h => exact ⟨fun h => (nomatch h), fun ⟨k, hk⟩ => absurd hk (h k)⟩

/-- The pick of a place: of its eligible accesses, the first of the kind whose turn it is, or else the first of the other. -/
theorem pickPlace_eq (t : Tmc) (p : InternalPlace) : t.pickPlace p =
    let tokens := t.eligible.find? (fun x => decide (x.kind.place = some p) && x.isToken)
    let others := t.eligible.find? (fun x => decide (x.kind.place = some p) && !x.isToken)
    if t.tokenNext then tokens.or others else others.or tokens := by
  have hfind : ∀ q : Access → Bool, ((t.eligible.filter (fun x => decide (x.kind.place = some p))).filter q).head? =
      t.eligible.find? (fun x => decide (x.kind.place = some p) && q x) := fun q => by
    rw [List.filter_filter, List.head?_filter]
    exact congrArg (fun f => List.find? f _) (funext fun x => Bool.and_comm _ _)
  unfold Tmc.pickPlace
  dsimp only
  rw [← hfind, ← hfind, ← List.head?_append, ← List.head?_append]
  rfl

theorem pickPlace_none {p : InternalPlace} (h : s.noneEligible (fun x => x.kind.place = some p)) : s.tmc.pickPlace p = none := by
  have hnone : ∀ q : Access → Bool, s.tmc.eligible.find? (fun x => decide (x.kind.place = some p) && q x) = none := fun q => by
    refine find_eligible_of_none (q := fun x => x.kind.place = some p ∧ q x = true) (fun x => by simp) fun i x hx hq => ?_
    exact h i x hx hq.1
  rw [pickPlace_eq]
  dsimp only
  rw [hnone, hnone]
  split <;> rfl

/-- The first of two finds, where the first finds or finds none and the second finds. -/
theorem pickPlace_some {p : InternalPlace} (hold : s.oldest (fun x => x.kind.place = some p ∧ (x.forToken ↔ a.forToken)) a)
    (hturn : (a.forToken ↔ s.tmc.tokenNext = true) ∨ s.noneEligible (fun x => x.kind.place = some p ∧ ¬(x.forToken ↔ a.forToken))) :
    s.tmc.pickPlace p = some a := by
  have hfound : ∀ q : Access → Bool, (∀ x, q x = true ↔ (x.forToken ↔ a.forToken)) →
      s.tmc.eligible.find? (fun x => decide (x.kind.place = some p) && q x) = some a := fun q hq =>
    find_eligible_of_oldest (fun x => by simp [hq]) hold
  have hother : s.noneEligible (fun x => x.kind.place = some p ∧ ¬(x.forToken ↔ a.forToken)) → ∀ q : Access → Bool,
      (∀ x, q x = true ↔ ¬(x.forToken ↔ a.forToken)) → s.tmc.eligible.find? (fun x => decide (x.kind.place = some p) && q x) = none :=
    fun hnone q hq => find_eligible_of_none (fun x => by simp [hq]) hnone
  rw [pickPlace_eq]
  dsimp only
  by_cases ha : a.forToken
  · have htokens := hfound Access.isToken fun x => by rw [x.isToken_iff]; simp [ha]
    rw [htokens]
    rcases hturn with hnext | hnone
    · rw [if_pos (hnext.1 ha)]
      rfl
    · rw [hother hnone (fun x => !x.isToken) fun x => by rw [Bool.not_eq_true', ← Bool.not_eq_true, x.isToken_iff]; simp [ha]]
      split <;> rfl
  · have hothers := hfound (fun x => !x.isToken) fun x => by rw [Bool.not_eq_true', ← Bool.not_eq_true, x.isToken_iff]; simp [ha]
    rw [hothers]
    rcases hturn with hnext | hnone
    · rw [if_neg fun h => ha (hnext.2 h)]
      rfl
    · rw [hother hnone Access.isToken fun x => by rw [x.isToken_iff]; simp [ha]]
      split <;> rfl

/-- The rotation serves a place at its distance from the one last served. -/
theorem after_split (last p : InternalPlace) : ∃ pre post, last.after = pre ++ p :: post ∧
    ∀ q ∈ pre, ¬p.rank - last.rank - 1 ≤ q.rank - last.rank - 1 := by
  cases last <;> cases p
  · exact ⟨[.validator, .resync], [], rfl, by decide⟩
  · exact ⟨[], [.resync, .swq], rfl, by decide⟩
  · exact ⟨[.validator], [.swq], rfl, by decide⟩
  · exact ⟨[.resync], [.validator], rfl, by decide⟩
  · exact ⟨[.resync, .swq], [], rfl, by decide⟩
  · exact ⟨[], [.swq, .validator], rfl, by decide⟩
  · exact ⟨[], [.validator, .resync], rfl, by decide⟩
  · exact ⟨[.swq], [.resync], rfl, by decide⟩
  · exact ⟨[.swq, .validator], [], rfl, by decide⟩

theorem pickInternal_some (h : s.internalTurn a) : s.tmc.pickInternal = some a := by
  obtain ⟨p, -, hnearest, hold, hturn⟩ := h
  obtain ⟨pre, post, hsplit, hbefore⟩ := after_split s.tmc.lastInternal p
  exact List.findSome?_eq_some_iff.2 ⟨pre, p, post, hsplit, pickPlace_some hold hturn, fun q hq =>
    pickPlace_none fun i x hx hplace => hbefore q hq (hnearest q i x hx hplace)⟩

theorem pickInternal_none (h : s.noneEligible (fun x => x.kind.isInternal = true)) : s.tmc.pickInternal = none :=
  List.findSome?_eq_none_iff.2 fun p _ => pickPlace_none fun i x hx hplace => h i x hx (by
    show x.kind.place.isSome = true
    rw [show x.kind.place = some p from hplace]
    rfl)

/-! ### The fetch reads -/

/-- What the arbiter finds for one slot. -/
def Tmc.fetchOf (t : Tmc) (b : Slot) : Option Access :=
  match t.firstFetch b with
  | some a => if t.eligible.contains a then some a else none
  | none => none

theorem fetchOf_some {b : Slot} (h : s.fetchReady b a) : s.tmc.fetchOf b = some a := by
  obtain ⟨i, hi, hslot, hfirst⟩ := h
  have hfind : s.tmc.firstFetch b = some a := by
    refine List.find?_eq_some_iff_getElem.2 ⟨decide_eq_true hslot, ?_⟩
    obtain ⟨hlt, heq⟩ := List.getElem?_eq_some_iff.1 hi.1
    refine ⟨i, hlt, heq, fun j hj => ?_⟩
    simpa using hfirst j _ hj (List.getElem?_eq_getElem _)
  have hmem : s.tmc.eligible.contains a = true := List.contains_iff_mem.2 ((mem_eligible_iff s a).2 ⟨i, hi⟩)
  unfold Tmc.fetchOf
  rw [hfind]
  exact if_pos hmem

theorem fetchReady_of_fetchOf {b : Slot} (h : s.tmc.fetchOf b = some a) : s.fetchReady b a := by
  unfold Tmc.fetchOf at h
  split at h
  · next x hx =>
    split at h
    · next hmem =>
      obtain rfl : x = a := Option.some.inj h
      obtain ⟨i, hi⟩ := (mem_eligible_iff s x).1 (List.contains_iff_mem.1 hmem)
      obtain ⟨hslot, j, hlt, heq, hfirst⟩ := List.find?_eq_some_iff_getElem.1 hx
      have hij := hi.first (List.getElem?_eq_some_iff.2 ⟨hlt, heq⟩)
      refine ⟨i, hi, of_decide_eq_true hslot, fun k y hk hy => ?_⟩
      obtain ⟨hklt, rfl⟩ := List.getElem?_eq_some_iff.1 hy
      simpa using hfirst k (by omega)
    · cases h
  · cases h

theorem pickFetch_eq (t : Tmc) : t.pickFetch = (rotation t.lastSlot).findSome? t.fetchOf := rfl

/-- The rotation reaches a slot at its distance from the one last granted. -/
theorem rotation_split (last b : Slot) : rotation last = (rotation last).take (b - last - 1).1 ++ b :: (rotation last).drop ((b - last - 1).1 + 1) ∧
    ∀ c ∈ (rotation last).take (b - last - 1).1, ¬b - last - 1 ≤ c - last - 1 := by
  revert last b
  decide +kernel

theorem pickFetch_some (h : s.fetchTurn a) : s.tmc.pickFetch = some a := by
  obtain ⟨b, hready, hnearest⟩ := h
  obtain ⟨hsplit, hbefore⟩ := rotation_split s.tmc.lastSlot b
  refine List.findSome?_eq_some_iff.2 ⟨_, b, _, hsplit, fetchOf_some hready, fun c hc => ?_⟩
  show s.tmc.fetchOf c = none
  cases hfound : s.tmc.fetchOf c with
  | none => rfl
  | some x => exact absurd (hnearest c x (fetchReady_of_fetchOf hfound)) (hbefore c hc)

theorem pickFetch_none (h : ∀ b x, ¬s.fetchReady b x) : s.tmc.pickFetch = none := by
  refine List.findSome?_eq_none_iff.2 fun b _ => ?_
  show s.tmc.fetchOf b = none
  cases hfound : s.tmc.fetchOf b with
  | none => rfl
  | some x => exact absurd (fetchReady_of_fetchOf hfound) (h b x)

/-! ### The choice -/

/-- What rows 2 and 3 of Table 3.4-2 grant. -/
def Tmc.due (t : Tmc) : Option Access :=
  (if t.tbpWait = 3 then t.pickTbp else none).or (if 6 ≤ t.internalWait then t.pickInternal else none)

theorem choose_access (hdebt : s.tmc.debt < 8) (h : ((s.tmc.due.or s.tmc.pickFetch).or s.tmc.pickTbp).or s.tmc.pickInternal = some a) :
    choose s = .access a := by
  unfold choose
  dsimp only
  rw [if_neg (by omega)]
  unfold Tmc.due at h
  rw [h]

theorem choose_rest (hdebt : s.tmc.debt < 8) (h : s.noTraffic) :
    choose s = if 0 < s.tmc.debt then .refresh else match s.tmc.pickScrub with
      | some a => .access a
      | none => .nothing := by
  obtain ⟨hfetch, htbp, hinternal⟩ := h
  unfold choose
  dsimp only
  rw [if_neg (by omega), pickFetch_none hfetch, pickTbp_none htbp, pickInternal_none hinternal, ite_self, ite_self]
  rfl

theorem due_none (htbp : ¬(s.tmc.tbpWait = 3 ∧ ¬s.noneEligible (fun x => x.kind.isTbp = true)))
    (hinternal : ¬(6 ≤ s.tmc.internalWait ∧ ¬s.noneEligible (fun x => x.kind.isInternal = true))) : s.tmc.due = none := by
  have h1 : (if s.tmc.tbpWait = 3 then s.tmc.pickTbp else none) = none := by
    split
    · next h => exact pickTbp_none (not_not.1 fun hn => htbp ⟨h, hn⟩)
    · rfl
  have h2 : (if 6 ≤ s.tmc.internalWait then s.tmc.pickInternal else none) = none := by
    split
    · next h => exact pickInternal_none (not_not.1 fun hn => hinternal ⟨h, hn⟩)
    · rfl
  unfold Tmc.due
  rw [h1, h2]
  rfl

/-- The access that Table 3.4-2 serves is the one chosen. -/
theorem choose_of_serves (h : s.serves a) : choose s = .access a := by
  obtain ⟨hdebt, hrow⟩ := h
  rcases hrow with ⟨⟨hwait, -⟩, hold⟩ | ⟨htbp, ⟨hwait, -⟩, hturn⟩ | ⟨htbp, hinternal, hturn⟩ | ⟨htbp, hinternal, hfetch, hold⟩ |
    ⟨htbp, hinternal, hfetch, hnone, hturn⟩ | ⟨hnone, hzero, hturn⟩
  · refine choose_access hdebt ?_
    unfold Tmc.due
    rw [if_pos hwait, pickTbp_some hold]
    rfl
  · have h1 : (if s.tmc.tbpWait = 3 then s.tmc.pickTbp else none) = none := by
      split
      · next h => exact pickTbp_none (not_not.1 fun hn => htbp ⟨h, hn⟩)
      · rfl
    refine choose_access hdebt ?_
    unfold Tmc.due
    rw [h1, if_pos hwait, pickInternal_some hturn]
    rfl
  · refine choose_access hdebt ?_
    rw [due_none htbp hinternal, pickFetch_some hturn]
    rfl
  · refine choose_access hdebt ?_
    rw [due_none htbp hinternal, pickFetch_none (fun b x hx => hfetch ⟨b, x, hx⟩), pickTbp_some hold]
    rfl
  · refine choose_access hdebt ?_
    rw [due_none htbp hinternal, pickFetch_none (fun b x hx => hfetch ⟨b, x, hx⟩), pickTbp_none hnone, pickInternal_some hturn]
    rfl
  · rw [choose_rest hdebt hnone, if_neg (by omega), pickScrub_some hturn]

end Sys2Proof.Machine
end

section
/-! PROOFS. Line operations: what a read, a scrub and a masked write of a line leave of table memory, its words and the counters. -/

set_option Elab.async false

namespace Sys2Proof.Machine

variable {s t u : State} {line : Nat} {flips : List BitFlip}

/-! ### Word marks -/

theorem Tmc.mark_setMark {t : Tmc} (h : sparseWf .clean t.marks = true) {i j : Nat} (hi : i < 8) (hj : j < 8) (l k : Nat) (m : WordMark) :
    (t.setMark l i m).mark k j = if k = l ∧ j = i then m else t.mark k j :=
  (sparseGet_put WordMark.clean (8 * l + i) (8 * k + j) m t.marks 0 h).trans (if_congr (by omega) rfl rfl)

theorem Tmc.setMark_wf {t : Tmc} (h : sparseWf .clean t.marks = true) (l i : Nat) (m : WordMark) : sparseWf .clean (t.setMark l i m).marks = true :=
  sparseWf_put WordMark.clean _ _ _ h

/-- A fold over distinct words of a line, each step of which renews its own word from its own condition. -/
theorem mark_foldl {f : Tmc → Nat → Tmc} {g : Nat → WordMark → WordMark} (hwf : ∀ t i, sparseWf .clean t.marks = true → sparseWf .clean (f t i).marks = true)
    (hf : ∀ t i, sparseWf .clean t.marks = true → i < 8 → ∀ k j, j < 8 →
      (f t i).mark k j = if k = line ∧ j = i then g i (t.mark line i) else t.mark k j) :
    ∀ (l : List Nat) (t : Tmc), sparseWf .clean t.marks = true → (∀ i ∈ l, i < 8) → l.Nodup → ∀ k j, j < 8 →
      (l.foldl f t).mark k j = if k = line ∧ j ∈ l then g j (t.mark line j) else t.mark k j
  | [], t, _, _, _, k, j, _ => by simp
  | i :: l, t, h, hl, hnodup, k, j, hj => by
    obtain ⟨hi, hrest⟩ := List.nodup_cons.1 hnodup
    have hi8 := hl i List.mem_cons_self
    rw [List.foldl_cons, mark_foldl hwf hf l (f t i) (hwf t i h) (fun x hx => hl x (List.mem_cons_of_mem _ hx)) hrest k j hj,
      hf t i h hi8 k j hj, hf t i h hi8 line j hj]
    by_cases hk : k = line
    · subst hk
      by_cases hji : j = i
      · subst hji
        simp [hi]
      · simp [hji]
    · simp [hk]

theorem applyFlips_marks (line : Nat) : ∀ (flips : List BitFlip) {t u : Tmc}, u.marks = t.marks →
    (u.applyFlips line flips).marks = (t.applyFlips line flips).marks
  | [], _, _, h => h
  | f :: flips, t, u, h => by
    have hstep : (u.setMark line f.word.1 ((u.mark line f.word.1).disturb f.double)).marks =
        (t.setMark line f.word.1 ((t.mark line f.word.1).disturb f.double)).marks :=
      congrArg (fun m => sparsePut WordMark.clean (8 * line + f.word.1) ((sparseGet WordMark.clean m (8 * line + f.word.1)).disturb f.double) m) h
    exact applyFlips_marks line flips hstep

theorem applyFlips_wf (line : Nat) : ∀ (flips : List BitFlip) {t : Tmc}, sparseWf .clean t.marks = true →
    sparseWf .clean (t.applyFlips line flips).marks = true
  | [], _, h => h
  | _ :: flips, _, h => applyFlips_wf line flips (Tmc.setMark_wf h _ _ _)

/-- Wrong bits of a line come about in its own words. -/
theorem applyFlips_other (line : Nat) : ∀ (flips : List BitFlip) {t : Tmc}, sparseWf .clean t.marks = true → ∀ l i, l ≠ line → i < 8 →
    (t.applyFlips line flips).mark l i = t.mark l i
  | [], _, _, _, _, _, _ => rfl
  | f :: flips, t, h, l, i, hl, hi => by
    refine (applyFlips_other line flips (Tmc.setMark_wf h _ _ _) l i hl hi).trans ?_
    rw [Tmc.mark_setMark h f.word.2 hi, if_neg fun e => hl e.1]

/-- What a write-back makes of a word (R50). -/
def WordMark.healed : WordMark → WordMark
  | .oneWrong => .clean
  | .twoWrong => .poison
  | m => m

theorem writeBack_mark {t : Tmc} (h : sparseWf .clean t.marks = true) (line k j : Nat) (hj : j < 8) :
    (t.writeBack line).mark k j = if k = line then (t.mark line j).healed else t.mark k j := by
  have hfold := mark_foldl (line := line) (g := fun _ => WordMark.healed)
    (f := fun t i => match t.mark line i with
      | .oneWrong => t.setMark line i .clean
      | .twoWrong => t.setMark line i .poison
      | _ => t)
    (fun t i h => by
      split
      · exact Tmc.setMark_wf h _ _ _
      · exact Tmc.setMark_wf h _ _ _
      · exact h)
    (fun t i h hi k j hj => by
      split
      · next e => rw [Tmc.mark_setMark h hi hj, e]; rfl
      · next e => rw [Tmc.mark_setMark h hi hj, e]; rfl
      · next e1 e2 =>
        have hsame : (t.mark line i).healed = t.mark line i := by
          unfold WordMark.healed
          split
          · next e => exact absurd e e1
          · next e => exact absurd e e2
          · rfl
        split
        · next e => rw [e.1, e.2, hsame]
        · rfl)
    (List.range 8) t h (fun i hi => List.mem_range.1 hi) List.nodup_range k j hj
  refine hfold.trans (if_congr ?_ rfl rfl)
  simp [hj]

theorem writeBack_marks {t u : Tmc} (line : Nat) (h : u.marks = t.marks) : (u.writeBack line).marks = (t.writeBack line).marks := by
  unfold Tmc.writeBack
  generalize List.range 8 = l
  induction l generalizing t u with
  | nil => exact h
  | cons i l ih =>
    refine ih ?_
    have hmark : u.mark line i = t.mark line i := by
      unfold Tmc.mark
      rw [h]
    dsimp only
    rw [hmark]
    split
    · exact congrArg (sparsePut _ _ _) h
    · exact congrArg (sparsePut _ _ _) h
    · exact h

/-! ### The conditions found -/

theorem found_eq (h : u.tmc.marks = s.tmc.marks) : u.found = s.found := by
  funext line flips i
  show sparseGet _ (u.tmc.applyFlips line flips).marks _ = sparseGet _ (s.tmc.applyFlips line flips).marks _
  rw [applyFlips_marks line flips h]

/-- States that agree in table memory, the conditions of its words, and what the TMC counts and lists of them. -/
structure SameWords (s t : State) : Prop where
  mem : t.tmc.mem = s.tmc.mem
  marks : t.tmc.marks = s.tmc.marks
  corrected : t.tmc.corrected = s.tmc.corrected
  uncorrectable : t.tmc.uncorrectable = s.tmc.uncorrectable
  poisonedWrite : t.tmc.poisonedWrite = s.tmc.poisonedWrite
  deferred : t.tmc.deferred = s.tmc.deferred

theorem SameWords.refl (s : State) : SameWords s s := ⟨rfl, rfl, rfl, rfl, rfl, rfl⟩

theorem SameWords.trans {r : State} (h : SameWords r s) (g : SameWords s t) : SameWords r t :=
  ⟨g.mem.trans h.mem, g.marks.trans h.marks, g.corrected.trans h.corrected, g.uncorrectable.trans h.uncorrectable,
    g.poisonedWrite.trans h.poisonedWrite, g.deferred.trans h.deferred⟩

theorem SameWords.mark (h : SameWords s t) (l i : Nat) : t.tmc.mark l i = s.tmc.mark l i := by
  unfold Tmc.mark
  rw [h.marks]

/-! ### Reads -/

theorem lineRead_data (s : State) (line : Nat) (flips : List BitFlip) : (lineRead s line flips).data = s.lineData line := by
  have hf := Tmc.applyFlips_eq s.tmc line flips
  unfold lineRead State.lineData
  dsimp only
  rw [hf]

theorem lineRead_bad (s : State) (line : Nat) (flips : List BitFlip) : (lineRead s line flips).bad = s.foundBad line flips := rfl

theorem patrolRead_bad (s : State) (line : Nat) (flips : List BitFlip) : (patrolRead s line flips).bad = s.foundBad line flips := rfl

/-- An access that changes of the part the TMC alone, and of the TMC only its words, counters and list. -/
structure WordsMoved (s t : State) : Prop where
  rest : t = s.setTmc { s.tmc with
    mem := t.tmc.mem, marks := t.tmc.marks, corrected := t.tmc.corrected, uncorrectable := t.tmc.uncorrectable
    poisonedWrite := t.tmc.poisonedWrite, deferred := t.tmc.deferred }
  mem : s.tmc.mem.wf = true → t.tmc.mem.wf = true
  marks : sparseWf .clean s.tmc.marks = true → sparseWf .clean t.tmc.marks = true

theorem WordsMoved.trans (h : WordsMoved s t) (g : WordsMoved t u) : WordsMoved s u := by
  refine ⟨?_, fun c => g.mem (h.mem c), fun c => g.marks (h.marks c)⟩
  have hrest := h.rest
  have grest := g.rest
  generalize t.tmc.mem = a, t.tmc.marks = b, t.tmc.corrected = c, t.tmc.uncorrectable = d, t.tmc.poisonedWrite = e, t.tmc.deferred = f at hrest
  rw [grest, hrest]
  rfl

theorem wordsMoved_setTmc (s : State) (x : Tmc) (hrest : x = { s.tmc with
      mem := x.mem, marks := x.marks, corrected := x.corrected, uncorrectable := x.uncorrectable, poisonedWrite := x.poisonedWrite, deferred := x.deferred })
    (hmem : s.tmc.mem.wf = true → x.mem.wf = true) (hmarks : sparseWf .clean s.tmc.marks = true → sparseWf .clean x.marks = true) :
    WordsMoved s (s.setTmc x) :=
  ⟨congrArg s.setTmc hrest, hmem, hmarks⟩

theorem writeBack_wf {t : Tmc} (h : sparseWf .clean t.marks = true) (line : Nat) : sparseWf .clean (t.writeBack line).marks = true :=
  (tmcAccessed_writeBack t line).marks h

theorem wordsMoved_scrubRead (s : State) (line : Nat) : WordsMoved s (scrubRead s line) := by
  have hback : WordsMoved s (s.setTmc (s.tmc.writeBack line)) := by
    refine wordsMoved_setTmc s _ ?_ (fun h => by rw [Tmc.writeBack_eq]; exact h) (fun h => writeBack_wf h line)
    rw [Tmc.writeBack_eq]
  unfold scrubRead
  split
  · split
    · refine wordsMoved_setTmc s _ ?_ ?_ ?_
      all_goals unfold Tmc.defer
      all_goals split
      · rfl
      · rfl
      · exact id
      · exact id
      · exact id
      · exact id
    · exact hback
  · exact hback

/-- The wrong bits of an access and its counts. -/
theorem wordsMoved_found (s : State) (line : Nat) (flips : List BitFlip) (c d : ErrorCounter) :
    WordsMoved s (s.setTmc { s.tmc.applyFlips line flips with corrected := c, uncorrectable := d }) := by
  have hf := Tmc.applyFlips_eq s.tmc line flips
  refine wordsMoved_setTmc s _ ?_ ?_ (fun h => applyFlips_wf line flips h)
  · rw [hf]
  · rw [hf]
    exact id

theorem wordsMoved_lineRead (s : State) (line : Nat) (flips : List BitFlip) : WordsMoved s (lineRead s line flips).st := by
  have h1 := wordsMoved_found s line flips ((s.tmc.applyFlips line flips).corrected.add ((s.tmc.applyFlips line flips).correctable line) line)
    (s.tmc.applyFlips line flips).uncorrectable
  unfold lineRead
  dsimp only
  split
  · exact h1
  · exact h1.trans (wordsMoved_scrubRead _ _)

/-- What the follow-up of a read with corrected words leaves of its words and of the list (R50, R51). -/
theorem scrubRead_left (s : State) (line : Nat) (hwf : sparseWf .clean s.tmc.marks = true) :
    (scrubRead s line).tmc.mem = s.tmc.mem ∧ (scrubRead s line).tmc.corrected = s.tmc.corrected ∧
    (scrubRead s line).tmc.uncorrectable = s.tmc.uncorrectable ∧ (scrubRead s line).tmc.poisonedWrite = s.tmc.poisonedWrite ∧
    (∀ l i, l ≠ line → i < 8 → (scrubRead s line).tmc.mark l i = s.tmc.mark l i) ∧
    (closedLine s line → ∀ i, (scrubRead s line).tmc.mark line i = s.tmc.mark line i) ∧
    (¬closedLine s line → (scrubRead s line).tmc.deferred = s.tmc.deferred ∧
      ∀ i, i < 8 → (scrubRead s line).tmc.mark line i = (s.tmc.mark line i).healed) ∧
    (∀ b k, bankLineOf s line = some (b, k) → bankClosed s b = true → (scrubRead s line).tmc.deferred =
      if (b, k) ∈ s.tmc.deferred ∨ 16 ≤ s.tmc.deferred.length then s.tmc.deferred else s.tmc.deferred ++ [(b, k)]) := by
  by_cases hclosed : closedLine s line
  · obtain ⟨b, k, hbank, hb⟩ := hclosed
    have heq : scrubRead s line = s.setTmc (s.tmc.defer (b, k)) := by
      unfold scrubRead
      rw [hbank]
      exact if_pos hb
    have hdefer : s.tmc.defer (b, k) = { s.tmc with deferred := if (b, k) ∈ s.tmc.deferred ∨ 16 ≤ s.tmc.deferred.length then s.tmc.deferred
        else s.tmc.deferred ++ [(b, k)] } := by
      unfold Tmc.defer
      by_cases h : (b, k) ∈ s.tmc.deferred ∨ 16 ≤ s.tmc.deferred.length
      · rw [if_pos (by simpa using h), if_pos h]
      · rw [if_neg (by simpa using h), if_neg h]
    rw [heq, hdefer]
    refine ⟨rfl, rfl, rfl, rfl, fun _ _ _ _ => rfl, fun _ _ => rfl, fun h => absurd ⟨b, k, hbank, hb⟩ h, fun b' k' h' _ => ?_⟩
    obtain ⟨rfl, rfl⟩ : b = b' ∧ k = k' := by simpa using hbank.symm.trans h'
    rfl
  · have heq : scrubRead s line = s.setTmc (s.tmc.writeBack line) := by
      unfold scrubRead
      split
      · next b k hbank => exact if_neg fun hb => hclosed ⟨b, k, hbank, hb⟩
      · rfl
    have hback := Tmc.writeBack_eq s.tmc line
    have hmark := fun k j hj => writeBack_mark hwf line k j hj
    rw [heq]
    refine ⟨?_, ?_, ?_, ?_, fun l i hl hi => ?_, fun h => absurd h hclosed, fun _ => ⟨?_, fun i hi => ?_⟩, fun b k h hb => absurd ⟨b, k, h, hb⟩ hclosed⟩
    · rw [State.setTmc_tmc, hback]
    · rw [State.setTmc_tmc, hback]
    · rw [State.setTmc_tmc, hback]
    · rw [State.setTmc_tmc, hback]
    · rw [State.setTmc_tmc, hmark l i hi, if_neg hl]
    · rw [State.setTmc_tmc, hback]
    · rw [State.setTmc_tmc, hmark line i hi, if_pos rfl]

/-- The state in which a read has found its words and counted them. -/
theorem readLeaves_of_scrub {v : State} (hv : v = s.setTmc { s.tmc.applyFlips line flips with
      corrected := s.tmc.corrected.add (s.foundOne line flips) line, uncorrectable := s.tmc.uncorrectable })
    (hwf : sparseWf .clean s.tmc.marks = true) : readLeaves s (if s.foundOne line flips = 0 then v else scrubRead v line) line flips := by
  have hf := Tmc.applyFlips_eq s.tmc line flips
  have hmark : ∀ l i, v.tmc.mark l i = (s.tmc.applyFlips line flips).mark l i := fun l i => by rw [hv]; rfl
  have hother := applyFlips_other line flips hwf
  have hmem : v.tmc.mem = s.tmc.mem := by rw [hv, State.setTmc_tmc, hf]
  have hpoisoned : v.tmc.poisonedWrite = s.tmc.poisonedWrite := by rw [hv, State.setTmc_tmc, hf]
  have hdeferred : v.tmc.deferred = s.tmc.deferred := by rw [hv, State.setTmc_tmc, hf]
  have hcorrected : v.tmc.corrected = s.tmc.corrected.add (s.foundOne line flips) line := by rw [hv]; rfl
  have hun : v.tmc.uncorrectable = s.tmc.uncorrectable := by rw [hv]; rfl
  have hvwf : sparseWf .clean v.tmc.marks = true := by
    rw [hv]
    exact applyFlips_wf line flips hwf
  have hbank : bankLineOf v line = bankLineOf s line := by rw [hv]; rfl
  have hbankClosed : ∀ b, bankClosed v b = bankClosed s b := fun b => by rw [hv]; rfl
  have hclosedLine : closedLine v line ↔ closedLine s line := by
    unfold closedLine
    rw [hbank]
    simp only [hbankClosed]
  split
  · next hzero =>
    refine ⟨fun a => by rw [hmem], hcorrected, hun, hpoisoned, fun l i hl hi => (hmark l i).trans (hother l i hl hi), fun _ i hi => hmark line i,
      fun h => absurd h (by omega), fun _ => hdeferred, fun b k h => absurd h (by omega)⟩
  · next hsome =>
    obtain ⟨smem, scorrected, sun, spoisoned, sother, sclosed, sopen, slisted⟩ := scrubRead_left v line hvwf
    refine ⟨fun a => by rw [smem, hmem], scorrected.trans hcorrected, sun.trans hun, spoisoned.trans hpoisoned,
      fun l i hl hi => (sother l i hl hi).trans ((hmark l i).trans (hother l i hl hi)),
      fun h i hi => (sclosed (hclosedLine.2 (h.resolve_left hsome)) i).trans (hmark line i), fun _ h i hi => ?_,
      fun h => ((sopen (fun hc => (h.resolve_left hsome) (hclosedLine.1 hc))).1).trans hdeferred, fun b k _ hb hc => ?_⟩
    · rw [(sopen (fun hc => h (hclosedLine.1 hc))).2 i hi, hmark]
      rfl
    · rw [slisted b k (hbank.trans hb) ((hbankClosed b).trans hc), hdeferred]

theorem lineRead_leaves (s : State) (line : Nat) (flips : List BitFlip) (hwf : sparseWf .clean s.tmc.marks = true) :
    readLeaves s (lineRead s line flips).st line flips := by
  have hf := Tmc.applyFlips_eq s.tmc line flips
  refine readLeaves_of_scrub (v := s.setTmc { s.tmc.applyFlips line flips with
    corrected := (s.tmc.applyFlips line flips).corrected.add ((s.tmc.applyFlips line flips).correctable line) line }) ?_ hwf
  show s.setTmc _ = s.setTmc _
  rw [hf]
  rfl

theorem patrolRead_leaves (s : State) (line : Nat) (flips : List BitFlip) (hwf : sparseWf .clean s.tmc.marks = true) :
    patrolLeaves s (patrolRead s line flips).st line flips := by
  have hf := Tmc.applyFlips_eq s.tmc line flips
  have hother := applyFlips_other line flips hwf
  refine ⟨fun hgood => ?_, fun hbad => ?_⟩
  · have hnotBad : (s.tmc.applyFlips line flips).lineBad line = false := hgood
    have heq : (patrolRead s line flips).st = if s.foundOne line flips = 0 then s.setTmc { s.tmc.applyFlips line flips with
          corrected := s.tmc.corrected.add (s.foundOne line flips) line, uncorrectable := s.tmc.uncorrectable } else
        scrubRead (s.setTmc { s.tmc.applyFlips line flips with
          corrected := s.tmc.corrected.add (s.foundOne line flips) line, uncorrectable := s.tmc.uncorrectable }) line := by
      unfold patrolRead
      dsimp only
      rw [hnotBad, Bool.or_false, hf]
      exact if_congr decide_eq_true_iff rfl rfl
    rw [heq]
    exact readLeaves_of_scrub rfl hwf
  · have hisBad : (s.tmc.applyFlips line flips).lineBad line = true := hbad
    have heq : (patrolRead s line flips).st = s.setTmc { s.tmc.applyFlips line flips with
        corrected := s.tmc.corrected.add (s.foundOne line flips) line, uncorrectable := s.tmc.uncorrectable.add 1 line } := by
      unfold patrolRead
      dsimp only
      rw [hisBad, Bool.or_true, if_pos rfl, if_pos rfl, hf]
      rfl
    rw [heq]
    refine ⟨fun a => ?_, rfl, rfl, ?_, ?_, fun l i hl hi => hother l i hl hi, fun i _ => rfl⟩
    · rw [State.setTmc_tmc, hf]
    · rw [State.setTmc_tmc, hf]
    · rw [State.setTmc_tmc, hf]

theorem wordsMoved_patrolRead (s : State) (line : Nat) (flips : List BitFlip) : WordsMoved s (patrolRead s line flips).st := by
  have h1 := wordsMoved_found s line flips ((s.tmc.applyFlips line flips).corrected.add ((s.tmc.applyFlips line flips).correctable line) line)
    ((s.tmc.applyFlips line flips).uncorrectable.add (if (s.tmc.applyFlips line flips).lineBad line then 1 else 0) line)
  unfold patrolRead
  dsimp only
  split
  · exact h1
  · exact h1.trans (wordsMoved_scrubRead _ _)

/-! ### The deferred scrub -/

theorem wordsMoved_deferredRead (s : State) (line : Nat) (flips : List BitFlip) : WordsMoved s (deferredRead s line flips).st := by
  refine ⟨?_, fun h => ?_, fun h => ?_⟩
  · have hst := deferredRead_st s line flips
    rw [hst]
    rfl
  · rw [deferredRead_st]
    exact h
  · have hmarks := applyFlips_wf line flips h
    unfold deferredRead
    dsimp only
    generalize s.tmc.applyFlips line flips = found at hmarks ⊢
    rw [State.setTmc_tmc]
    split
    · exact hmarks
    · exact (tmcAccessed_writeBack_counted found _ _ line).marks hmarks

/-- A word of a line that is not uncorrectable is fresh behind its write-back. -/
theorem healed_of_not_bad {m : WordMark} (h : m.bad = false) : m.healed = .clean := by
  cases m with
  | clean => rfl
  | oneWrong => rfl
  | twoWrong => cases h
  | poison => cases h

theorem foundBad_iff (s : State) (line : Nat) (flips : List BitFlip) :
    s.foundBad line flips = false ↔ ∀ i, i < 8 → (s.found line flips i).bad = false := by
  unfold State.foundBad
  rw [List.any_eq_false]
  exact ⟨fun h i hi => by simpa using h i (List.mem_range.2 hi), fun h i hi => by simpa using h i (List.mem_range.1 hi)⟩

theorem deferredRead_leaves (s : State) (line : Nat) (flips : List BitFlip) (hwf : sparseWf .clean s.tmc.marks = true) :
    deferredLeaves s (deferredRead s line flips).st line flips := by
  have hst := deferredRead_st s line flips
  have hother := applyFlips_other line flips hwf
  have hmarks : (deferredRead s line flips).st.tmc.marks = (if s.foundBad line flips then s.tmc.applyFlips line flips
      else (s.tmc.applyFlips line flips).writeBack line).marks := by
    unfold deferredRead
    dsimp only
    rw [State.setTmc_tmc]
    show (if (s.tmc.applyFlips line flips).lineBad line then _ else _ : Tmc).marks = (if (s.tmc.applyFlips line flips).lineBad line then _ else _ : Tmc).marks
    split
    · rfl
    · exact writeBack_marks line rfl
  have hmark : ∀ l i, i < 8 → (deferredRead s line flips).st.tmc.mark l i =
      if l = line ∧ s.foundBad line flips = false then .clean else (s.tmc.applyFlips line flips).mark l i := fun l i hi => by
    unfold Tmc.mark
    rw [hmarks]
    by_cases hbad : s.foundBad line flips = true
    · rw [if_pos hbad, if_neg fun h => by rw [hbad] at h; exact nomatch h.2]
    · have hgood : s.foundBad line flips = false := by simpa using hbad
      rw [if_neg hbad]
      show ((s.tmc.applyFlips line flips).writeBack line).mark l i = _
      rw [writeBack_mark (applyFlips_wf line flips hwf) line l i hi]
      by_cases hl : l = line
      · rw [if_pos hl, if_pos ⟨hl, hgood⟩]
        exact healed_of_not_bad ((foundBad_iff s line flips).1 hgood i hi)
      · rw [if_neg hl, if_neg fun h => hl h.1]
        rfl
  rw [hst] at hmark ⊢
  refine ⟨fun _ => rfl, rfl, rfl, rfl, fun l i hl hi => ?_, fun hbad => ⟨?_, fun i hi => ?_⟩, fun hgood => ⟨?_, fun i hi => ?_⟩⟩
  · exact (hmark l i hi).trans ((if_neg fun h => hl h.1).trans (hother l i hl hi))
  · rw [State.setTmc_tmc, hbad]
    rfl
  · exact (hmark line i hi).trans (if_neg fun h => by rw [hbad] at h; exact nomatch h.2)
  · rw [State.setTmc_tmc, hgood]
    rfl
  · exact (hmark line i hi).trans (if_pos ⟨rfl, hgood⟩)

/-! ### Writes -/

/-- What a masked write makes of a word (R52). -/
def WordMark.rewritten (m : WordMark) (full : Bool) : WordMark := if full then .clean else if m.bad then .poison else .clean

/-- The words of a line behind a masked write. -/
def Tmc.renewed (t : Tmc) (line : Nat) (bytes : List (Option Byte)) : Tmc :=
  (List.range 8).foldl (fun t i => t.setMark line i ((t.mark line i).rewritten (wordFull bytes i))) t

theorem renewed_eq (t : Tmc) (line : Nat) (bytes : List (Option Byte)) : t.renewed line bytes = { t with marks := (t.renewed line bytes).marks } := by
  unfold Tmc.renewed
  induction List.range 8 generalizing t with
  | nil => rfl
  | cons i rest ih => exact (ih _).trans (by rfl)

theorem renewed_wf {t : Tmc} (h : sparseWf .clean t.marks = true) (line : Nat) (bytes : List (Option Byte)) :
    sparseWf .clean (t.renewed line bytes).marks = true :=
  (tmcAccessed_foldl _ (fun t i => tmcAccessed_setMark t line i _) _ t).marks h

theorem renewed_mark {t : Tmc} (h : sparseWf .clean t.marks = true) (line : Nat) (bytes : List (Option Byte)) (k j : Nat) (hj : j < 8) :
    (t.renewed line bytes).mark k j =
      if k = line then (if !wordFull bytes j && (t.mark line j).bad then .poison else .clean) else t.mark k j := by
  have hfold := mark_foldl (line := line) (g := fun i m => m.rewritten (wordFull bytes i))
    (f := fun t i => t.setMark line i ((t.mark line i).rewritten (wordFull bytes i)))
    (fun _ _ h => Tmc.setMark_wf h _ _ _) (fun _ _ h hi k j hj => Tmc.mark_setMark h hi hj _ _ _)
    (List.range 8) t h (fun i hi => List.mem_range.1 hi) List.nodup_range k j hj
  refine hfold.trans ?_
  by_cases hk : k = line
  · rw [if_pos ⟨hk, List.mem_range.2 hj⟩, if_pos hk]
    unfold WordMark.rewritten
    cases wordFull bytes j <;> rfl
  · rw [if_neg fun h => hk h.1, if_neg hk]

/-- The counters of a masked write (R52). -/
theorem lineWrite_eq (s : State) (line : Nat) (bytes : List (Option Byte)) (flips : List BitFlip) : lineWrite s line bytes flips = s.setTmc { s.tmc with
    mem := s.tmc.mem.writeMasked (64 * line) bytes
    marks := ((s.tmc.applyFlips line flips).renewed line bytes).marks
    corrected := s.tmc.corrected.add (keptWords s line flips bytes (fun m => decide (m = .oneWrong))) line
    poisonedWrite := s.tmc.poisonedWrite.add (min 1 (keptWords s line flips bytes WordMark.bad)) line } := by
  have hcount : ∀ p : WordMark → Bool, (((List.range 8).filter (fun i => !wordFull bytes i)).filter (fun i => p (s.found line flips i))).length =
      keptWords s line flips bytes p := fun p => by
    unfold keptWords
    rw [List.filter_filter]
    exact congrArg (fun f => (List.filter f (List.range 8)).length) (funext fun i => Bool.and_comm _ _)
  have hany : (if ((List.range 8).filter (fun i => !wordFull bytes i)).any (fun i => (s.found line flips i).bad) then 1 else 0) =
      min 1 (keptWords s line flips bytes WordMark.bad) := by
    rw [← hcount]
    generalize (List.range 8).filter (fun i => !wordFull bytes i) = l
    split
    · next h =>
      obtain ⟨i, hi, hb⟩ := List.any_eq_true.1 h
      have hpos := List.length_pos_of_mem ((List.mem_filter (p := fun i => (s.found line flips i).bad)).2 ⟨hi, hb⟩)
      exact (Nat.min_eq_left hpos).symm
    · next h =>
      have hnil : l.filter (fun i => (s.found line flips i).bad) = [] := List.filter_eq_nil_iff.2 fun i hi hb => h (List.any_eq_true.2 ⟨i, hi, hb⟩)
      rw [hnil]
      rfl
  have hf := Tmc.applyFlips_eq s.tmc line flips
  rw [← hcount, ← hany]
  unfold lineWrite State.found
  dsimp only
  generalize s.tmc.applyFlips line flips = found at hf ⊢
  have hr := renewed_eq found line bytes
  unfold Tmc.renewed WordMark.rewritten at hr ⊢
  generalize (List.range 8).foldl (fun t i =>
    t.setMark line i (if wordFull bytes i then .clean else if (t.mark line i).bad then .poison else .clean)) found = u at hr ⊢
  rw [hr, hf]

theorem lineWrite_read (s : State) (line : Nat) (bytes : List (Option Byte)) (flips : List BitFlip) (hlength : bytes.length = 64)
    (hmem : s.tmc.mem.wf = true) (x : Nat) : (lineWrite s line bytes flips).tmc.mem.read x =
      if 64 * line ≤ x ∧ x < 64 * line + 64 then (bytes.getD (x - 64 * line) none).getD (s.tmc.mem.read x) else s.tmc.mem.read x := by
  rw [lineWrite_eq, State.setTmc_tmc, Memory.read_writeMasked bytes _ _ hmem]
  by_cases hx : 64 * line ≤ x
  · by_cases hx' : x < 64 * line + 64
    · rw [if_pos hx, if_pos ⟨hx, hx'⟩]
    · rw [if_pos hx, if_neg fun h => hx' h.2, List.getD_eq_default _ _ (by omega)]
      rfl
  · rw [if_neg hx, if_neg fun h => hx h.1]

theorem lineWrite_leaves (s : State) (line : Nat) (bytes : List (Option Byte)) (flips : List BitFlip) (hlength : bytes.length = 64)
    (hmem : s.tmc.mem.wf = true) (hwf : sparseWf .clean s.tmc.marks = true) : writeLeaves s (lineWrite s line bytes flips) line flips bytes := by
  have hother := applyFlips_other line flips hwf
  have hmark := renewed_mark (applyFlips_wf line flips hwf) line bytes
  refine ⟨lineWrite_read s line bytes flips hlength hmem, ?_⟩
  rw [lineWrite_eq]
  refine ⟨fun l i hl hi => ?_, fun i hi => ?_, rfl, rfl, rfl, rfl⟩
  · exact (hmark l i hi).trans ((if_neg hl).trans (hother l i hl hi))
  · exact (hmark line i hi).trans (if_pos rfl)

theorem wordsMoved_lineWrite (s : State) (line : Nat) (bytes : List (Option Byte)) (flips : List BitFlip) :
    WordsMoved s (lineWrite s line bytes flips) := by
  rw [lineWrite_eq]
  exact wordsMoved_setTmc s _ rfl (fun h => Memory.writeMasked_wf _ _ _ h) (fun h => renewed_wf (applyFlips_wf line flips h) line bytes)

end Sys2Proof.Machine
end

section
/-! PROOFS. Copies and merges of lines, and what a granted access leaves once its command has ended. -/

set_option Elab.async false

namespace Sys2Proof.Machine

variable {s t u : State} {a : Access} {line live : Nat} {flips : List BitFlip}

/-! ### Copies -/

theorem wordFull_map_some (l : List Byte) (i : Nat) : wordFull (l.map some) i = true := by
  unfold wordFull wordMask
  rw [List.all_eq_true]
  intro x hx
  obtain ⟨b, -, rfl⟩ := List.mem_map.1 (List.mem_of_mem_drop (List.mem_of_mem_take hx))
  rfl

theorem Memory.readBytes_getElem? : ∀ (n : Nat) (m : Memory) (a i : Nat), i < n → (m.readBytes a n)[i]? = some (m.read (a + i))
  | n + 1, m, a, 0, _ => rfl
  | n + 1, m, a, i + 1, h => by
    rw [Memory.readBytes, List.getElem?_cons_succ, Memory.readBytes_getElem? n m (a + 1) i (by omega)]
    exact congrArg (fun x => some (m.read x)) (by omega)

theorem lineData_getD (s : State) (live i : Nat) (h : i < 64) : ((s.lineData live).map some).getD i none = some (s.tmc.mem.read (64 * live + i)) := by
  rw [List.getD_eq_getElem?_getD, List.getElem?_map]
  unfold State.lineData
  rw [Memory.readBytes_getElem? 64 _ _ i h]
  rfl

/-- A line wholly written with the bytes of another (R23, R9). -/
theorem lineCopied (s : State) (line : Nat) (data : List Byte) (hlength : data.length = 64) (hmem : s.tmc.mem.wf = true)
    (hwf : sparseWf .clean s.tmc.marks = true) :
    (∀ x, (lineWrite s line (data.map some) []).tmc.mem.read x = if 64 * line ≤ x ∧ x < 64 * line + 64 then
      ((data.map some).getD (x - 64 * line) none).getD (s.tmc.mem.read x) else s.tmc.mem.read x) ∧
    ∀ i, i < 8 → (lineWrite s line (data.map some) []).tmc.mark line i = .clean := by
  obtain ⟨hread, -, hmark, -⟩ := lineWrite_leaves s line (data.map some) [] (by rw [List.length_map, hlength]) hmem hwf
  refine ⟨hread, fun i hi => ?_⟩
  rw [hmark i hi, wordFull_map_some]
  rfl

theorem lineRead_mem (s : State) (line : Nat) (flips : List BitFlip) (hwf : sparseWf .clean s.tmc.marks = true) :
    ∀ x, (lineRead s line flips).st.tmc.mem.read x = s.tmc.mem.read x :=
  (lineRead_leaves s line flips hwf).1

theorem wordsMoved_copyLine (s : State) (line live : Nat) (flips : List BitFlip) : WordsMoved s (copyLine s line live flips).1 := by
  have h1 := wordsMoved_lineRead s live flips
  unfold copyLine
  dsimp only
  split
  · exact h1
  · exact h1.trans (wordsMoved_lineWrite _ _ _ _)

theorem copyLine_bad (s : State) (line live : Nat) (flips : List BitFlip) : (copyLine s line live flips).2 = s.foundBad live flips := by
  unfold copyLine
  dsimp only
  rw [lineRead_bad]
  cases s.foundBad live flips <;> rfl

/-- The copied line: the live line's bytes with fresh codes, or nothing when the live line is uncorrectable (R23, R24). -/
theorem copyLine_left (s : State) (line live : Nat) (flips : List BitFlip) (hmem : s.tmc.mem.wf = true) (hwf : sparseWf .clean s.tmc.marks = true) :
    (s.foundBad live flips = true → ∀ x, (copyLine s line live flips).1.tmc.mem.read x = s.tmc.mem.read x) ∧
    (s.foundBad live flips = false → (∀ x, (copyLine s line live flips).1.tmc.mem.read x = if 64 * line ≤ x ∧ x < 64 * line + 64 then
        s.tmc.mem.read (64 * live + (x - 64 * line)) else s.tmc.mem.read x) ∧
      ∀ i, i < 8 → (copyLine s line live flips).1.tmc.mark line i = .clean) := by
  have hread := lineRead_mem s live flips hwf
  have hmoved := wordsMoved_lineRead s live flips
  have hdata := lineRead_data s live flips
  have hbad := lineRead_bad s live flips
  unfold copyLine
  dsimp only
  generalize lineRead s live flips = r at hread hmoved hdata hbad ⊢
  rw [hbad]
  refine ⟨fun h => ?_, fun h => ?_⟩
  · rw [h]
    exact hread
  · rw [h]
    obtain ⟨hcopied, hclean⟩ := lineCopied r.st line r.data (by rw [hdata]; exact Memory.readBytes_length _ _ _) (hmoved.mem hmem) (hmoved.marks hwf)
    refine ⟨fun x => (hcopied x).trans ?_, hclean⟩
    rw [hread]
    split
    · next hx =>
      rw [hdata, lineData_getD s live _ (by omega)]
      rfl
    · rfl

/-! ### Merges -/

theorem wordsMoved_mergeWrite (s : State) (line live : Nat) (bytes : List (Option Byte)) (flips : List BitFlip) :
    WordsMoved s (mergeWrite s line live bytes flips).1 := by
  have h1 := wordsMoved_lineRead s live flips
  unfold mergeWrite
  dsimp only
  split
  · exact h1.trans (wordsMoved_lineWrite _ _ _ _)
  · exact (h1.trans (wordsMoved_lineWrite _ _ _ _)).trans (wordsMoved_lineWrite _ _ _ _)

theorem mergeWrite_bad (s : State) (line live : Nat) (bytes : List (Option Byte)) (flips : List BitFlip) :
    (mergeWrite s line live bytes flips).2 = s.foundBad live flips := by
  unfold mergeWrite
  dsimp only
  rw [lineRead_bad]
  cases s.foundBad live flips <;> rfl

/-- A write behind a copy lands on the copy; one whose live line is uncorrectable on the line as it stands (R9). -/
theorem mergeWrite_left (s : State) (line live : Nat) (bytes : List (Option Byte)) (flips : List BitFlip) (hlength : bytes.length = 64)
    (hmem : s.tmc.mem.wf = true) (hwf : sparseWf .clean s.tmc.marks = true) :
    (∀ x, (mergeWrite s line live bytes flips).1.tmc.mem.read x = if 64 * line ≤ x ∧ x < 64 * line + 64 then (bytes.getD (x - 64 * line) none).getD
      (if s.foundBad live flips then s.tmc.mem.read x else s.tmc.mem.read (64 * live + (x - 64 * line))) else s.tmc.mem.read x) ∧
    (s.foundBad live flips = false → ∀ i, i < 8 → (mergeWrite s line live bytes flips).1.tmc.mark line i = .clean) := by
  have hread := lineRead_mem s live flips hwf
  have hmoved := wordsMoved_lineRead s live flips
  have hdata := lineRead_data s live flips
  have hbad := lineRead_bad s live flips
  unfold mergeWrite
  dsimp only
  generalize lineRead s live flips = r at hread hmoved hdata hbad ⊢
  rw [hbad]
  cases s.foundBad live flips with
  | true =>
    obtain ⟨hwritten, -⟩ := lineWrite_leaves r.st line bytes [] hlength (hmoved.mem hmem) (hmoved.marks hwf)
    refine ⟨fun x => (hwritten x).trans ?_, fun h => (nomatch h)⟩
    rw [hread]
    rfl
  | false =>
    have hcopyMoved := hmoved.trans (wordsMoved_lineWrite r.st line (r.data.map some) [])
    obtain ⟨hcopied, hclean⟩ := lineCopied r.st line r.data (by rw [hdata]; exact Memory.readBytes_length _ _ _) (hmoved.mem hmem) (hmoved.marks hwf)
    obtain ⟨hwritten, -, hmark, -⟩ := lineWrite_leaves (lineWrite r.st line (r.data.map some) []) line bytes [] hlength
      (hcopyMoved.mem hmem) (hcopyMoved.marks hwf)
    refine ⟨fun x => (hwritten x).trans ?_, fun _ i hi => ?_⟩
    · rw [hcopied]
      split
      · next hx =>
        rw [hdata, lineData_getD s live _ (by omega)]
        rfl
      · exact hread x
    · have hfound : (lineWrite r.st line (r.data.map some) []).found line [] i = .clean := hclean i hi
      refine (hmark i hi).trans ?_
      rw [hfound]
      cases wordFull bytes i <;> rfl

/-! ### The same words before and behind the line operation -/

theorem found_sameWords (h : SameWords s t) : t.found = s.found := found_eq h.marks

theorem closedLine_congr (hplu : t.plu = s.plu) (hziu : t.ziu = s.ziu) (line : Nat) : (closedLine t line ↔ closedLine s line) ∧
    bankLineOf t line = bankLineOf s line ∧ ∀ b, bankClosed t b = bankClosed s b := by
  have hbank : bankLineOf t line = bankLineOf s line := by
    unfold bankLineOf
    rw [hplu]
  have hclosed : ∀ b, bankClosed t b = bankClosed s b := fun b => by
    unfold bankClosed
    rw [hziu]
  refine ⟨?_, hbank, hclosed⟩
  unfold closedLine
  rw [hbank]
  simp only [hclosed]

theorem readLeaves_congr {x : Tmc} (hs : SameWords s (s.setTmc x)) (ht : SameWords u t) (h : readLeaves (s.setTmc x) u line flips) :
    readLeaves s t line flips := by
  have hone : (s.setTmc x).foundOne line flips = s.foundOne line flips := by
    unfold State.foundOne
    rw [found_sameWords hs]
  obtain ⟨hclosed, hbank, hbankClosed⟩ := closedLine_congr (s := s) (t := s.setTmc x) rfl rfl line
  unfold readLeaves memoryKept at h ⊢
  simp only [hone, hclosed, hbank, hbankClosed, hs.mem, hs.corrected, hs.uncorrectable, hs.poisonedWrite, hs.deferred, hs.mark,
    found_sameWords hs] at h
  simp only [ht.mem, ht.corrected, ht.uncorrectable, ht.poisonedWrite, ht.deferred, ht.mark]
  exact h

theorem patrolLeaves_congr {x : Tmc} (hs : SameWords s (s.setTmc x)) (ht : SameWords u t) (h : patrolLeaves (s.setTmc x) u line flips) :
    patrolLeaves s t line flips := by
  have hone : (s.setTmc x).foundOne line flips = s.foundOne line flips := by
    unfold State.foundOne
    rw [found_sameWords hs]
  have hbad : (s.setTmc x).foundBad line flips = s.foundBad line flips := by
    unfold State.foundBad
    rw [found_sameWords hs]
  obtain ⟨hread, hrest⟩ := h
  rw [hbad] at hread hrest
  refine ⟨fun hb => readLeaves_congr hs ht (hread hb), fun hb => ?_⟩
  have hrest := hrest hb
  unfold memoryKept at hrest ⊢
  simp only [hone, hs.mem, hs.corrected, hs.uncorrectable, hs.poisonedWrite, hs.deferred, hs.mark, found_sameWords hs] at hrest
  simp only [ht.mem, ht.corrected, ht.uncorrectable, ht.poisonedWrite, ht.deferred, ht.mark]
  exact hrest

theorem deferredLeaves_congr {x : Tmc} (hs : SameWords s (s.setTmc x)) (ht : SameWords u t) (h : deferredLeaves (s.setTmc x) u line flips) :
    deferredLeaves s t line flips := by
  have hbad : (s.setTmc x).foundBad line flips = s.foundBad line flips := by
    unfold State.foundBad
    rw [found_sameWords hs]
  have hfresh : (s.setTmc x).foundFresh line flips = s.foundFresh line flips := by
    unfold State.foundFresh
    rw [found_sameWords hs]
    simp only [hs.mark]
  unfold deferredLeaves memoryKept at h ⊢
  simp only [hfresh, hbad, hs.mem, hs.corrected, hs.uncorrectable, hs.poisonedWrite, hs.deferred, hs.mark, found_sameWords hs] at h
  simp only [ht.mem, ht.corrected, ht.uncorrectable, ht.poisonedWrite, ht.deferred, ht.mark]
  exact h

theorem writeLeaves_congr {x : Tmc} {bytes : List (Option Byte)} (hs : SameWords s (s.setTmc x)) (ht : SameWords u t)
    (h : writeLeaves (s.setTmc x) u line flips bytes) : writeLeaves s t line flips bytes := by
  unfold writeLeaves keptWords at h ⊢
  simp only [hs.mem, hs.corrected, hs.uncorrectable, hs.poisonedWrite, hs.deferred, hs.mark, found_sameWords hs] at h
  simp only [ht.mem, ht.corrected, ht.uncorrectable, ht.poisonedWrite, ht.deferred, ht.mark]
  exact h

end Sys2Proof.Machine
end

section
/-! PROOFS. A grant: the waiting counts through the end of its command, and what a granted access leaves. -/

set_option Elab.async false

namespace Sys2Proof.Machine

variable {r s t u : State} {a : Access} {flips : List BitFlip}

/-! ### The waiting counts -/

/-- A class with nothing presented waits for nothing (R57). -/
structure Tmc.rested (t : Tmc) : Prop where
  tbp : t.presented.any (fun x => x.kind.isTbp) = false → t.tbpWait = 0
  internal : t.presented.any (fun x => x.kind.isInternal) = false → t.internalWait = 0

/-- The counts stay where what is presented keeps its bus accesses and loses no internal one. -/
structure CountsKept (t u : Tmc) : Prop where
  rested : t.rested → u.rested
  tbp : t.rested → u.tbpWait = t.tbpWait
  internal : t.rested → u.internalWait = t.internalWait

theorem CountsKept.refl (t : Tmc) : CountsKept t t := ⟨id, fun _ => rfl, fun _ => rfl⟩

theorem CountsKept.trans {t u v : Tmc} (h : CountsKept t u) (g : CountsKept u v) : CountsKept t v :=
  ⟨fun c => g.rested (h.rested c), fun c => (g.tbp (h.rested c)).trans (h.tbp c), fun c => (g.internal (h.rested c)).trans (h.internal c)⟩

theorem tmcRest_rested (s : State) : (tmcRest s).tmc.rested :=
  ⟨fun h => if_neg (Bool.eq_false_iff.1 h), fun h => if_neg (Bool.eq_false_iff.1 h)⟩

/-- What is presented keeps its bus accesses and loses no internal one; then the idle figures follow. -/
theorem countsKept_tmcRest {x : Tmc} (htbp : x.presented.any (fun a => a.kind.isTbp) = s.tmc.presented.any (fun a => a.kind.isTbp))
    (hinternal : s.tmc.presented.any (fun a => a.kind.isInternal) = true → x.presented.any (fun a => a.kind.isInternal) = true)
    (hwait : x.tbpWait = s.tmc.tbpWait) (hwait' : x.internalWait = s.tmc.internalWait) : CountsKept s.tmc (tmcRest (s.setTmc x)).tmc := by
  refine ⟨fun _ => tmcRest_rested _, fun h => ?_, fun h => ?_⟩
  · show (if x.presented.any (fun a => a.kind.isTbp) then x.tbpWait else 0) = _
    rw [htbp, hwait]
    split
    · rfl
    · next hn => exact (h.tbp (Bool.eq_false_iff.2 hn)).symm
  · show (if x.presented.any (fun a => a.kind.isInternal) then x.internalWait else 0) = _
    rw [hwait']
    split
    · rfl
    · next hn => exact (h.internal (Bool.eq_false_iff.2 fun hp => hn (hinternal hp))).symm

theorem countsKept_swqIssue (s : State) : CountsKept s.tmc (swqIssue s).tmc := by
  unfold swqIssue
  split
  · exact .refl _
  · next e rest _ =>
    split
    · exact .refl _
    · unfold present
      dsimp only
      split
      · refine countsKept_tmcRest (s := s.setSwq _) ?_ (fun h => ?_) rfl rfl
        · show (s.tmc.presented ++ [_]).any _ = s.tmc.presented.any _
          rw [List.any_append]
          exact Bool.or_false _
        · show (s.tmc.presented ++ [_]).any _ = true
          rw [List.any_append]
          exact Bool.or_eq_true_iff.2 (.inl h)
      · exact ⟨fun h => ⟨h.tbp, h.internal⟩, fun _ => rfl, fun _ => rfl⟩

theorem countsKept_issued (s : State) (q : Swq) : CountsKept s.tmc (swqIssue (s.setSwq q)).tmc := countsKept_swqIssue (s.setSwq q)

theorem countsKept_fillFrom : ∀ (n : Nat) (s : State) (k : Nat), CountsKept s.tmc (fillFrom n s k).tmc
  | 0, _, _ => .refl _
  | n + 1, s, k => by
    unfold fillFrom
    split
    · exact .refl _
    · split
      · exact (countsKept_issued s _).trans (countsKept_fillFrom n _ _)
      · exact .refl _

theorem countsKept_statusWrite (s : State) (u : UnitId) (item : StatusItem) : CountsKept s.tmc (statusWrite s u item).tmc := by
  unfold statusWrite
  split
  · exact countsKept_fillFrom _ s _
  · split
    · exact .refl _
    · split
      · exact .refl _
      · split
        · exact countsKept_issued s _
        · exact .refl _

theorem handEvent_tmc (s : State) (e : Event) : (handEvent s e).tmc = s.tmc := by
  unfold handEvent
  split
  · rfl
  · dsimp only
    split <;> rfl

theorem handRaised_tmc (l : List (UnitId × StatusItem)) (s : State) (r : Raised) : (handRaised l s r).tmc = s.tmc := by
  unfold handRaised
  split
  · exact handEvent_tmc _ _
  · split
    · rfl
    · exact handEvent_tmc _ _

theorem evuRest_tmc (s : State) : (evuRest s).tmc = s.tmc := by
  unfold evuRest
  split <;> rfl

theorem countsKept_foldl {α : Type} (f : State → α → State) (h : ∀ s a, CountsKept s.tmc (f s a).tmc) : ∀ (l : List α) (s : State),
    CountsKept s.tmc (l.foldl f s).tmc
  | [], _ => .refl _
  | a :: l, s => (h s a).trans (countsKept_foldl f h l _)

/-- Only deferred scrubs are presented or withdrawn at the end of a command. -/
theorem countsKept_scrubRest (s : State) : CountsKept s.tmc (tmcRest (scrubRest s)).tmc := by
  have hfresh : ∀ p : Access → Bool, (∀ x, x.kind.scrub ≠ none → p x = false) → (freshScrubs s).any p = false := fun p hp => by
    unfold freshScrubs
    split
    · rw [List.any_eq_false]
      intro x hx
      obtain ⟨e, -, rfl⟩ := List.mem_map.1 hx
      rw [hp _ (by nofun)]
      exact Bool.false_ne_true
    · rfl
  have hstays : ∀ p : Access → Bool, (∀ x, x.kind.scrub ≠ none → p x = false) → (s.tmc.presented.filter (scrubStays s)).any p = s.tmc.presented.any p := by
    intro p hp
    rw [Bool.eq_iff_iff, List.any_eq_true, List.any_eq_true]
    constructor
    · rintro ⟨x, hx, hpx⟩
      exact ⟨x, (List.mem_filter.1 hx).1, hpx⟩
    · rintro ⟨x, hx, hpx⟩
      refine ⟨x, List.mem_filter.2 ⟨hx, ?_⟩, hpx⟩
      unfold scrubStays
      split
      · next e he =>
        rw [hp x (by rw [he]; nofun)] at hpx
        cases hpx
      · rfl
  have hboth : ∀ p : Access → Bool, (∀ x, x.kind.scrub ≠ none → p x = false) →
      (s.tmc.presented.filter (scrubStays s) ++ freshScrubs s).any p = s.tmc.presented.any p := fun p hp => by
    rw [List.any_append, hstays p hp, hfresh p hp, Bool.or_false]
  have htbp : ∀ x : Access, x.kind.scrub ≠ none → x.kind.isTbp = false := fun x hx => by
    unfold AccessKind.scrub at hx
    split at hx
    · next h => rw [h]; rfl
    · exact absurd rfl hx
  have hinternal : ∀ x : Access, x.kind.scrub ≠ none → x.kind.isInternal = false := fun x hx => by
    unfold AccessKind.scrub at hx
    split at hx
    · next h => rw [h]; rfl
    · exact absurd rfl hx
  exact countsKept_tmcRest (s := s) (hboth _ htbp) (fun h => (hboth _ hinternal).trans h) rfl rfl

theorem countsKept_publish (o : State) (w : Work) : CountsKept w.st.tmc (publish o w).tmc := by
  show CountsKept w.st.tmc (publishState o w).tmc
  unfold publishState
  dsimp only
  refine CountsKept.trans ?_ (countsKept_scrubRest _)
  have hwritten := countsKept_foldl (fun s (p : UnitId × StatusItem) => statusWrite s p.1 p.2) (fun s p => countsKept_statusWrite s p.1 p.2) (writtenItems o w) w.st
  have hraised : ∀ (l : List Raised) (s : State), (l.foldl (handRaised (writtenItems o w)) s).tmc = s.tmc := by
    intro l
    induction l with
    | nil => exact fun _ => rfl
    | cons r l ih => exact fun s => (ih _).trans (handRaised_tmc _ _ _)
  have h1 : CountsKept w.st.tmc (evuRest (w.events.foldl (handRaised (writtenItems o w))
      ((writtenItems o w).foldl (fun s p => statusWrite s p.1 p.2) w.st))).tmc := by
    rw [evuRest_tmc, hraised]
    exact hwritten
  split
  · exact h1.trans (countsKept_statusWrite _ _ _)
  · exact h1

/-! ### A granted access at the end of its command -/

/-- The state from which a granted access is carried out: its grant has been counted (R57). -/
def countedGrant (s : State) (a : Access) : State := s.setTmc ((({ s.tmc with inProgress := none } : Tmc)).countGrant a)

/-- The state at the end of the command that has granted an access. -/
def granted (s : State) (a : Access) (flips : List BitFlip) : State :=
  publish s ((Work.start s).map fun _ => grantAccess (s.setTmc { s.tmc with inProgress := none }) a flips)

theorem grant_of_choice (hinit : s.tmc.initDone = true) (hactive : s.tmc.power = .active) (hfree : s.tmc.channelFree = true)
    (hchoose : choose s = .access a) (hline : a.line < memoryLines s.tmc.density) : exec (.grant flips) s = .next (granted s a flips) := by
  have hsame : choose (s.setTmc { s.tmc with inProgress := none }) = .access a := hchoose
  have honce : grantOnce s flips = some (grantAccess (s.setTmc { s.tmc with inProgress := none }) a flips) := by
    unfold grantOnce
    rw [if_neg (by rw [hinit]; exact Bool.false_ne_true), if_neg (by rw [hactive, hfree]; exact Bool.false_ne_true)]
    dsimp only
    rw [hsame]
    exact if_pos hline
  show execGrant flips s = _
  unfold execGrant
  rw [honce]
  rfl

theorem countedGrant_sameWords (s : State) (a : Access) : SameWords s (countedGrant s a) := ⟨rfl, rfl, rfl, rfl, rfl, rfl⟩

/-- What the grant leaves of what the access has left. -/
structure GrantLeft (s : State) (a : Access) (r : LineResult) (t : State) : Prop where
  words : SameWords r.st t
  jobs : t.tmc.jobs = r.st.tmc.jobs
  inProgress : t.tmc.inProgress = some ⟨a, r.data, r.bad⟩
  debt : t.tmc.debt = r.st.tmc.debt
  lastSlot : t.tmc.lastSlot = r.st.tmc.lastSlot
  lastInternal : t.tmc.lastInternal = r.st.tmc.lastInternal
  frame : r.st = { s with tmc := r.st.tmc, blc := r.st.blc } → t = { s with tmc := t.tmc, swq := t.swq, blc := r.st.blc, evu := t.evu }
  counts : ∀ v, r.st.tmc.presented = v → (t.tmc.tbpWait = if v.any (fun x => x.kind.isTbp) then r.st.tmc.tbpWait else 0) ∧
    t.tmc.internalWait = if v.any (fun x => x.kind.isInternal) then r.st.tmc.internalWait else 0

theorem granted_left (s : State) (a : Access) (flips : List BitFlip) : GrantLeft s a (carryOut (countedGrant s a) a flips) (granted s a flips) := by
  unfold granted grantAccess
  show GrantLeft s a (carryOut (countedGrant s a) a flips) (publish s ((Work.start s).map fun _ =>
    tmcRest ((carryOut (countedGrant s a) a flips).st.setTmc { (carryOut (countedGrant s a) a flips).st.tmc with
      inProgress := some ⟨a, (carryOut (countedGrant s a) a flips).data, (carryOut (countedGrant s a) a flips).bad⟩ })))
  generalize carryOut (countedGrant s a) a flips = r
  have hrested := tmcRest_rested (r.st.setTmc { r.st.tmc with inProgress := some ⟨a, r.data, r.bad⟩ })
  have hst : ∃ x, tmcRest (r.st.setTmc { r.st.tmc with inProgress := some ⟨a, r.data, r.bad⟩ }) = r.st.setTmc x ∧ x = { r.st.tmc with
      inProgress := some ⟨a, r.data, r.bad⟩, idleAt := x.idleAt
      tbpWait := if r.st.tmc.presented.any (fun a => a.kind.isTbp) then r.st.tmc.tbpWait else 0
      internalWait := if r.st.tmc.presented.any (fun a => a.kind.isInternal) then r.st.tmc.internalWait else 0 } := ⟨_, rfl, rfl⟩
  obtain ⟨x, hx, hxeq⟩ := hst
  rw [hx] at hrested ⊢
  generalize hw : ((Work.start s).map fun _ => r.st.setTmc x) = w
  have hwst : w.st = r.st.setTmc x := by rw [← hw]; rfl
  have hkept := publish_tmcKept s w
  have hcounts := countsKept_publish s w
  have hframe := publish_frame s w hwst
  rw [hwst] at hkept hcounts
  generalize publish s w = t at hkept hcounts hframe ⊢
  refine ⟨⟨?_, ?_, ?_, ?_, ?_, ?_⟩, ?_, ?_, ?_, ?_, ?_, fun hr => ?_, fun v hv => ⟨?_, ?_⟩⟩
  · rw [hkept.mem, State.setTmc_tmc, hxeq]
  · rw [hkept.marks, State.setTmc_tmc, hxeq]
  · rw [hkept.corrected, State.setTmc_tmc, hxeq]
  · rw [hkept.uncorrectable, State.setTmc_tmc, hxeq]
  · rw [hkept.poisonedWrite, State.setTmc_tmc, hxeq]
  · rw [hkept.deferred, State.setTmc_tmc, hxeq]
  · rw [hkept.jobs, State.setTmc_tmc, hxeq]
  · rw [hkept.inProgress, State.setTmc_tmc, hxeq]
  · rw [hkept.debt, State.setTmc_tmc, hxeq]
  · rw [hkept.lastSlot, State.setTmc_tmc, hxeq]
  · rw [hkept.lastInternal, State.setTmc_tmc, hxeq]
  · generalize t.tmc = y, t.swq = z, t.evu = e at hframe ⊢
    rw [hframe, hr]
    rfl
  · rw [hcounts.tbp hrested, State.setTmc_tmc, hxeq, ← hv]
  · rw [hcounts.internal hrested, State.setTmc_tmc, hxeq, ← hv]

end Sys2Proof.Machine
end

section
/-! PROOFS. A grant: what carrying out an access leaves of the arbiter's figures, and the service order. -/

set_option Elab.async false

namespace Sys2Proof.Machine

variable {s t u : State} {a : Access} {flips : List BitFlip}

/-! ### What carrying out an access leaves alone -/

/-- The part differs in the TMC and the links alone, and the TMC in none of the arbiter's figures. -/
structure ArbiterKept (s t : State) : Prop where
  rest : t = { s with tmc := t.tmc, blc := t.blc }
  presented : t.tmc.presented = s.tmc.presented
  debt : t.tmc.debt = s.tmc.debt
  tbpWait : t.tmc.tbpWait = s.tmc.tbpWait
  internalWait : t.tmc.internalWait = s.tmc.internalWait
  lastSlot : t.tmc.lastSlot = s.tmc.lastSlot
  lastInternal : t.tmc.lastInternal = s.tmc.lastInternal

theorem WordsMoved.arbiterKept (h : WordsMoved s t) : ArbiterKept s t := by
  have hrest := h.rest
  generalize t.tmc.mem = a, t.tmc.marks = b, t.tmc.corrected = c, t.tmc.uncorrectable = d, t.tmc.poisonedWrite = e, t.tmc.deferred = f at hrest
  subst hrest
  exact ⟨rfl, rfl, rfl, rfl, rfl, rfl, rfl⟩

theorem WordsMoved.blc (h : WordsMoved s t) : t.blc = s.blc := by
  rw [h.rest]
  rfl

theorem WordsMoved.jobs (h : WordsMoved s t) : t.tmc.jobs = s.tmc.jobs := by
  rw [h.rest]
  rfl

theorem WordsMoved.plu (h : WordsMoved s t) : t.plu = s.plu := by
  rw [h.rest]
  rfl

theorem ArbiterKept.changeJob (h : ArbiterKept s t) (job : Nat) (f : BusJob → BusJob) : ArbiterKept s (t.setTmc (t.tmc.changeJob job f)) := by
  refine ⟨?_, h.presented, h.debt, h.tbpWait, h.internalWait, h.lastSlot, h.lastInternal⟩
  have hrest := h.rest
  generalize t.tmc = x, t.blc = y at hrest ⊢
  subst hrest
  rfl

theorem ArbiterKept.setLink (h : ArbiterKept s t) (b : Slot) (l : Link) : ArbiterKept s (t.setLink b l) := by
  refine ⟨?_, h.presented, h.debt, h.tbpWait, h.internalWait, h.lastSlot, h.lastInternal⟩
  have hrest := h.rest
  generalize t.tmc = x, t.blc = y at hrest ⊢
  subst hrest
  rfl

theorem arbiterKept_carryOut (s : State) (a : Access) (flips : List BitFlip) : ArbiterKept s (carryOut s a flips).st := by
  have hread := (wordsMoved_lineRead s a.line flips).arbiterKept
  unfold carryOut
  split
  · dsimp only
    split
    · exact hread.setLink _ _
    · exact hread
  · exact hread
  · exact hread.changeJob _ _
  · split
    · exact (wordsMoved_lineWrite _ _ _ _).arbiterKept
    · dsimp only
      split
      · exact (wordsMoved_mergeWrite _ _ _ _ _).arbiterKept.changeJob _ _
      · exact (wordsMoved_mergeWrite _ _ _ _ _).arbiterKept
  · split
    · exact (wordsMoved_lineWrite _ _ _ _).arbiterKept
    · exact ⟨rfl, rfl, rfl, rfl, rfl, rfl, rfl⟩
  · exact hread
  · exact hread
  · exact (wordsMoved_copyLine _ _ _ _).arbiterKept
  · exact (wordsMoved_deferredRead _ _ _).arbiterKept
  · exact (wordsMoved_patrolRead _ _ _).arbiterKept

/-- A read leaves table memory as it was. -/
theorem lineRead_mem_eq (s : State) (line : Nat) (flips : List BitFlip) : (lineRead s line flips).st.tmc.mem = s.tmc.mem := by
  have hf := Tmc.applyFlips_eq s.tmc line flips
  have hscrub : ∀ u : State, (scrubRead u line).tmc.mem = u.tmc.mem := fun u => by
    unfold scrubRead
    split
    · split
      · unfold Tmc.defer
        split <;> rfl
      · rw [State.setTmc_tmc, Tmc.writeBack_eq]
    · rw [State.setTmc_tmc, Tmc.writeBack_eq]
  have hfound : (s.tmc.applyFlips line flips).mem = s.tmc.mem := by rw [hf]
  unfold lineRead
  dsimp only
  split
  · exact hfound
  · exact (hscrub _).trans hfound

/-- The states on which the grant's access is carried out, and of those that have it counted. -/
theorem granted_arbiterKept (s : State) (a : Access) (flips : List BitFlip) : ArbiterKept (countedGrant s a) (carryOut (countedGrant s a) a flips).st :=
  arbiterKept_carryOut _ _ _

theorem granted_frame (s : State) (a : Access) (flips : List BitFlip) : granted s a flips = { s with
    tmc := (granted s a flips).tmc, swq := (granted s a flips).swq, blc := (granted s a flips).blc, evu := (granted s a flips).evu } := by
  have hframe := (granted_left s a flips).frame (granted_arbiterKept s a flips).rest
  generalize (carryOut (countedGrant s a) a flips).st.blc = y at hframe
  generalize granted s a flips = t at hframe ⊢
  have hblc : t.blc = y := by rw [hframe]
  rw [hblc]
  exact hframe

/-- An access that is no fetch read leaves the links. -/
theorem granted_frame_of_blc (h : (carryOut (countedGrant s a) a flips).st.blc = s.blc) : granted s a flips = { s with
    tmc := (granted s a flips).tmc, swq := (granted s a flips).swq, evu := (granted s a flips).evu } := by
  have hframe := (granted_left s a flips).frame (granted_arbiterKept s a flips).rest
  rw [h] at hframe
  generalize granted s a flips = t at hframe ⊢
  exact hframe

theorem granted_blc (s : State) (a : Access) (flips : List BitFlip) : (granted s a flips).blc = (carryOut (countedGrant s a) a flips).st.blc := by
  have hframe := (granted_left s a flips).frame (granted_arbiterKept s a flips).rest
  generalize (carryOut (countedGrant s a) a flips).st.blc = y at hframe ⊢
  generalize granted s a flips = t at hframe ⊢
  rw [hframe]

theorem granted_inProgress (s : State) (a : Access) (flips : List BitFlip) : (granted s a flips).tmc.inProgress.map (·.access) = some a := by
  rw [(granted_left s a flips).inProgress]
  rfl

/-! ### The counts and the rotations -/

theorem granted_tbpWait (s : State) (a : Access) (flips : List BitFlip) : (granted s a flips).tmc.tbpWait =
    if (s.tmc.presented.erase a).any (fun x => x.kind.isTbp) then
      (if a.kind.isTbp then 0 else if s.tmc.eligible.any (fun x => x.kind.isTbp) then min 3 (s.tmc.tbpWait + 1) else s.tmc.tbpWait) else 0 := by
  have hcarried := granted_arbiterKept s a flips
  rw [((granted_left s a flips).counts _ hcarried.presented).1, hcarried.tbpWait]
  rfl

theorem granted_internalWait (s : State) (a : Access) (flips : List BitFlip) : (granted s a flips).tmc.internalWait =
    if (s.tmc.presented.erase a).any (fun x => x.kind.isInternal) then
      (if a.kind.isInternal then 0 else if s.tmc.eligible.any (fun x => x.kind.isInternal) then min 7 (s.tmc.internalWait + 1)
        else s.tmc.internalWait) else 0 := by
  have hcarried := granted_arbiterKept s a flips
  rw [((granted_left s a flips).counts _ hcarried.presented).2, hcarried.internalWait]
  rfl

/-- The count of one class through a grant: `left` is whether the class has one presented still, `eligible` whether it had an eligible one (R57). -/
theorem classCount {p : Access → Bool} {n m : Nat} (a : Access) (k : Nat) (h : n = if (s.tmc.presented.erase a).any p then
      (if p a then 0 else if s.tmc.eligible.any p then k else m) else 0) :
    (p a = true → n = 0) ∧ ((∀ x ∈ s.tmc.presented, ¬p x = true) → n = 0) ∧
    (¬p a = true → ¬s.noneEligible (fun x => p x = true) → n = k) ∧
    (¬p a = true → s.noneEligible (fun x => p x = true) → (∃ x ∈ s.tmc.presented, p x = true) → n = m) := by
  have hleft : ∀ x ∈ s.tmc.presented, p x = true → ¬p a = true → (s.tmc.presented.erase a).any p = true := fun x hx hp ha =>
    List.any_eq_true.2 ⟨x, (List.mem_erase_of_ne fun (e : x = a) => ha (e ▸ hp)).2 hx, hp⟩
  refine ⟨fun ha => ?_, fun hnone => ?_, fun ha hsome => ?_, fun ha hnone ⟨x, hx, hp⟩ => ?_⟩
  · rw [h, if_pos ha, ite_self]
  · rw [h, if_neg]
    intro hany
    obtain ⟨x, hx, hp⟩ := List.any_eq_true.1 hany
    exact hnone x (List.mem_of_mem_erase hx) hp
  · obtain ⟨x, hfind⟩ := find_eligible_of_some (fun _ => Iff.rfl) hsome
    have hp : p x = true := List.find?_some hfind
    have hmem := List.mem_of_find?_eq_some hfind
    obtain ⟨i, hi⟩ := (mem_eligible_iff s x).1 hmem
    rw [h, if_pos (hleft x (List.mem_of_getElem? hi.1) hp ha), if_neg ha, if_pos (List.any_eq_true.2 ⟨x, hmem, hp⟩)]
  · rw [h, if_pos (hleft x hx hp ha), if_neg ha, if_neg]
    intro hany
    obtain ⟨y, hy, hpy⟩ := List.any_eq_true.1 hany
    obtain ⟨i, hi⟩ := (mem_eligible_iff s y).1 hy
    exact hnone i y hi hpy

theorem granted_counted (s : State) (a : Access) (flips : List BitFlip) : grantCounted s (granted s a flips) a := by
  obtain ⟨htbp, htbpNone, htbpRises, htbpStays⟩ := classCount (s := s) (p := fun x => x.kind.isTbp) a _ (granted_tbpWait s a flips)
  obtain ⟨hint, hintNone, hintRises, hintStays⟩ := classCount (s := s) (p := fun x => x.kind.isInternal) a _ (granted_internalWait s a flips)
  have hcarried := granted_arbiterKept s a flips
  have hleft := granted_left s a flips
  exact ⟨htbp, hint, htbpNone, hintNone, htbpRises, hintRises, htbpStays, hintStays, hleft.lastSlot.trans hcarried.lastSlot,
    hleft.lastInternal.trans hcarried.lastInternal⟩

theorem granted_debt (s : State) (a : Access) (flips : List BitFlip) : (granted s a flips).tmc.debt = s.tmc.debt :=
  (granted_left s a flips).debt.trans (granted_arbiterKept s a flips).debt

/-! ### A refresh -/

/-- A granted refresh pays one of the debt and leaves memory (R59, Table 3.4-2 rows 1 and 7). -/
theorem refresh_granted (flips : List BitFlip) (hinit : s.tmc.initDone = true) (hactive : s.tmc.power = .active) (hfree : s.tmc.channelFree = true)
    (hchoose : choose s = .refresh) : ∃ t, exec (.grant flips) s = .next t ∧ t.tmc.debt = s.tmc.debt - 1 ∧ t.tmc.inProgress = none ∧
      memoryKept s t ∧ t.tmc.marks = s.tmc.marks ∧ t = { s with tmc := t.tmc, swq := t.swq, evu := t.evu } := by
  have hsame : choose (s.setTmc { s.tmc with inProgress := none }) = .refresh := hchoose
  have hst : ∃ x, tmcRest (s.setTmc { s.tmc with inProgress := none, debt := s.tmc.debt - 1 }) = s.setTmc x ∧ x.debt = s.tmc.debt - 1 ∧
      x.inProgress = none ∧ x.mem = s.tmc.mem ∧ x.marks = s.tmc.marks := ⟨_, rfl, rfl, rfl, rfl, rfl⟩
  obtain ⟨x, hx, hdebt, hprogress, hmem, hmarks⟩ := hst
  have honce : grantOnce s flips = some (s.setTmc x) := by
    unfold grantOnce
    rw [if_neg (by rw [hinit]; exact Bool.false_ne_true), if_neg (by rw [hactive, hfree]; exact Bool.false_ne_true)]
    dsimp only
    rw [hsame]
    exact congrArg some hx
  have hexec : exec (.grant flips) s = finish s ((Work.start s).map fun _ => s.setTmc x) := by
    show execGrant flips s = _
    unfold execGrant
    rw [honce]
  rw [hexec]
  generalize hw : ((Work.start s).map fun _ => s.setTmc x) = w
  have hwst : w.st = s.setTmc x := by rw [← hw]; rfl
  have hkept := publish_tmcKept s w
  have hframe := publish_frame s w hwst
  rw [hwst] at hkept
  refine finished ?_
  generalize publish s w = t at hkept hframe ⊢
  refine ⟨?_, ?_, fun a => ?_, ?_, ?_⟩
  · rw [hkept.debt, State.setTmc_tmc, hdebt]
  · rw [hkept.inProgress, State.setTmc_tmc, hprogress]
  · rw [hkept.mem, State.setTmc_tmc, hmem]
  · rw [hkept.marks, State.setTmc_tmc, hmarks]
  · exact hframe

theorem channelFree_of_none (h : s.tmc.inProgress = none) : s.tmc.channelFree = true := by
  unfold Tmc.channelFree
  rw [h]

/-! ### An access that stands alone -/

theorem eligibleAt_alone (h : s.tmc.presented = [a]) (i : Nat) (x : Access) : s.eligibleAt i x ↔ i = 0 ∧ x = a := by
  unfold State.eligibleAt
  rw [h]
  constructor
  · rintro ⟨hx, -⟩
    cases i with
    | zero => exact ⟨rfl, (Option.some.inj hx).symm⟩
    | succ i => cases hx
  · rintro ⟨rfl, rfl⟩
    exact ⟨rfl, fun j y hj => absurd hj (Nat.not_lt_zero j)⟩

theorem oldest_alone (h : s.tmc.presented = [a]) {p : Access → Prop} (hp : p a) : s.oldest p a :=
  ⟨hp, 0, (eligibleAt_alone h 0 a).2 ⟨rfl, rfl⟩, fun j _ hj => absurd hj (Nat.not_lt_zero j)⟩

theorem noneEligible_alone (h : s.tmc.presented = [a]) {p : Access → Prop} (hp : ¬p a) : s.noneEligible p := fun i x hx => by
  obtain ⟨-, rfl⟩ := (eligibleAt_alone h i x).1 hx
  exact hp

theorem fetchReady_alone (h : s.tmc.presented = [a]) (b : Slot) (x : Access) : s.fetchReady b x ↔ x = a ∧ a.slot = some b := by
  constructor
  · rintro ⟨i, hi, hslot, -⟩
    obtain ⟨-, rfl⟩ := (eligibleAt_alone h i x).1 hi
    exact ⟨rfl, hslot⟩
  · rintro ⟨rfl, hslot⟩
    exact ⟨0, (eligibleAt_alone h 0 x).2 ⟨rfl, rfl⟩, hslot, fun j _ hj => absurd hj (Nat.not_lt_zero j)⟩

/-- The access is of a kind that the arbiter grants by rows 4 to 6 or, with no debt left, by row 8 of Table 3.4-2. -/
def Access.granted (s : State) (a : Access) : Prop :=
  a.slot.isSome = true ∨ a.kind.isTbp = true ∨ a.kind.isInternal = true ∨
    s.tmc.debt = 0 ∧ (a.kind = .patrol ∨ ∃ e ∈ s.tmc.deferred, a.kind.scrub = some e)

/-- An access has one class. -/
theorem Access.classes (a : Access) : (a.kind.isTbp = true → a.slot = none ∧ a.kind.isInternal = false) ∧
    (a.slot.isSome = true → a.kind.isTbp = false ∧ a.kind.isInternal = false) ∧
    (a.kind = .patrol ∨ a.kind.scrub.isSome = true → a.slot = none ∧ a.kind.isTbp = false ∧ a.kind.isInternal = false) := by
  unfold Access.slot AccessKind.isInternal
  cases a.kind <;> simp [AccessKind.isTbp, AccessKind.place, AccessKind.scrub]

theorem choose_alone (hdebt : s.tmc.debt < 8) (h : s.tmc.presented = [a]) (hkind : a.granted s) : choose s = .access a := by
  obtain ⟨htbpClass, hfetchClass, hscrubClass⟩ := a.classes
  have hfetches : a.slot = none → ¬∃ b x, s.fetchReady b x := fun hslot ⟨b, x, hx⟩ => by
    have := ((fetchReady_alone h b x).1 hx).2
    rw [hslot] at this
    cases this
  refine choose_of_serves ⟨hdebt, ?_⟩
  rcases hkind with hslot | htbp | hint | ⟨hzero, hscrub⟩
  · obtain ⟨htbp, hint⟩ := hfetchClass hslot
    obtain ⟨b, hb⟩ := Option.isSome_iff_exists.1 hslot
    refine .inr (.inr (.inl ⟨fun hdue => hdue.2 (noneEligible_alone h (by rw [htbp]; exact Bool.false_ne_true)),
      fun hdue => hdue.2 (noneEligible_alone h (by rw [hint]; exact Bool.false_ne_true)), b, (fetchReady_alone h b a).2 ⟨rfl, hb⟩, fun c x hx => ?_⟩))
    have hsame : some b = some c := hb.symm.trans ((fetchReady_alone h c x).1 hx).2
    rw [Option.some.inj hsame]
  · obtain ⟨hslot, hint⟩ := htbpClass htbp
    by_cases hdue : s.tmc.tbpWait = 3 ∧ ¬s.noneEligible (fun x => x.kind.isTbp = true)
    · exact .inl ⟨hdue, oldest_alone h htbp⟩
    · exact .inr (.inr (.inr (.inl ⟨hdue, fun hdue => hdue.2 (noneEligible_alone h (by rw [hint]; exact Bool.false_ne_true)), hfetches hslot,
        oldest_alone h htbp⟩)))
  · have htbp : ¬a.kind.isTbp = true := fun htbp => by
      rw [(htbpClass htbp).2] at hint
      cases hint
    have hslot : a.slot = none := by
      cases hs : a.slot with
      | none => rfl
      | some b =>
        rw [(hfetchClass (by rw [hs]; rfl)).2] at hint
        cases hint
    obtain ⟨p, hp⟩ := Option.isSome_iff_exists.1 (show a.kind.place.isSome = true from hint)
    have hturn : s.internalTurn a := by
      refine ⟨p, hp, fun q i x hx hq => ?_, oldest_alone h ⟨hp, Iff.rfl⟩, .inr (noneEligible_alone h fun hne => hne.2 Iff.rfl)⟩
      obtain ⟨-, rfl⟩ := (eligibleAt_alone h i x).1 hx
      have hsame : some p = some q := hp.symm.trans hq
      rw [Option.some.inj hsame]
    have hnoTbp : s.noneEligible (fun x => x.kind.isTbp = true) := noneEligible_alone h htbp
    by_cases hdue : 6 ≤ s.tmc.internalWait ∧ ¬s.noneEligible (fun x => x.kind.isInternal = true)
    · exact .inr (.inl ⟨fun hd => hd.2 hnoTbp, hdue, hturn⟩)
    · exact .inr (.inr (.inr (.inr (.inl ⟨fun hd => hd.2 hnoTbp, hdue, hfetches hslot, hnoTbp, hturn⟩))))
  · obtain ⟨hslot, htbp, hint⟩ := hscrubClass (hscrub.imp_right fun ⟨e, _, he⟩ => by rw [he]; rfl)
    refine .inr (.inr (.inr (.inr (.inr ⟨⟨fun b x hx => hfetches hslot ⟨b, x, hx⟩, noneEligible_alone h (by rw [htbp]; exact Bool.false_ne_true),
      noneEligible_alone h (by rw [hint]; exact Bool.false_ne_true)⟩, hzero, ?_⟩))))
    rcases hscrub with hpatrol | ⟨e, hmem, he⟩
    · exact .inr ⟨fun e _ => noneEligible_alone h (by rw [hpatrol]; exact fun hn => (nomatch hn)), oldest_alone h hpatrol⟩
    · obtain ⟨f, hf⟩ := Option.isSome_iff_exists.1 (List.find?_isSome (p := fun e => decide (a.kind.scrub = some e)).2 ⟨e, hmem, decide_eq_true he⟩)
      obtain ⟨hscrub, n, hlt, hn, hbefore⟩ := List.find?_eq_some_iff_getElem.1 hf
      refine .inl ⟨n, f, List.getElem?_eq_some_iff.2 ⟨hlt, hn⟩, oldest_alone h (of_decide_eq_true hscrub), fun m g hm hg => ?_⟩
      obtain ⟨hmlt, rfl⟩ := List.getElem?_eq_some_iff.1 hg
      exact noneEligible_alone h (by simpa using hbefore m hm)

/-- The answer to a grant of an access that stands alone. -/
theorem grant_alone (h : s.grants a) (hkind : a.granted s) : exec (.grant flips) s = .next (granted s a flips) := by
  obtain ⟨hinit, hactive, hnone, hdebt, hpresented, hline, -⟩ := h
  exact grant_of_choice hinit hactive (channelFree_of_none hnone) (choose_alone hdebt hpresented hkind) hline

end Sys2Proof.Machine
end

section
/-! PROOFS. O22: the grants of Table 3.4-2 and what the granted reads and scrubs leave. -/

set_option Elab.async false

namespace Sys2Proof.Machine

variable {s t u : State} {a : Access} {flips : List BitFlip} {line : Nat}

/-! ### The reads at their grant -/

theorem foundBad_counted (s : State) (a : Access) (line : Nat) (flips : List BitFlip) : (countedGrant s a).foundBad line flips = s.foundBad line flips := by
  unfold State.foundBad
  rw [found_sameWords (countedGrant_sameWords s a)]

/-- What a read carried out at a grant leaves of the words. -/
theorem granted_readLeaves (hwf : sparseWf .clean s.tmc.marks = true)
    (hcarried : SameWords (lineRead (countedGrant s a) a.line flips).st (carryOut (countedGrant s a) a flips).st) :
    readLeaves s (granted s a flips) a.line flips :=
  readLeaves_congr (countedGrant_sameWords s a) (hcarried.trans (granted_left s a flips).words)
    (lineRead_leaves (countedGrant s a) a.line flips hwf)

theorem granted_memoryKept (hcarried : (carryOut (countedGrant s a) a flips).st.tmc.mem = s.tmc.mem) : memoryKept s (granted s a flips) := fun x => by
  rw [(granted_left s a flips).words.mem, hcarried]

/-- The bus read at its grant. -/
theorem carryOut_busRead (s : State) (job i line : Nat) (flips : List BitFlip) : carryOut s ⟨.busRead job i, line⟩ flips =
    ⟨(lineRead s line flips).st.setTmc ((lineRead s line flips).st.tmc.changeJob job
      (fun j => j.take i (lineRead s line flips).data (lineRead s line flips).bad)), [], (lineRead s line flips).bad⟩ := rfl

/-- A fetch read at its grant; its slot takes the line where the fetch stands. -/
theorem carryOut_fetch (s : State) (b : Slot) (tag : FetchTag) (k line : Nat) (flips : List BitFlip) :
    (carryOut s ⟨.fetch b tag k, line⟩ flips).st.tmc = (lineRead s line flips).st.tmc ∧
    ∀ f, (s.link b).fetches.get tag = some f → (carryOut s ⟨.fetch b tag k, line⟩ flips).st = (lineRead s line flips).st.setLink b { s.link b with
      fetches := Vector.put (s.link b).fetches tag (some { f with got := f.got ++ [s.lineData line], failed := f.failed || s.foundBad line flips }) } := by
  have hblc : (lineRead s line flips).st.link b = s.link b := congrArg (fun v => Vector.get v b) (wordsMoved_lineRead s line flips).blc
  rw [← lineRead_data s line flips, ← lineRead_bad s line flips]
  unfold carryOut
  dsimp only
  rw [hblc]
  refine ⟨?_, fun f hf => ?_⟩
  · split <;> rfl
  · rw [hf]

/-! ### The grant of one of two -/

/-- A bus read and a fetch read of another line presented, and below their limits: the bus read goes at a count of 3 (Table 3.4-2). -/
theorem serves_pair {x f : Access} {job i k : Nat} {b : Slot} {tag : FetchTag} (hdebt : s.tmc.debt < 8) (hpresented : s.tmc.presented = [x, f])
    (hx : x.kind = .busRead job i) (hf : f.kind = .fetch b tag k) (hne : x.line ≠ f.line) (hinternal : s.tmc.internalWait < 6) :
    s.serves (if s.tmc.tbpWait = 3 then x else f) ∧ s.eligibleAt 0 x := by
  have hlines : ∀ l ∈ f.lines, l ∉ x.lines := by
    unfold Access.lines
    rw [hx, hf]
    simpa using fun h : f.line = x.line => hne h.symm
  have hfirst : s.eligibleAt 0 x := by
    refine ⟨by rw [hpresented]; rfl, fun j y hj => absurd hj (Nat.not_lt_zero j)⟩
  have hsecond : s.eligibleAt 1 f := by
    refine ⟨by rw [hpresented]; rfl, fun j y hj hy => ?_⟩
    obtain rfl : j = 0 := by omega
    rw [hpresented] at hy
    obtain rfl : x = y := Option.some.inj hy
    exact hlines
  have hslotX : x.slot = none := by
    unfold Access.slot
    rw [hx]
  have hslotF : f.slot = some b := by
    unfold Access.slot
    rw [hf]
  have hfetch : s.fetchTurn f := by
    refine ⟨b, ⟨1, hsecond, hslotF, fun j y hj hy => ?_⟩, fun c y hy => ?_⟩
    · obtain rfl : j = 0 := by omega
      rw [hpresented] at hy
      obtain rfl : x = y := Option.some.inj hy
      rw [hslotX]
      exact fun h => (nomatch h)
    · obtain ⟨j, hj, hslot, -⟩ := hy
      have hmem : y ∈ [x, f] := hpresented ▸ List.mem_of_getElem? hj.1
      rcases List.mem_cons.1 hmem with rfl | hmem
      · rw [hslotX] at hslot
        cases hslot
      · rw [List.mem_singleton.1 hmem, hslotF] at hslot
        rw [Option.some.inj hslot]
  refine ⟨⟨hdebt, ?_⟩, hfirst⟩
  have htbp : x.kind.isTbp = true := by rw [hx]; rfl
  by_cases hwait : s.tmc.tbpWait = 3
  · rw [if_pos hwait]
    exact .inl ⟨⟨hwait, fun h => h 0 x hfirst htbp⟩, htbp, 0, hfirst, fun j _ hj => absurd hj (Nat.not_lt_zero j)⟩
  · rw [if_neg hwait]
    exact .inr (.inr (.inl ⟨fun h => hwait h.1, fun h => absurd h.1 (by omega), hfetch⟩))

/-- Settles O22, row by row of Table 3.4-2: the arbiter's choice is the access that the table serves, and a granted read, patrol read or
deferred scrub is the line operation that its kind carries out. -/
theorem grantFollowsTheServiceOrder : Obligations.GrantFollowsTheServiceOrder := by
  refine ⟨?_, ?_, ?_, ?_, ?_, ?_, ?_, ?_, ?_, ?_⟩
  · intro s flips hinit hactive hnone hdebt
    exact refresh_granted flips hinit hactive (channelFree_of_none hnone) (if_pos hdebt)
  · intro s flips x f job i k b tag hinit hactive hnone hdebt hpresented hx hf hne hlineX hlineF hwait hinternal
    obtain ⟨hserves, hfirst⟩ := serves_pair hdebt hpresented hx hf hne hinternal
    have hcounted := granted_counted s (if s.tmc.tbpWait = 3 then x else f) flips
    have hxTbp : x.kind.isTbp = true := by rw [hx]; rfl
    have hfTbp : ¬f.kind.isTbp = true := by rw [hf]; exact Bool.false_ne_true
    refine ⟨_, grant_of_choice hinit hactive (channelFree_of_none hnone) (choose_of_serves hserves) ?_, granted_inProgress s _ flips, ?_, ?_,
      granted_frame s _ flips⟩
    · split
      · exact hlineX
      · exact hlineF
    · obtain ⟨htbp, -, -, -, hrises, -⟩ := hcounted
      by_cases h3 : s.tmc.tbpWait = 3
      · rw [if_pos h3] at htbp ⊢
        rw [if_pos h3]
        exact htbp hxTbp
      · rw [if_neg h3] at hrises ⊢
        rw [if_neg h3, hrises hfTbp (fun h => h 0 x hfirst hxTbp)]
        omega
    · refine granted_memoryKept ?_
      split
      · obtain ⟨kind, line⟩ := x
        obtain rfl : kind = .busRead job i := hx
        exact lineRead_mem_eq _ _ _
      · obtain ⟨kind, line⟩ := f
        obtain rfl : kind = .fetch b tag k := hf
        rw [(carryOut_fetch _ b tag k line flips).1]
        exact lineRead_mem_eq _ _ _
  · intro s flips a hinit hactive hfree hline hserves
    exact ⟨_, grant_of_choice hinit hactive hfree (choose_of_serves hserves) hline, granted_inProgress s a flips, granted_debt s a flips,
      granted_counted s a flips, granted_frame s a flips⟩
  · intro s flips hinit hactive hfree hpos hdebt hnone
    exact refresh_granted flips hinit hactive hfree ((choose_rest hdebt hnone).trans (if_pos hpos))
  · intro s flips line h hzero
    obtain ⟨-, -, -, -, -, -, hwf⟩ := id h
    exact ⟨_, grant_alone h (.inr (.inr (.inr ⟨hzero, .inl rfl⟩))), granted_inProgress s _ flips,
      patrolLeaves_congr (countedGrant_sameWords s _) (granted_left s ⟨.patrol, line⟩ flips).words (patrolRead_leaves _ line flips hwf),
      granted_frame_of_blc (wordsMoved_patrolRead (countedGrant s ⟨.patrol, line⟩) line flips).blc⟩
  · intro s flips b k line h hzero hmem
    obtain ⟨-, -, -, -, -, -, hwf⟩ := id h
    exact ⟨_, grant_alone h (.inr (.inr (.inr ⟨hzero, .inr ⟨(b, k), hmem, rfl⟩⟩))), granted_inProgress s _ flips,
      deferredLeaves_congr (countedGrant_sameWords s _) (granted_left s ⟨.deferredScrub b k, line⟩ flips).words (deferredRead_leaves _ line flips hwf),
      granted_frame_of_blc (wordsMoved_deferredRead (countedGrant s ⟨.deferredScrub b k, line⟩) line flips).blc⟩
  · intro s flips job i line h
    obtain ⟨-, -, -, -, -, -, hwf⟩ := id h
    have hmoved := wordsMoved_lineRead (countedGrant s ⟨.busRead job i, line⟩) line flips
    refine ⟨_, grant_alone h (.inr (.inl rfl)), ?_, granted_readLeaves hwf ⟨rfl, rfl, rfl, rfl, rfl, rfl⟩, granted_frame_of_blc hmoved.blc⟩
    rw [(granted_left s _ flips).jobs, carryOut_busRead, lineRead_data, lineRead_bad, foundBad_counted]
    exact congrArg (List.map _) hmoved.jobs
  · intro s flips b tag k line f h hf
    obtain ⟨-, -, -, -, -, -, hwf⟩ := id h
    have hmoved := wordsMoved_lineRead (countedGrant s ⟨.fetch b tag k, line⟩) line flips
    obtain ⟨htmc, hst⟩ := carryOut_fetch (countedGrant s ⟨.fetch b tag k, line⟩) b tag k line flips
    have hst := hst f hf
    rw [foundBad_counted] at hst
    have hlink : ∀ c, (granted s ⟨.fetch b tag k, line⟩ flips).link c = if c = b then { s.link b with
        fetches := Vector.put (s.link b).fetches tag (some { f with got := f.got ++ [s.lineData line], failed := f.failed || s.foundBad line flips }) }
        else s.link c := fun c => by
      have hc : (granted s ⟨.fetch b tag k, line⟩ flips).link c = (carryOut (countedGrant s ⟨.fetch b tag k, line⟩) ⟨.fetch b tag k, line⟩ flips).st.link c :=
        congrArg (fun v => Vector.get v c) (granted_blc s _ flips)
      rw [hc, hst, State.link_setLink]
      exact if_congr Iff.rfl rfl (congrArg (fun v => Vector.get v c) hmoved.blc)
    have hgot : ((granted s ⟨.fetch b tag k, line⟩ flips).link b).fetches.get tag =
        some { f with got := f.got ++ [s.lineData line], failed := f.failed || s.foundBad line flips } := by
      rw [hlink b, if_pos rfl, Vector.get_put, if_pos rfl]
    refine ⟨_, grant_alone h (.inl rfl), hgot, ?_, fun c hc => (hlink c).trans (if_neg hc), granted_readLeaves hwf ?_, granted_frame s _ flips⟩
    · rw [hgot, hlink b, if_pos rfl]
    · exact ⟨by rw [htmc], by rw [htmc], by rw [htmc], by rw [htmc], by rw [htmc], by rw [htmc]⟩
  · intro s flips a hkind h
    obtain ⟨-, -, -, -, -, -, hwf⟩ := id h
    have hcarry : carryOut (countedGrant s a) a flips = lineRead (countedGrant s a) a.line flips := by
      obtain ⟨kind, line⟩ := a
      rcases hkind with ⟨run, rfl⟩ | ⟨k, rfl⟩ <;> rfl
    have hinternal : a.kind.isInternal = true := by
      rcases hkind with ⟨run, hk⟩ | ⟨k, hk⟩ <;> rw [hk] <;> rfl
    refine ⟨_, grant_alone h (.inr (.inr (.inl hinternal))), ?_, granted_readLeaves hwf (hcarry ▸ .refl _), granted_frame_of_blc ?_⟩
    · rw [(granted_left s a flips).inProgress, hcarry, lineRead_data, lineRead_bad, foundBad_counted]
      rfl
    · rw [hcarry]
      exact (wordsMoved_lineRead _ _ _).blc
  · intro s line f hwf
    have hmark : ∀ i, i < 8 → s.found line [f] i = if line = line ∧ i = f.word.1 then (s.tmc.mark line f.word.1).disturb f.double else s.tmc.mark line i :=
      fun i hi => Tmc.mark_setMark hwf f.word.2 hi line line _
    refine ⟨rfl, ?_, fun i hi hne => ?_⟩
    · rw [hmark _ f.word.2, if_pos ⟨rfl, rfl⟩]
      cases s.tmc.mark line f.word.1 <;> rfl
    · rw [hmark i hi, if_neg fun h => hne h.2]

end Sys2Proof.Machine
end

section
/-! PROOFS. O21: the granted writes, merges and copies. -/

set_option Elab.async false

namespace Sys2Proof.Machine

variable {s t u : State} {a : Access} {flips : List BitFlip} {line live job i : Nat} {bytes : List (Option Byte)}

/-- A grant of an access beyond table memory stops the part (log entry 10). -/
theorem grant_outside (hinit : s.tmc.initDone = true) (hactive : s.tmc.power = .active) (hfree : s.tmc.channelFree = true)
    (hchoose : choose s = .access a) (hline : memoryLines s.tmc.density ≤ a.line) : exec (.grant flips) s = .fault .outsideTableMemory := by
  have hsame : choose (s.setTmc { s.tmc with inProgress := none }) = .access a := hchoose
  have honce : grantOnce s flips = none := by
    unfold grantOnce
    rw [if_neg (by rw [hinit]; exact Bool.false_ne_true), if_neg (by rw [hactive, hfree]; exact Bool.false_ne_true)]
    dsimp only
    rw [hsame]
    exact if_neg (Nat.not_lt.2 hline)
  show execGrant flips s = _
  unfold execGrant
  rw [honce]

/-- What a masked write carried out at a grant leaves. -/
theorem granted_writeLeaves (hlength : bytes.length = 64) (hmem : s.tmc.mem.wf = true) (hwf : sparseWf .clean s.tmc.marks = true)
    (hcarried : (carryOut (countedGrant s a) a flips).st = lineWrite (countedGrant s a) line bytes flips) :
    writeLeaves s (granted s a flips) line flips bytes :=
  writeLeaves_congr (countedGrant_sameWords s a) (hcarried ▸ (granted_left s a flips).words)
    (lineWrite_leaves (countedGrant s a) line bytes flips hlength hmem hwf)

/-- A merge at its grant: its write, and the job takes the line among its errors where the live line is uncorrectable (R9). -/
theorem carryOut_merge (s : State) (job i line live : Nat) (bytes : List (Option Byte)) (flips : List BitFlip) :
    SameWords (mergeWrite s line live bytes flips).1 (carryOut s ⟨.busWrite job i bytes (some live), line⟩ flips).st ∧
    (carryOut s ⟨.busWrite job i bytes (some live), line⟩ flips).st.blc = s.blc ∧
    (carryOut s ⟨.busWrite job i bytes (some live), line⟩ flips).data = [] ∧
    (carryOut s ⟨.busWrite job i bytes (some live), line⟩ flips).bad = s.foundBad live flips ∧
    (carryOut s ⟨.busWrite job i bytes (some live), line⟩ flips).st.tmc.jobs = if s.foundBad live flips then s.tmc.jobs.map (fun j => if j.id = job then
      { j with mergeErrors := j.mergeErrors ++ ((bankLineOf s line).map (·.2)).toList } else j) else s.tmc.jobs := by
  have hmoved := wordsMoved_mergeWrite s line live bytes flips
  have hbad := mergeWrite_bad s line live bytes flips
  have hjobs := hmoved.jobs
  unfold carryOut
  dsimp only
  generalize mergeWrite s line live bytes flips = r at hmoved hbad hjobs ⊢
  rw [hbad]
  cases s.foundBad live flips with
  | true => exact ⟨⟨rfl, rfl, rfl, rfl, rfl, rfl⟩, hmoved.blc, rfl, rfl, congrArg (List.map _) hjobs⟩
  | false => exact ⟨.refl _, hmoved.blc, rfl, rfl, hjobs⟩

/-- Settles O21: each write is the line operation that its kind carries out at the grant. -/
theorem grantWritesTheEnabledBytes : Obligations.GrantWritesTheEnabledBytes := by
  refine ⟨?_, ?_, ?_, ?_⟩
  · intro s flips job i line bytes hinit hactive hnone hdebt hpresented hlength hmem
    have hchoose := choose_alone hdebt hpresented (.inr (.inl rfl))
    have hfree := channelFree_of_none hnone
    refine ⟨fun hline => ?_, fun hline => grant_outside hinit hactive hfree hchoose hline⟩
    have hleft := granted_left s ⟨.busWrite job i bytes none, line⟩ flips
    refine ⟨_, grant_of_choice hinit hactive hfree hchoose hline, fun x => ?_, fun hwf => granted_writeLeaves hlength hmem hwf rfl, hleft.inProgress,
      granted_frame_of_blc (wordsMoved_lineWrite (countedGrant s ⟨.busWrite job i bytes none, line⟩) line bytes flips).blc⟩
    rw [hleft.words.mem]
    exact lineWrite_read (countedGrant s ⟨.busWrite job i bytes none, line⟩) line bytes flips hlength hmem x
  · intro s flips e rest h hentries hlength hmem
    obtain ⟨-, -, -, -, -, -, hwf⟩ := id h
    have hcarry : carryOut (countedGrant s ⟨.swqHead, e.line⟩) ⟨.swqHead, e.line⟩ flips =
        ⟨lineWrite (countedGrant s ⟨.swqHead, e.line⟩) e.line e.bytes flips, [], false⟩ := by
      have hcounted : (countedGrant s ⟨.swqHead, e.line⟩).swq.entries = e :: rest := hentries
      unfold carryOut
      dsimp only
      rw [hcounted]
    refine ⟨_, grant_alone h (.inr (.inr (.inl rfl))), granted_writeLeaves hlength hmem hwf (by rw [hcarry]), ?_, granted_frame_of_blc ?_⟩
    · rw [(granted_left s _ flips).inProgress, hcarry]
    · rw [hcarry]
      exact (wordsMoved_lineWrite _ _ _ _).blc
  · intro s flips job i line live bytes h hne hlength hmem
    obtain ⟨-, -, -, -, -, -, hwf⟩ := id h
    obtain ⟨hwords, hblc, hdata, hbad, hjobs⟩ := carryOut_merge (countedGrant s ⟨.busWrite job i bytes (some live), line⟩) job i line live bytes flips
    obtain ⟨hread, hclean⟩ := mergeWrite_left (countedGrant s ⟨.busWrite job i bytes (some live), line⟩) line live bytes flips hlength hmem hwf
    rw [foundBad_counted] at hbad hjobs hread hclean
    have hleft := granted_left s ⟨.busWrite job i bytes (some live), line⟩ flips
    have hsame := hwords.trans hleft.words
    refine ⟨_, grant_alone h (.inr (.inl rfl)), fun x => ?_, fun hgood k hk => ?_, fun b k hb hline => ?_, fun hgood => ?_, ?_, granted_frame_of_blc hblc⟩
    · rw [hsame.mem]
      exact hread x
    · rw [hsame.mark]
      exact hclean hgood k hk
    · have hbank : bankLineOf (countedGrant s ⟨.busWrite job i bytes (some live), line⟩) line = some (b, k) := hline
      rw [hleft.jobs, hjobs, if_pos hb, hbank]
      rfl
    · rw [hleft.jobs, hjobs, hgood]
      rfl
    · rw [hleft.inProgress, hdata, hbad]
  · intro s flips k line live h hne hmem
    obtain ⟨-, -, -, -, -, -, hwf⟩ := id h
    obtain ⟨hkept, hcopied⟩ := copyLine_left (countedGrant s ⟨.resync k live, line⟩) line live flips hmem hwf
    rw [foundBad_counted] at hkept hcopied
    have hleft := granted_left s ⟨.resync k live, line⟩ flips
    have hbad : (carryOut (countedGrant s ⟨.resync k live, line⟩) ⟨.resync k live, line⟩ flips).bad = s.foundBad live flips :=
      (copyLine_bad (countedGrant s ⟨.resync k live, line⟩) line live flips).trans (foundBad_counted _ _ _ _)
    refine ⟨_, grant_alone h (.inr (.inr (.inl rfl))), fun hb x => ?_, fun hgood => ⟨fun x => ?_, fun j hj => ?_⟩, ?_,
      granted_frame_of_blc (wordsMoved_copyLine (countedGrant s ⟨.resync k live, line⟩) line live flips).blc⟩
    · rw [hleft.words.mem]
      exact hkept hb x
    · rw [hleft.words.mem]
      exact (hcopied hgood).1 x
    · rw [hleft.words.mark]
      exact (hcopied hgood).2 j hj
    · rw [hleft.inProgress, hbad]
      rfl

end Sys2Proof.Machine
end

section
/-! PROOFS. A WRITE that is carried out: its accesses, the bank lines it stages and the words it completes. -/

set_option Elab.async false

namespace Sys2Proof.Machine

variable {r s t u : State} {w : Work} {a : Access} {k : Nat}

/-! ### What the bus and the zone unit leave of each other -/

/-- The access is of a bus write. -/
def Access.isBusWrite (a : Access) : Prop := ∃ job i bytes merge, a.kind = .busWrite job i bytes merge

/-- The TMC, the SWQ and the ZIU alone have changed, and the ZIU in neither the live image nor the stage writes in flight. -/
structure ZoneMoved (s t : State) : Prop where
  rest : t = { s with tmc := t.tmc, swq := t.swq, ziu := t.ziu }
  mem : t.tmc.mem = s.tmc.mem
  marks : t.tmc.marks = s.tmc.marks
  jobs : t.tmc.jobs = s.tmc.jobs
  asked : ∀ a : Access, a.isBusWrite → s.asked a → t.asked a
  epoch : t.ziu.epoch = s.ziu.epoch
  swap : t.ziu.swap = s.ziu.swap
  stageWrites : t.ziu.stageWrites = s.ziu.stageWrites

theorem ZoneMoved.refl (s : State) : ZoneMoved s s := ⟨rfl, rfl, rfl, rfl, fun _ _ h => h, rfl, rfl, rfl⟩

theorem ZoneMoved.trans (h : ZoneMoved r s) (g : ZoneMoved s t) : ZoneMoved r t := by
  refine ⟨?_, g.mem.trans h.mem, g.marks.trans h.marks, g.jobs.trans h.jobs, fun a ha hr => g.asked a ha (h.asked a ha hr),
    g.epoch.trans h.epoch, g.swap.trans h.swap, g.stageWrites.trans h.stageWrites⟩
  have hrest := h.rest
  have grest := g.rest
  generalize s.tmc = a, s.swq = b, s.ziu = c at hrest
  rw [grest, hrest]

/-- Dropping accesses that wait with the zone unit leaves those of the bus. -/
theorem zoneMoved_setParked {keep : Access → Bool} (hkeep : ∀ a : Access, a.isBusWrite → keep a = true) (s : State) :
    ZoneMoved s (s.setTmc { s.tmc with parked := s.tmc.parked.filter keep }) :=
  ⟨rfl, rfl, rfl, rfl, fun a ha h => h.imp id fun hp => List.mem_filter.2 ⟨hp, hkeep a ha⟩, rfl, rfl, rfl⟩

theorem zoneMoved_setZiu (s : State) (z : Ziu) (hepoch : z.epoch = s.ziu.epoch) (hswap : z.swap = s.ziu.swap) (hwrites : z.stageWrites = s.ziu.stageWrites) :
    ZoneMoved s (s.setZiu z) := ⟨rfl, rfl, rfl, rfl, fun _ _ h => h, hepoch, hswap, hwrites⟩

theorem zoneMoved_resyncAdvance (w : Work) : ZoneMoved w.st (resyncAdvance w).st := by
  have hresynced := resynced_advance w
  have hziu := hresynced.ziu
  refine ⟨?_, hresynced.tmc.mem, hresynced.tmc.marks, hresynced.tmc.jobs, fun a _ h => ?_, by rw [hziu], by rw [hziu], by rw [hziu]⟩
  · have hrest := hresynced.rest
    rw [hrest]
  · unfold resyncAdvance
    dsimp only
    split
    · split
      · next line l _ _ => exact State.asked.present (s := w.st.setZiu { w.st.ziu with resyncPos := line, copying := some line }) h _
      · have htmc : (resyncPassEnd w).st.tmc = w.st.tmc := by
          unfold resyncPassEnd
          dsimp only
          split
          · rw [zoneResult_st]; rfl
          · split <;> (rw [zoneResult_st]; rfl)
        unfold State.asked at h ⊢
        rw [htmc]
        exact h
    · exact h

/-- The resync engine goes on without a change of the dirty map, and outside a pass of nothing. -/
theorem resyncAdvance_zone (w : Work) : (∀ k, (resyncAdvance w).st.ziu.lineState k = w.st.ziu.lineState k) ∧
    (w.st.ziu.zone ≠ .resyncing → resyncAdvance w = w) := by
  refine ⟨fun k => ?_, fun h => if_neg fun hz => h hz.1⟩
  unfold Ziu.lineState
  rw [(resynced_advance w).ziu]

/-- The end of a validation that fails. -/
theorem validationFails_st (w : Work) (r : CommitResult) (d : Nat) : (validationFails w r d).st = (withdrawValidator w.st).setZiu { w.st.ziu with
    zone := .idle, validator := none, result := r, detail := d, accepted := w.st.ziu.started } := by
  unfold validationFails
  rw [zoneResult_st]
  rfl

theorem zoneMoved_validationFails (w : Work) (r : CommitResult) (d : Nat) : ZoneMoved w.st (validationFails w r d).st := by
  rw [validationFails_st]
  have hdrop : ZoneMoved w.st (withdrawValidator w.st) := zoneMoved_setParked (by
    rintro a ⟨job, i, bytes, merge, ha⟩
    rw [ha]) w.st
  exact hdrop.trans (zoneMoved_setZiu _ _ rfl rfl rfl)

theorem sameDue_validationFails (w : Work) (r : CommitResult) (d : Nat) : w.sameDue (validationFails w r d) := by
  unfold validationFails zoneResult
  dsimp only
  split <;> exact ⟨rfl, rfl⟩

/-! ### The bank lines -/

/-- One bank line of a WRITE: a copy that waits gives way, and the line is STAGED (R8, R9). -/
def mapLine (s : State) (k : Nat) : State := (dropParkedCopy s k).setZiu ((dropParkedCopy s k).ziu.setLine k .staged)

theorem dropParkedCopy_moved (s : State) (k : Nat) : ZoneMoved s (dropParkedCopy s k) ∧
    ∃ c, (dropParkedCopy s k).ziu = { s.ziu with copying := c } := by
  unfold dropParkedCopy
  split
  · refine ⟨?_, none, rfl⟩
    have hdrop := zoneMoved_setParked (keep := fun a => match a.kind with
      | .resync _ _ => false
      | _ => true) (by
        rintro a ⟨job, i, bytes, merge, ha⟩
        rw [ha]) s
    exact hdrop.trans (zoneMoved_setZiu _ _ rfl rfl rfl)
  · exact ⟨.refl s, _, rfl⟩

/-- The zone state and the results of the ZIU are the same. -/
structure ZoneSame (s t : State) : Prop where
  zone : t.ziu.zone = s.ziu.zone
  result : t.ziu.result = s.ziu.result
  detail : t.ziu.detail = s.ziu.detail
  accepted : t.ziu.accepted = s.ziu.accepted

theorem mapLine_left (s : State) (k : Nat) : ZoneMoved s (mapLine s k) ∧ ZoneSame s (mapLine s k) ∧
    (sparseWf .clean s.ziu.dirty = true → sparseWf .clean (mapLine s k).ziu.dirty = true ∧
      ∀ j, (mapLine s k).ziu.lineState j = if j = k then .staged else s.ziu.lineState j) := by
  obtain ⟨hmoved, c, hziu⟩ := dropParkedCopy_moved s k
  have hz : (mapLine s k).ziu = ({ s.ziu with copying := c } : Ziu).setLine k .staged := by
    unfold mapLine
    rw [hziu]
    rfl
  refine ⟨hmoved.trans (zoneMoved_setZiu _ _ rfl rfl rfl), ?_, fun hwf => ?_⟩
  · exact ⟨by rw [hz]; rfl, by rw [hz]; rfl, by rw [hz]; rfl, by rw [hz]; rfl⟩
  · rw [hz]
    exact ⟨sparseWf_put LineState.clean _ _ _ hwf, fun j => lineState_setLine hwf j k .staged⟩

theorem mapLines_left : ∀ (banks : List Nat) (s : State), ZoneMoved s (banks.foldl mapLine s) ∧ ZoneSame s (banks.foldl mapLine s) ∧
    (sparseWf .clean s.ziu.dirty = true → ∀ j, (banks.foldl mapLine s).ziu.lineState j = if j ∈ banks then .staged else s.ziu.lineState j)
  | [], s => ⟨.refl s, ⟨rfl, rfl, rfl, rfl⟩, fun _ j => (if_neg List.not_mem_nil).symm⟩
  | k :: banks, s => by
    obtain ⟨hmoved, hsame, hline⟩ := mapLine_left s k
    obtain ⟨ihmoved, ihsame, ihline⟩ := mapLines_left banks (mapLine s k)
    refine ⟨hmoved.trans ihmoved, ⟨ihsame.zone.trans hsame.zone, ihsame.result.trans hsame.result, ihsame.detail.trans hsame.detail,
      ihsame.accepted.trans hsame.accepted⟩, fun hwf j => ?_⟩
    obtain ⟨hwf', hj⟩ := hline hwf
    rw [List.foldl_cons, ihline hwf', hj]
    by_cases hmem : j ∈ banks
    · rw [if_pos hmem, if_pos (List.mem_cons_of_mem k hmem)]
    · rw [if_neg hmem]
      exact if_congr (by rw [List.mem_cons, or_iff_left hmem]) rfl rfl

/-- What mapping the bank lines of a WRITE leaves (R8, R9, R16). -/
structure StageMapped (banks : List Nat) (s t : State) : Prop where
  moved : ZoneMoved s t
  line : sparseWf .clean s.ziu.dirty = true → ∀ k, t.ziu.lineState k = if k ∈ banks then .staged else s.ziu.lineState k
  ended : ∀ k rest, s.ziu.zone = .validating → banks = k :: rest →
    t.ziu.zone = .idle ∧ t.ziu.result = .stageChanged ∧ t.ziu.detail = k ∧ t.ziu.accepted = s.ziu.started

theorem mapStage_left (w : Work) (banks : List Nat) : StageMapped banks w.st (mapStage w banks).st ∧ w.sameDue (mapStage w banks) := by
  cases banks with
  | nil => exact ⟨⟨.refl _, fun _ k => (if_neg List.not_mem_nil).symm, fun _ _ _ h => (nomatch h)⟩, rfl, rfl⟩
  | cons first rest =>
    have hmap : mapStage w (first :: rest) = (if w.st.ziu.zone = .validating then validationFails w .stageChanged first else w).map
        (fun s => (first :: rest).foldl mapLine s) := rfl
    rw [hmap]
    by_cases hzone : w.st.ziu.zone = .validating
    · rw [if_pos hzone]
      obtain ⟨hmoved, hsame, hline⟩ := mapLines_left (first :: rest) (validationFails w .stageChanged first).st
      have hziu : (validationFails w .stageChanged first).st.ziu = { w.st.ziu with
          zone := .idle, validator := none, result := .stageChanged, detail := first, accepted := w.st.ziu.started } := by
        rw [validationFails_st]
        rfl
      have hfails := zoneMoved_validationFails w .stageChanged first
      have hdue := sameDue_validationFails w .stageChanged first
      rw [Work.map_st]
      refine ⟨⟨hfails.trans hmoved, fun hwf k => ?_, fun k rest' _ hk => ?_⟩, hdue⟩
      · rw [hline (by rw [hziu]; exact hwf), hziu]
        rfl
      · obtain ⟨rfl, -⟩ := List.cons.inj hk
        refine ⟨hsame.zone.trans ?_, hsame.result.trans ?_, hsame.detail.trans ?_, hsame.accepted.trans ?_⟩
        all_goals rw [hziu]
    · rw [if_neg hzone]
      obtain ⟨hmoved, -, hline⟩ := mapLines_left (first :: rest) w.st
      exact ⟨⟨hmoved, hline, fun _ _ h => absurd h hzone⟩, rfl, rfl⟩

/-! ### The watched words -/

theorem setShadow_handed (b : Tbp) (word : WatchedWord) (v : BitVec 64) (slots : Vector TagSlot 16) (l : List Handed) :
    ({ b with slots := slots, handed := l } : Tbp).setShadow word v = { b.setShadow word v with slots := slots, handed := l } := by
  cases word <;> rfl

theorem setShadow_kept (b : Tbp) (word : WatchedWord) (v : BitVec 64) : (b.setShadow word v).slots = b.slots ∧ (b.setShadow word v).handed = b.handed := by
  cases word <;> exact ⟨rfl, rfl⟩

theorem foldl_setShadow_handed : ∀ (hs : List Handed) (b : Tbp) (slots : Vector TagSlot 16) (l : List Handed),
    hs.foldl (fun b h => b.setShadow h.word h.value) ({ b with slots := slots, handed := l } : Tbp) =
      { hs.foldl (fun b h => b.setShadow h.word h.value) b with slots := slots, handed := l }
  | [], _, _, _ => rfl
  | h :: hs, b, slots, l => by
    rw [List.foldl_cons, List.foldl_cons, setShadow_handed, foldl_setShadow_handed hs]

theorem foldl_setShadow_kept : ∀ (hs : List Handed) (b : Tbp), (hs.foldl (fun b h => b.setShadow h.word h.value) b).slots = b.slots
  | [], _ => rfl
  | h :: hs, b => (foldl_setShadow_kept hs _).trans (setShadow_kept b h.word h.value).1

/-- Completed words: their shadows set, and the words handed on in order (R38). -/
theorem handWords_left : ∀ (hs : List Handed) (b : Tbp), hs.foldl (fun t h => let t := t.setShadow h.word h.value; { t with handed := t.handed ++ [h] }) b =
    { hs.foldl (fun b h => b.setShadow h.word h.value) b with handed := b.handed ++ hs }
  | [], b => by rw [List.append_nil]; rfl
  | h :: hs, b => by
    have hhanded := (setShadow_kept b h.word h.value).2
    have hfold := foldl_setShadow_handed hs (b.setShadow h.word h.value) (b.setShadow h.word h.value).slots (b.handed ++ [h])
    have hslots := foldl_setShadow_kept hs (b.setShadow h.word h.value)
    rw [List.foldl_cons, handWords_left hs, List.foldl_cons]
    dsimp only
    rw [hhanded, List.append_assoc] at *
    generalize hs.foldl (fun b h => b.setShadow h.word h.value) (b.setShadow h.word h.value) = x at hfold hslots
    rw [hfold, ← hslots]
    rfl

end Sys2Proof.Machine
end

section
/-! PROOFS. A WRITE that is carried out, up to its effect on the tunables. -/

set_option Elab.async false

namespace Sys2Proof.Machine

variable {r s t u : State} {w : Work} {tag : BusTag} {lines : List WriteLine}

/-! ### The accesses and their weight -/

theorem layout_of_stageLine {a k : Nat} (h : stageLine s a = some k) : ∃ l, s.plu.layout = some l := by
  obtain ⟨-, hregion⟩ := stageLine_eq_some.1 h
  unfold regionOf at hregion
  split at hregion
  · cases hregion
  · split at hregion
    · cases hregion
    · next l hplaced =>
      unfold State.placed at hplaced
      split at hplaced
      · exact ⟨l, hplaced⟩
      · exact ⟨l, hplaced⟩
      · cases hplaced

/-- The access of a line beside the bank lines. -/
theorem writeAccess_memory {l : WriteLine} (job i : Nat) (h : stageLine s l.addr = none) :
    writeAccess s job i l = ⟨.busWrite job i l.mask none, readLine s l.addr⟩ := by
  unfold writeAccess
  rw [h]

/-- The access of a bank line: in the stage bank, behind a copy of the live line where it merges (R9). -/
theorem writeAccess_bank {l : WriteLine} {k : Nat} {lay : Layout} (job i : Nat) (h : stageLine s l.addr = some k) (hlayout : s.plu.layout = some lay) :
    writeAccess s job i l = ⟨.busWrite job i l.mask (if s.mergesFirst l then some (lay.bankLine s.ziu.liveBank k / 64) else none),
      lay.bankLine s.ziu.stageBank k / 64⟩ := by
  cases hline : s.ziu.lineState k <;> simp [writeAccess, State.mergesFirst, h, hlayout, hline]

theorem writeAccess_isBusWrite (s : State) (job i : Nat) (l : WriteLine) : (writeAccess s job i l).isBusWrite := by
  unfold writeAccess
  split
  · exact ⟨_, _, _, _, rfl⟩
  · exact ⟨_, _, _, _, rfl⟩

theorem stageWeight_writeAccess (s : State) (job i : Nat) (l : WriteLine) : stageWeight s l (writeAccess s job i l) =
    (stageLine s l.addr).toList.length + if s.mergesFirst l then 1 else 0 := by
  unfold stageWeight
  cases h : stageLine s l.addr with
  | none =>
    have hmerge : s.mergesFirst l = false := by
      unfold State.mergesFirst
      rw [h]
    rw [hmerge]
    rfl
  | some k =>
    obtain ⟨lay, hlayout⟩ := layout_of_stageLine h
    rw [writeAccess_bank job i h hlayout]
    cases s.mergesFirst l <;> rfl

/-- The stage writes in flight of a WRITE are those of its accesses (R6, R9). -/
theorem stageWeight_sum (s : State) (job : Nat) : ∀ (lines : List WriteLine) (r : List Nat), r.length = lines.length →
    ((lines.zip ((lines.zip r).map (fun p => writeAccess s job p.2 p.1))).map (fun p => stageWeight s p.1 p.2)).sum = s.stageWritesOf lines
  | [], _, _ => rfl
  | l :: lines, [], h => (nomatch h)
  | l :: lines, n :: r, h => by
    have ih := stageWeight_sum s job lines r (Nat.succ.inj h)
    have hbanks : bankLines s (l :: lines) = (stageLine s l.addr).toList ++ bankLines s lines := by
      unfold bankLines
      rw [List.filterMap_cons]
      cases stageLine s l.addr <;> rfl
    rw [List.zip_cons_cons, List.map_cons, List.zip_cons_cons, List.map_cons, List.sum_cons, ih, stageWeight_writeAccess]
    unfold State.stageWritesOf
    rw [hbanks, List.length_append, List.filter_cons]
    cases s.mergesFirst l with
    | true =>
      rw [if_pos rfl, if_pos rfl, List.length_cons]
      dsimp only
      omega
    | false =>
      rw [if_neg nofun, if_neg nofun]
      dsimp only
      omega

/-! ### The WRITE up to the tunables -/

/-- The work of a WRITE on the TMC, the ZIU and the TBP, before what its bytes in the policy block change. -/
def wroteLines (w : Work) (tag : BusTag) (lines : List WriteLine) : Work :=
  let s := w.st
  let id := s.tmc.nextJob
  let accesses := (lines.zip (List.range lines.length)).map (fun p => writeAccess s id p.2 p.1)
  let weight := (lines.zip accesses).foldl (fun acc p => acc + stageWeight s p.1 p.2) 0
  let w1 := w.map (fun s => presentAll ((s.setTmc { s.tmc with jobs := s.tmc.jobs ++ [⟨id, some tag, true, [], false, weight, []⟩], nextJob := id + 1 }).setZiu
    { s.ziu with stageWrites := s.ziu.stageWrites + weight }) accesses)
  (mapStage w1 (bankLines s lines)).map (fun s' => handWords s' (lines.flatMap (completedWords s)))

theorem carryWrite_cons (w : Work) (tag : BusTag) (l : WriteLine) (lines : List WriteLine) : carryWrite w tag (l :: lines) =
    enterCopy (wroteLines w tag (l :: lines)) l.addr ((l :: lines).map (·.mask)) := rfl

/-- What the WRITE leaves of the TMC, the ZIU and the TBP. -/
structure LinesWritten (tag : BusTag) (lines : List WriteLine) (s t : State) : Prop where
  mem : t.tmc.mem = s.tmc.mem
  marks : t.tmc.marks = s.tmc.marks
  jobs : t.tmc.jobs = s.tmc.jobs ++ [⟨s.tmc.nextJob, some tag, true, [], false, s.stageWritesOf lines, []⟩]
  asked : ∀ (i : Nat) (l : WriteLine), lines[i]? = some l → t.asked (writeAccess s s.tmc.nextJob i l)
  epoch : t.ziu.epoch = s.ziu.epoch
  swap : t.ziu.swap = s.ziu.swap
  stageWrites : t.ziu.stageWrites = s.ziu.stageWrites + s.stageWritesOf lines
  line : sparseWf .clean s.ziu.dirty = true → ∀ k, t.ziu.lineState k = if k ∈ bankLines s lines then .staged else s.ziu.lineState k
  ended : ∀ k rest, s.ziu.zone = .validating → bankLines s lines = k :: rest →
    t.ziu.zone = .idle ∧ t.ziu.result = .stageChanged ∧ t.ziu.detail = k ∧ t.ziu.accepted = s.ziu.started
  tbp : t.tbp = { (lines.flatMap (completedWords s)).foldl (fun b h => b.setShadow h.word h.value) s.tbp with
    handed := s.tbp.handed ++ lines.flatMap (completedWords s) }

theorem wroteLines_left (hw : w.st = s) (tag : BusTag) (lines : List WriteLine) :
    LinesWritten tag lines s (wroteLines w tag lines).st ∧ w.sameDue (wroteLines w tag lines) ∧ (wroteLines w tag lines).st = { s with
      tmc := (wroteLines w tag lines).st.tmc, swq := (wroteLines w tag lines).st.swq, ziu := (wroteLines w tag lines).st.ziu
      tbp := (wroteLines w tag lines).st.tbp } := by
  subst hw
  unfold wroteLines
  dsimp only
  have hweight : (lines.zip ((lines.zip (List.range lines.length)).map (fun p => writeAccess w.st w.st.tmc.nextJob p.2 p.1))).foldl
      (fun acc p => acc + stageWeight w.st p.1 p.2) 0 = w.st.stageWritesOf lines := by
    rw [foldl_add_eq (fun p : WriteLine × Access => stageWeight w.st p.1 p.2)]
    exact stageWeight_sum w.st w.st.tmc.nextJob lines _ List.length_range
  have hmem : ∀ (i : Nat) (l : WriteLine), lines[i]? = some l →
      writeAccess w.st w.st.tmc.nextJob i l ∈ (lines.zip (List.range lines.length)).map (fun p => writeAccess w.st w.st.tmc.nextJob p.2 p.1) := by
    intro i l hl
    obtain ⟨hi, hget⟩ := List.getElem?_eq_some_iff.1 hl
    refine List.mem_map.2 ⟨(l, i), List.mem_iff_getElem.2 ⟨i, by simpa using hi, ?_⟩, rfl⟩
    rw [List.getElem_zip, hget, List.getElem_range]
  rw [hweight]
  generalize (lines.zip (List.range lines.length)).map (fun p => writeAccess w.st w.st.tmc.nextJob p.2 p.1) = accesses at hmem
  generalize hw1 : (w.map fun s => presentAll _ accesses) = w1
  have hst1 : w1.st = presentAll ((w.st.setTmc { w.st.tmc with
      jobs := w.st.tmc.jobs ++ [⟨w.st.tmc.nextJob, some tag, true, [], false, w.st.stageWritesOf lines, []⟩], nextJob := w.st.tmc.nextJob + 1 }).setZiu
    { w.st.ziu with stageWrites := w.st.ziu.stageWrites + w.st.stageWritesOf lines }) accesses := by rw [← hw1]; rfl
  have hdue1 : w.sameDue w1 := by rw [← hw1]; exact ⟨rfl, rfl⟩
  clear hw1
  have hpresent := asked_presentAll ((w.st.setTmc { w.st.tmc with
      jobs := w.st.tmc.jobs ++ [⟨w.st.tmc.nextJob, some tag, true, [], false, w.st.stageWritesOf lines, []⟩], nextJob := w.st.tmc.nextJob + 1 }).setZiu
    { w.st.ziu with stageWrites := w.st.ziu.stageWrites + w.st.stageWritesOf lines }) accesses
  have hasked : ∀ a ∈ accesses, w1.st.asked a := fun a ha => by
    rw [hst1]
    exact presentAll_asked ha _
  rw [← hst1] at hpresent
  obtain ⟨htmc, hrest1⟩ := hpresent
  have hziu1 : w1.st.ziu = { w.st.ziu with stageWrites := w.st.ziu.stageWrites + w.st.stageWritesOf lines } := by rw [hrest1]; rfl
  have htbp1 : w1.st.tbp = w.st.tbp := by rw [hrest1]; rfl
  clear hst1
  obtain ⟨hmapped, hdue2⟩ := mapStage_left w1 (bankLines w.st lines)
  generalize mapStage w1 (bankLines w.st lines) = w2 at hmapped hdue2 ⊢
  obtain ⟨hmoved, hline, hended⟩ := hmapped
  rw [hziu1] at hline hended
  have htbp2 : w2.st.tbp = w.st.tbp := by rw [hmoved.rest]; exact htbp1
  refine ⟨⟨hmoved.mem.trans htmc.mem, hmoved.marks.trans htmc.marks, hmoved.jobs.trans htmc.jobs,
    fun i l hl => hmoved.asked _ (writeAccess_isBusWrite _ _ _ _) (hasked _ (hmem i l hl)), ?_, ?_, ?_, hline, hended, ?_⟩, ?_, ?_⟩
  · exact hmoved.epoch.trans (by rw [hziu1])
  · exact hmoved.swap.trans (by rw [hziu1])
  · exact hmoved.stageWrites.trans (by rw [hziu1])
  · rw [Work.map_st]
    unfold handWords
    rw [handWords_left, htbp2]
    rfl
  · exact ⟨hdue2.1.trans hdue1.1, hdue2.2.trans hdue1.2⟩
  · have hrest2 := hmoved.rest
    rw [Work.map_st]
    unfold handWords
    generalize w2.st.tmc = a, w2.st.swq = b, w2.st.ziu = c at hrest2
    rw [hrest2, hrest1]
    rfl

end Sys2Proof.Machine
end

section
/-! PROOFS. The thermal records and the ports after a change of the thermal tunables. -/

set_option Elab.async false

namespace Sys2Proof.Machine

variable {r s t u : State} {w : Work} {b : Slot} {o n : Tunables} {p q : PortRef} {x : BladeTemp}

/-! ### What entry to HOT leaves alone -/

/-- The ports and the orders alone have changed. -/
def PortsMoved (s t : State) : Prop := t = { s with blc := t.blc, pau := t.pau }

theorem PortsMoved.refl (s : State) : PortsMoved s s := rfl

theorem PortsMoved.trans (h : PortsMoved r s) (g : PortsMoved s t) : PortsMoved r t := by
  unfold PortsMoved at *
  generalize s.blc = a, s.pau = c at h
  rw [g, h]

theorem portsMoved_toGoingDown (w : Work) (p : PortRef) (c : PortCause) : PortsMoved w.st (toGoingDown w p c).st := by
  unfold PortsMoved
  rw [toGoingDown_rest]
  rfl

theorem portsMoved_leavePort (w : Work) (p : PortRef) (c : LeaveCause) : PortsMoved w.st (leavePort w p c).st := by
  unfold leavePort
  split
  · exact portsMoved_toGoingDown w p _
  · rfl
  · rfl

theorem portsMoved_heatPort (w : Work) (p : PortRef) : PortsMoved w.st (heatPort w p).st := by
  unfold heatPort
  dsimp only
  split
  · exact portsMoved_leavePort w p _
  · exact portsMoved_leavePort w p _
  · split <;> rfl
  · split <;> rfl
  · rfl

theorem portsMoved_heatBlade (w : Work) (b : Slot) : PortsMoved w.st (heatBlade w b).st := by
  unfold heatBlade
  generalize portsOf b = l
  induction l generalizing w with
  | nil => rfl
  | cons p l ih => exact (portsMoved_heatPort w p).trans (ih _)

theorem heatBlade_port (w : Work) (b : Slot) (q : PortRef) :
    (heatBlade w b).st.port q = if q.slot = b then (w.st.port q).heated else w.st.port q := by
  unfold heatBlade
  rw [foldl_port heatPort_port _ _ _ (portsOf_nodup b)]
  exact if_congr (mem_portsOf b q) rfl rfl

/-! ### One blade -/

/-- The blade's record enters HOT. -/
def entersHot (x y : BladeTemp) : Prop := x.thermal ≠ .hot ∧ y.thermal = .hot

/-- The ports of the blades that enter HOT are heated, and the others stay (R98). -/
def portsHeated (enters : Slot → Prop) (s t : State) : Prop :=
  ∀ q, (enters q.slot → t.port q = (s.port q).heated) ∧ (¬enters q.slot → t.port q = s.port q)

/-- A blade's thermal record behind a change of the thermal tunables (R154, R156). -/
def BladeTemp.retuned (o n : Tunables) (x : BladeTemp) : BladeTemp :=
  let x1 := { x with stale := Vector.mapIx x.stale (fun i st => st || (changedBreakpoints o.curve n.curve).get i) }
  if x.fresh then { x1.compute n with thermal := thermalNext x.thermal (x1.compute n).input n.warn n.crit } else x1

theorem retuned_stale (h : ¬x.fresh = true) (o n : Tunables) : (BladeTemp.retuned o n x).thermal = x.thermal := by
  unfold BladeTemp.retuned
  dsimp only
  rw [if_neg h]

theorem thermalStep_left (w : Work) (b : Slot) :
    PortsMoved (w.st.withTemp b { w.st.ftu.temps.get b with thermal := w.st.thermalOf b }) (thermalStep w b).st ∧
    portsHeated (fun c => c = b ∧ (w.st.ftu.temps.get b).thermal ≠ .hot ∧ w.st.thermalOf b = .hot) w.st (thermalStep w b).st := by
  unfold thermalStep
  dsimp only
  change PortsMoved _ (if w.st.thermalOf b = _ then _ else _ : Work).st ∧ portsHeated _ _ (if w.st.thermalOf b = _ then _ else _ : Work).st
  by_cases h : w.st.thermalOf b = (w.st.ftu.temps.get b).thermal
  · rw [if_pos h, h]
    refine ⟨?_, fun q => ⟨fun ⟨_, hwas, hnow⟩ => absurd hnow hwas, fun _ => rfl⟩⟩
    exact (withTemp_self w.st b).symm ▸ PortsMoved.refl w.st
  · rw [if_neg h]
    by_cases hhot : w.st.thermalOf b = .hot
    · have hhot' : thermalNext (w.st.ftu.temps.get b).thermal (w.st.ftu.temps.get b).input w.st.plu.inUse.warn w.st.plu.inUse.crit = .hot := hhot
      rw [if_pos hhot']
      refine ⟨portsMoved_heatBlade _ b, fun q => ⟨fun ⟨hq, _, _⟩ => ?_, fun hn => ?_⟩⟩
      · rw [heatBlade_port, if_pos hq]
        rfl
      · rw [heatBlade_port, if_neg fun hq => hn ⟨hq, fun hwas => h (hhot.trans hwas.symm), hhot⟩]
        rfl
    · have hhot' : ¬thermalNext (w.st.ftu.temps.get b).thermal (w.st.ftu.temps.get b).input w.st.plu.inUse.warn w.st.plu.inUse.crit = .hot := hhot
      rw [if_neg hhot']
      refine ⟨?_, fun q => ⟨fun ⟨_, _, hnow⟩ => absurd hnow hhot, fun _ => ?_⟩⟩
      · split <;> rfl
      · split <;> rfl

/-- One blade behind a change of the thermal tunables. -/
theorem tempTunables_left (o : Tunables) (hn : w.st.plu.inUse = n) (b : Slot) :
    PortsMoved (w.st.withTemp b ((w.st.ftu.temps.get b).retuned o n)) (tempTunables o n w b).st ∧
    Settled (w.st.withTemp b ((w.st.ftu.temps.get b).retuned o n)) (tempTunables o n w b).st ∧
    portsHeated (fun c => c = b ∧ entersHot (w.st.ftu.temps.get b) ((w.st.ftu.temps.get b).retuned o n)) w.st (tempTunables o n w b).st := by
  unfold tempTunables
  dsimp only
  by_cases hfresh : (w.st.ftu.temps.get b).fresh = true
  · rw [if_pos hfresh]
    unfold BladeTemp.retuned
    dsimp only
    rw [if_pos hfresh]
    generalize hx : ({ w.st.ftu.temps.get b with
      stale := Vector.mapIx (w.st.ftu.temps.get b).stale (fun i st => st || (changedBreakpoints o.curve n.curve).get i) } : BladeTemp) = x
    have hthermal : x.thermal = (w.st.ftu.temps.get b).thermal := by rw [← hx]
    have hrecord : (setTemp w b (x.compute n)).st.ftu.temps.get b = x.compute n := by rw [setTemp_st, withTemp_record]
    have hof : (setTemp w b (x.compute n)).st.thermalOf b = thermalNext (w.st.ftu.temps.get b).thermal (x.compute n).input n.warn n.crit := by
      unfold State.thermalOf
      rw [hrecord, ← hthermal, ← hn]
      rfl
    have hsettled := thermalStep_settled (setTemp w b (x.compute n)) b
    obtain ⟨hmoved, hports⟩ := thermalStep_left (setTemp w b (x.compute n)) b
    rw [hrecord, hof, setTemp_st, withTemp_twice] at hmoved hsettled
    rw [hrecord, hof] at hports
    refine ⟨hmoved, hsettled, fun q => ⟨fun ⟨hq, hwas, hnow⟩ => ?_, fun hn => ?_⟩⟩
    · exact (hports q).1 ⟨hq, fun h => hwas (hthermal.symm.trans h), hnow⟩
    · exact (hports q).2 fun ⟨hq, hwas, hnow⟩ => hn ⟨hq, fun h => hwas (hthermal.trans h), hnow⟩
  · rw [if_neg hfresh]
    have hstale := retuned_stale hfresh o n
    refine ⟨?_, ?_, fun q => ⟨fun ⟨_, hwas, hnow⟩ => absurd (hstale ▸ hnow) hwas, fun _ => rfl⟩⟩
    · unfold BladeTemp.retuned
      dsimp only
      rw [if_neg hfresh]
      rfl
    · unfold BladeTemp.retuned
      dsimp only
      rw [if_neg hfresh]
      exact .refl _

/-! ### All blades -/

/-- What a change of the thermal tunables makes of some blades. -/
structure TempsRetuned (o n : Tunables) (l : List Slot) (s t : State) : Prop where
  rest : t = { s with blc := t.blc, pau := t.pau, ftu := { s.ftu with temps := t.ftu.temps } }
  settled : Settled (s.setFtu t.ftu) t
  temps : ∀ b, t.ftu.temps.get b = if b ∈ l then (s.ftu.temps.get b).retuned o n else s.ftu.temps.get b
  ports : portsHeated (fun c => c ∈ l ∧ entersHot (s.ftu.temps.get c) ((s.ftu.temps.get c).retuned o n)) s t

theorem tempsRetuned_foldl (o : Tunables) : ∀ (l : List Slot) (w : Work), w.st.plu.inUse = n → l.Nodup →
    TempsRetuned o n l w.st (l.foldl (tempTunables o n) w).st
  | [], w, _, _ => ⟨rfl, .refl _, fun _ => (if_neg List.not_mem_nil).symm, fun q => ⟨fun h => absurd h.1 List.not_mem_nil, fun _ => rfl⟩⟩
  | b :: l, w, hn, hnodup => by
    obtain ⟨hb, htail⟩ := List.nodup_cons.1 hnodup
    obtain ⟨hmoved, hsettled, hports⟩ := tempTunables_left o hn b
    rw [List.foldl_cons]
    generalize tempTunables o n w b = v at hmoved hsettled hports
    have hplu : v.st.plu = w.st.plu := by
      rw [hmoved]
      rfl
    have hftu : v.st.ftu = (w.st.withTemp b ((w.st.ftu.temps.get b).retuned o n)).ftu := by rw [hmoved]
    have ih := tempsRetuned_foldl o l v (hplu ▸ hn) htail
    generalize (l.foldl (tempTunables o n) v).st = t at ih ⊢
    have htemps : ∀ c, v.st.ftu.temps.get c = if c = b then (w.st.ftu.temps.get b).retuned o n else w.st.ftu.temps.get c := fun c => by
      rw [hftu]
      exact withTemp_get _ _ _ _
    refine ⟨?_, ?_, fun c => ?_, fun q => ?_⟩
    · have hrest := ih.rest
      rw [hftu] at hrest
      unfold PortsMoved at hmoved
      generalize v.st.blc = x, v.st.pau = y at hmoved
      rw [hrest, hmoved]
      rfl
    · have h := (hsettled.setFtu t.ftu).trans ih.settled
      exact h
    · rw [ih.temps, htemps]
      by_cases hc : c = b
      · subst hc
        rw [if_neg hb, if_pos rfl, if_pos List.mem_cons_self]
      · rw [if_neg hc]
        exact if_congr (by rw [List.mem_cons, or_iff_right hc]) rfl rfl
    · have hrest := ih.ports q
      have hstep := hports q
      dsimp only at hrest hstep ⊢
      rw [htemps] at hrest
      by_cases hq : q.slot = b
      · rw [hrest.2 fun h => hb (hq ▸ h.1)]
        refine ⟨fun h => hstep.1 ⟨hq, ?_⟩, fun h => hstep.2 fun g => h ⟨hq ▸ List.mem_cons_self, ?_⟩⟩
        · exact hq ▸ h.2
        · exact hq.symm ▸ g.2
      · rw [if_neg hq, hstep.2 fun h => hq h.1] at hrest
        refine ⟨fun h => hrest.1 ⟨(List.mem_cons.1 h.1).resolve_left hq, h.2⟩, fun h => hrest.2 fun g => h ⟨List.mem_cons_of_mem _ g.1, g.2⟩⟩

end Sys2Proof.Machine
end

section
/-! PROOFS. What settling leaves of one port, of the figures of the budget and of the restore holdoff. -/

set_option Elab.async false

namespace Sys2Proof.Machine

variable {r s t u : State} {w : Work} {b : Slot} {p q : PortRef} {x : Port}

/-! ### A port that nothing waits for -/

/-- The port stands outside the queues and the list, with a given record. -/
structure Stands (p : PortRef) (x : Port) (s : State) : Prop where
  idle : s.idlePort p
  port : s.port p = x

theorem Stands.of (h : Stands p x s) (k : Apart p s t) : Stands p x t := ⟨k.apart h.idle, k.port.trans h.port⟩

theorem stands_grantHead (h : Stands p x w.st) (b : Slot) (e : LicenceEntry) (he : (w.st.queue b).head? = some e) :
    Stands p x (grantHead w b e).st := by
  have hmem : e ∈ w.st.queue b := List.mem_of_head? he
  have hq : (⟨b, e.port⟩ : PortRef) ≠ p := by
    rintro rfl
    exact h.idle.1 e hmem rfl
  have htail : Stands p x (w.map (fun s => s.setQueue b (s.queue b).tail)).st :=
    h.of (apart_setQueue w.st b _ (fun _ he _ _ => List.mem_of_mem_tail he))
  unfold grantHead
  exact htail.of (apart_completeMove hq _ _ _)

theorem stands_reserveFold : ∀ (l : List Slot) (acc : Work × Bool), Stands p x acc.1.st → Stands p x (l.foldl reserveStep acc).1.st
  | [], _, h => h
  | b :: l, acc, h => by
    refine stands_reserveFold l _ ?_
    unfold reserveStep
    split
    · next e he =>
      split
      · exact stands_grantHead h b e he
      · exact h
    · exact h

theorem stands_reservePass (h : Stands p x w.st) : Stands p x (reservePass w).1.st := by
  unfold reservePass
  exact stands_reserveFold _ _ h

theorem stands_roundFrom : ∀ (n : Nat) (w : Work), Stands p x w.st → Stands p x (roundFrom n w).st
  | 0, _, h => h
  | n + 1, w, h => by
    unfold roundFrom
    dsimp only
    split
    · exact stands_roundFrom n _ (stands_reservePass h)
    · split
      · exact h
      · next c b _ =>
        have hcounted : Stands p x (w.map fun s => s.setLu { s.lu with counters := c }).st := ⟨h.idle, h.port⟩
        split
        · next e he => exact stands_roundFrom n _ (stands_grantHead hcounted b e he)
        · exact hcounted

theorem stands_grantIfDue (h : Stands p x w.st) : Stands p x (grantIfDue w).st := by
  unfold grantIfDue grantRound
  split
  · have hround := stands_roundFrom (w.st.queued + 1) w h
    generalize roundFrom (w.st.queued + 1) w = v at hround ⊢
    exact hround
  · exact h

theorem apart_powerBlade (w : Work) (b : Slot) : Apart p w.st (powerBlade w b).st := by
  have hmove : ∀ y, Apart p w.st (moveBlade w b y).st := fun y => by
    rw [moveBlade_st]
    exact apart_setBlade _ _ _
  unfold powerBlade startLink
  show Apart p w.st (if _ then _ else _)
  split
  · exact (hmove _).trans (apart_setLink _ _ _)
  · exact hmove _

theorem apart_restoreBlades : ∀ (l : List Slot) (w : Work), Apart p w.st (restoreBlades l w).1.st
  | [], w => .refl p w.st
  | b :: rest, w => by
    unfold restoreBlades
    split
    · exact (apart_powerBlade w b).trans (apart_restoreBlades rest _)
    · exact .refl p w.st

theorem restoreBlades_hot (w : Work) (b : Slot) : (restoreBlades w.st.bladeWait w).1.st.hot b = w.st.hot b := by
  have hsettled := settled_restoreBlades w.st.bladeWait w (fun b hb => of_decide_eq_true (List.mem_filter.1 hb).2) (.refl w.st)
  unfold State.hot
  rw [hsettled.ftu]

/-- The restore process leaves a port that does not wait and that is not in SHED, or in SHED on a blade that is HOT. -/
theorem stands_restoreProcess (h : Stands p x w.st) (hheld : x.state = .shed → w.st.hot p.slot = true) : Stands p x (restoreProcess w).st := by
  have hblades := h.of (apart_restoreBlades w.st.bladeWait w)
  have hhot := restoreBlades_hot w p.slot
  unfold restoreProcess
  dsimp only
  generalize restoreBlades w.st.bladeWait w = r1 at hblades hhot ⊢
  split
  · have hout : ∀ q ∈ restoreOrder r1.1.st, q ≠ p := by
      rintro q hq rfl
      obtain ⟨-, hcool, hshed⟩ := (mem_restoreOrder_iff r1.1.st q).1 hq
      rw [hhot, hheld (hblades.port ▸ hshed)] at hcool
      cases hcool
    have hshed := hblades.of (apart_restoreShed _ _ hout)
    split
    · exact hshed.of (apart_restoreWaiting _ _ hshed.idle.2)
    · exact hshed
  · exact hblades

theorem stands_restoreIfDue (h : Stands p x w.st) (hheld : x.state = .shed → w.st.hot p.slot = true) : Stands p x (restoreIfDue w).st := by
  unfold restoreIfDue
  split
  · show Stands p x (restoreDueNow w).st
    unfold restoreDueNow
    split
    · exact h.of (apart_setPbu _ _ fun _ he _ => he)
    · split
      · exact h
      · exact stands_restoreProcess h hheld
  · exact h

/-- Settling leaves a port that does not wait, that a shed may not select and that a restore may not take out of SHED. -/
theorem settle_stands (hidle : w.st.idlePort p) (hshed : (w.st.port p).sheddable = false)
    (hheld : (w.st.port p).state = .shed → w.st.hot p.slot = true) : (settle w).st.port p = w.st.port p := by
  have hkept := budgetStep_port w p hshed
  have hrest := atRest_budgetStep none (w := w) ⟨hidle, .same⟩
  have hstands : Stands p (w.st.port p) (budgetStep none w).st := ⟨hrest.apart, hkept⟩
  have hhot : (grantIfDue (budgetStep none w)).st.hot p.slot = w.st.hot p.slot := by
    unfold State.hot
    rw [(settled_grantIfDue (settled_budgetStep none (Settled.refl w.st))).ftu]
  unfold settle
  exact (stands_restoreIfDue (stands_grantIfDue hstands) fun h => hhot.trans (hheld h)).port

/-! ### The figures -/

/-- The figures that settling leaves outside HOLD (R131 to R133, R142). -/
theorem settle_figures (hhold : w.st.pbu.hold = false) : budgetLaw (settle w).st ∧
    (settle w).st.pbu.holdoffAt = if w.st.pbu.available < (settle w).st.pbu.available then some (w.st.now + sec w.st.plu.inUse.holdoff)
      else w.st.pbu.holdoffAt := by
  have hbudgeted := budgetStep_budgeted w hhold
  have hsettled := settled_restoreIfDue (settled_grantIfDue (Settled.refl (budgetStep none w).st))
  have hview : (settle w).st.figuresView = (budgetStep none w).st.figuresView :=
    (figuresView_restoreIfDue _).trans (figuresView_of_budgetView (budgetView_grantIfDue _))
  change Settled (budgetStep none w).st (settle w).st at hsettled
  generalize (settle w).st = t at hsettled hview ⊢
  generalize (budgetStep none w).st = v at hbudgeted hsettled hview
  refine ⟨budgetLaw_of_view hview hsettled.pins hsettled.plu hbudgeted.budgetLaw, ?_⟩
  have havailable : t.pbu.available = v.pbu.available := (congrArg Pbu.available hview : t.figuresView.available = v.figuresView.available)
  have hholdoff : t.pbu.holdoffAt = v.pbu.holdoffAt := (congrArg Pbu.holdoffAt hview : t.figuresView.holdoffAt = v.figuresView.holdoffAt)
  rw [havailable, hholdoff, hbudgeted.pbu]
  rfl

end Sys2Proof.Machine
end

section
/-! PROOFS. A change of the tunables in use, up to where it settles. -/

set_option Elab.async false

namespace Sys2Proof.Machine

variable {r s t u : State} {w v : Work} {b : Slot} {o n : Tunables} {p q : PortRef}

/-! ### The state with the new values in use -/

/-- The new values are in use, and the blades in POWERING follow the default base draw (R87, R171). -/
def State.using (s : State) (n : Tunables) : State :=
  if s.plu.inUse.defaultBase ≠ n.defaultBase then powerBases n.defaultBase (s.setPlu { s.plu with inUse := n }) else s.setPlu { s.plu with inUse := n }

theorem using_rest (s : State) (n : Tunables) : s.using n = { s with plu := { s.plu with inUse := n }, pau := (s.using n).pau } := by
  unfold State.using
  split <;> rfl

theorem using_ports (s : State) (n : Tunables) : (s.using n).pau.ports = s.pau.ports := by
  unfold State.using
  split <;> rfl

theorem using_same (h : n.defaultBase = s.plu.inUse.defaultBase) : s.using n = s.setPlu { s.plu with inUse := n } :=
  if_neg fun hn => hn h.symm

theorem using_blade (s : State) (n : Tunables) (b : Slot) : (s.using n).blade b = if (s.blade b).state = .powering then
    { s.blade b with base := if n.defaultBase = s.plu.inUse.defaultBase then (s.blade b).base else n.defaultBase } else s.blade b := by
  by_cases h : n.defaultBase = s.plu.inUse.defaultBase
  · rw [using_same h, if_pos h, ite_self]
    rfl
  · have hput : (s.using n) = powerBases n.defaultBase (s.setPlu { s.plu with inUse := n }) := if_pos fun hn => h hn.symm
    rw [hput, if_neg h]
    exact Vector.getElem_map _ b.2

/-! ### The work before it settles -/

/-- A tunable of the thermal evaluation differs. -/
def thermalChanged (o n : Tunables) : Prop := o.curve ≠ n.curve ∨ o.warn ≠ n.warn ∨ o.crit ≠ n.crit ∨ o.inletOffset ≠ n.inletOffset

/-- The work of a change of the tunables in use, before it settles. -/
def tuned (n : Tunables) (w : Work) : Work :=
  let o := w.st.plu.inUse
  let committed := w.st.committed
  let w1 := w.map (fun s => s.setPlu { s.plu with inUse := n })
  let w2 := if o.defaultBase ≠ n.defaultBase then w1.map (powerBases n.defaultBase) else w1
  let w3 := if w2.st.committed < committed then w2.dueRestore else w2
  let w4 := if o.weights ≠ n.weights then w3.dueGrant else w3
  coalesceChanged o n (targetStep (ftuTunables o n w4))

theorem changeTunables_eq (h : n ≠ w.st.plu.inUse) : changeTunables n w = settle (tuned n w) := if_neg h

/-- What the thermal tunables make of the part with the new values in use. -/
structure Retuned (o n : Tunables) (c : State) (v : Work) : Prop where
  rest : v.st = { c with blc := v.st.blc, pau := v.st.pau, ftu := { c.ftu with temps := v.st.ftu.temps } }
  settled : Settled (c.setFtu v.st.ftu) v.st
  warmed : thermalChanged o n → ∀ b, v.st.ftu.temps.get b = (c.ftu.temps.get b).retuned o n
  cool : ¬thermalChanged o n → v.st.pau = c.pau ∧ v.st.blc = c.blc ∧ v.st.ftu.temps = c.ftu.temps
  ports : portsHeated (fun b => thermalChanged o n ∧ entersHot (c.ftu.temps.get b) ((c.ftu.temps.get b).retuned o n)) c v.st

/-- The thermal records behind a change of their tunables. -/
def retuning (o n : Tunables) (w : Work) : Work :=
  if o.curve ≠ n.curve ∨ o.warn ≠ n.warn ∨ o.crit ≠ n.crit ∨ o.inletOffset ≠ n.inletOffset then (indices 8).foldl (tempTunables o n) w else w

theorem ftuTunables_eq (o n : Tunables) (w : Work) : ftuTunables o n w =
    if o.derate ≠ n.derate then fanConsequences (retuning o n w) (retuning o n w).st.ftu else retuning o n w := rfl

theorem retuned_left (o : Tunables) (hn : w.st.plu.inUse = n) :
    Retuned o n w.st (retuning o n w) ∧ (¬thermalChanged o n → w.sameDue (retuning o n w)) := by
  by_cases h : thermalChanged o n
  · have hall : retuning o n w = (indices 8).foldl (tempTunables o n) w := if_pos h
    rw [hall]
    have hfold := tempsRetuned_foldl o (indices 8) w hn (nodup_indices 8)
    refine ⟨⟨hfold.rest, hfold.settled, fun _ b => (hfold.temps b).trans (if_pos (mem_indices b)), fun hc => absurd h hc, fun q => ?_⟩, fun hc => absurd h hc⟩
    have hq := hfold.ports q
    exact ⟨fun g => hq.1 ⟨mem_indices _, g.2⟩, fun g => hq.2 fun k => g ⟨h, k.2⟩⟩
  · have hnone : retuning o n w = w := if_neg h
    rw [hnone]
    exact ⟨⟨rfl, .refl _, fun hc => absurd hc h, fun _ => ⟨rfl, rfl, rfl⟩, fun q => ⟨fun g => absurd g.1 h, fun _ => rfl⟩⟩, fun _ => ⟨rfl, rfl⟩⟩

/-- What stands behind the thermal records, the fan figures and the targets (R151, R157). -/
structure Refanned (o n : Tunables) (c : State) (v : Work) : Prop where
  rest : v.st = { c with blc := v.st.blc, pau := v.st.pau, ftu := v.st.ftu, pbu := { c.pbu with derate := v.st.pbu.derate } }
  settled : Settled ((c.setFtu v.st.ftu).setPbu v.st.pbu) v.st
  warmed : thermalChanged o n → ∀ b, v.st.ftu.temps.get b = (c.ftu.temps.get b).retuned o n
  cool : ¬thermalChanged o n → v.st.pau = c.pau ∧ v.st.blc = c.blc ∧ v.st.ftu.temps = c.ftu.temps
  ports : portsHeated (fun b => thermalChanged o n ∧ entersHot (c.ftu.temps.get b) ((c.ftu.temps.get b).retuned o n)) c v.st
  fans : o.derate ≠ n.derate → v.st.fansFollow
  derate : o.derate = n.derate → v.st.pbu.derate = c.pbu.derate

theorem sameDue_foldl {α : Type} {f : Work → α → Work} (hf : ∀ (w : Work) (a : α), w.sameDue (f w a)) : ∀ (l : List α) (w : Work), w.sameDue (l.foldl f w)
  | [], _ => ⟨rfl, rfl⟩
  | a :: l, w => ⟨(sameDue_foldl hf l _).1.trans (hf w a).1, (sameDue_foldl hf l _).2.trans (hf w a).2⟩

theorem sameDue_fanConsequences (w : Work) (before : Ftu) : w.sameDue (fanConsequences w before) := by
  have hrotors := sameDue_foldl (f := fun w (r : Rotor) => let former := (before.rotors.get r).state
    if rotorReports former (w.st.ftu.rotors.get r).state then w.raise .ftu (rotorEvent w.st r former) else w)
    (fun w r => by dsimp only; split <;> exact ⟨rfl, rfl⟩) (indices 12) (w.setFtu (w.st.ftu.derived w.st.plu.inUse))
  have htrays := fun w => sameDue_foldl (f := fun w (t : Tray) => if before.trays.get t ≠ w.st.ftu.trays.get t then
    w.raise .ftu (trayEvent w.st t (before.trays.get t)) else w) (fun w t => by split <;> exact ⟨rfl, rfl⟩) (indices 6) w
  exact ⟨(htrays _).1.trans hrotors.1, (htrays _).2.trans hrotors.2⟩

theorem ftuTunables_left (o : Tunables) (hn : w.st.plu.inUse = n) : Refanned o n w.st (ftuTunables o n w) ∧
    (¬thermalChanged o n → w.sameDue (ftuTunables o n w)) := by
  obtain ⟨hretuned, hdue⟩ := retuned_left (w := w) o hn
  rw [ftuTunables_eq]
  generalize retuning o n w = v at hretuned hdue ⊢
  obtain ⟨hrest, hsettled, hwarmed, hcool, hports⟩ := hretuned
  have hpbu : v.st.pbu = w.st.pbu := by rw [hrest]
  by_cases h : o.derate ≠ n.derate
  · rw [if_pos h]
    have hst := fanConsequences_st v v.st.ftu
    have hfollow : (fanConsequences v v.st.ftu).st.fansFollow := by
      rw [hst]
      exact fansFollow_derived _ _ rfl
    have hsame := sameDue_fanConsequences v v.st.ftu
    generalize fanConsequences v v.st.ftu = x at hst hfollow hsame ⊢
    have htemps : x.st.ftu.temps = v.st.ftu.temps := by
      rw [hst]
      rfl
    have hports' : ∀ q, x.st.port q = v.st.port q := fun q => by
      rw [hst]
      rfl
    refine ⟨⟨?_, ?_, fun hc b => by rw [htemps]; exact hwarmed hc b, fun hc => ?_, fun q => ?_, fun _ => hfollow, fun hc => absurd hc h⟩, fun hc => ?_⟩
    · rw [hst, ← hpbu]
      generalize v.st.blc = a, v.st.pau = d, v.st.ftu = f at hrest ⊢
      rw [hrest]
      rfl
    · have hx : x.st = (v.st.setFtu x.st.ftu).setPbu x.st.pbu := by
        rw [hst]
        rfl
      have h2 : Settled ((w.st.setFtu x.st.ftu).setPbu x.st.pbu) ((v.st.setFtu x.st.ftu).setPbu x.st.pbu) :=
        { hsettled with ftu := rfl, psus := rfl, derate := rfl, hold := rfl }
      rw [← hx] at h2
      exact h2
    · obtain ⟨hpau, hblc, htemp⟩ := hcool hc
      exact ⟨by rw [hst]; exact hpau, by rw [hst]; exact hblc, htemps.trans htemp⟩
    · rw [hports']
      exact hports q
    · exact ⟨hsame.1.trans (hdue hc).1, hsame.2.trans (hdue hc).2⟩
  · rw [if_neg h]
    refine ⟨⟨?_, ?_, hwarmed, hcool, hports, fun hc => absurd hc h, fun _ => by rw [hpbu]⟩, hdue⟩
    · rw [hpbu]
      generalize v.st.blc = a, v.st.pau = d, v.st.ftu.temps = f at hrest
      rw [hrest]
    · rw [hpbu]
      exact hsettled

/-- What a change of the tunables in use leaves before it settles. -/
structure Tuned (n : Tunables) (s : State) (v : Work) : Prop where
  rest : v.st = { s.using n with
    blc := v.st.blc, pau := v.st.pau, ftu := v.st.ftu, pbu := { s.pbu with derate := v.st.pbu.derate }, evu := v.st.evu }
  settled : Settled ((((s.using n).setFtu v.st.ftu).setPbu v.st.pbu).setEvu v.st.evu) v.st
  warmed : thermalChanged s.plu.inUse n → ∀ b, v.st.ftu.temps.get b = (s.ftu.temps.get b).retuned s.plu.inUse n
  cool : ¬thermalChanged s.plu.inUse n → v.st.pau = (s.using n).pau ∧ v.st.blc = s.blc ∧ v.st.ftu.temps = s.ftu.temps
  ports : portsHeated (fun b => thermalChanged s.plu.inUse n ∧ entersHot (s.ftu.temps.get b) ((s.ftu.temps.get b).retuned s.plu.inUse n)) s v.st
  fans : s.plu.inUse.derate ≠ n.derate → v.st.fansFollow
  derate : s.plu.inUse.derate = n.derate → v.st.pbu.derate = s.pbu.derate
  targets : ∀ z, (v.st.ftu.zones.get z).target = v.st.targetDuty z
  evu : v.st.evu = if s.plu.inUse.coCount ≠ n.coCount ∧ s.armed = true ∧ s.evu.asserted = false ∧ n.coCount ≤ s.evu.unconsumed s.capacity
    then s.evu.assert else s.evu

theorem tuned_left (n : Tunables) (w : Work) : Tuned n w.st (tuned n w) ∧ (¬thermalChanged w.st.plu.inUse n →
    ((tuned n w).grantDue = true ↔ w.st.plu.inUse.weights ≠ n.weights ∨ w.grantDue = true) ∧
    ((tuned n w).restoreDue = true ↔ (w.st.using n).committed < w.st.committed ∨ w.restoreDue = true)) := by
  unfold tuned
  dsimp only
  generalize hw2 : (if w.st.plu.inUse.defaultBase ≠ n.defaultBase then _ else _ : Work) = w2
  have hst2 : w2.st = w.st.using n := by
    rw [← hw2]
    unfold State.using
    split <;> rfl
  have hdue2 : w2.grantDue = w.grantDue ∧ w2.restoreDue = w.restoreDue := by
    rw [← hw2]
    split <;> exact ⟨rfl, rfl⟩
  clear hw2
  generalize hw3 : (if w2.st.committed < w.st.committed then w2.dueRestore else w2) = w3
  have hst3 : w3.st = w.st.using n := by
    rw [← hw3, ← hst2]
    split <;> rfl
  have hdue3 : w3.grantDue = w.grantDue ∧ (w3.restoreDue = true ↔ (w.st.using n).committed < w.st.committed ∨ w.restoreDue = true) := by
    rw [← hw3, hst2, ← hdue2.1, ← hdue2.2]
    split
    · next h => exact ⟨rfl, fun _ => .inl h, fun _ => rfl⟩
    · next h => exact ⟨rfl, fun g => .inr g, fun g => g.resolve_left h⟩
  clear hw3 hst2 hdue2
  generalize hw4 : (if w.st.plu.inUse.weights ≠ n.weights then w3.dueGrant else w3) = w4
  have hst4 : w4.st = w.st.using n := by
    rw [← hw4, ← hst3]
    split <;> rfl
  have hdue4 : (w4.grantDue = true ↔ w.st.plu.inUse.weights ≠ n.weights ∨ w.grantDue = true) ∧
      (w4.restoreDue = true ↔ (w.st.using n).committed < w.st.committed ∨ w.restoreDue = true) := by
    rw [← hw4, ← hdue3.2, ← hdue3.1]
    split
    · next h => exact ⟨⟨fun _ => .inl h, fun _ => rfl⟩, Iff.rfl⟩
    · next h => exact ⟨⟨fun g => .inr g, fun g => g.resolve_left h⟩, Iff.rfl⟩
  clear hw4 hst3 hdue3
  have huse : w4.st.plu.inUse = n := by rw [hst4, using_rest]
  obtain ⟨hfans, hsame⟩ := ftuTunables_left (w := w4) w.st.plu.inUse huse
  rw [hst4] at hfans
  generalize ftuTunables w.st.plu.inUse n w4 = w5 at hfans hsame ⊢
  have htargeted := targeted_targetStep w5
  have hfollow := fansFollow_targetStep w5
  have hsame6 : w5.sameDue (targetStep w5) := ⟨rfl, rfl⟩
  generalize targetStep w5 = w6 at htargeted hfollow hsame6 ⊢
  have hcftu : (w.st.using n).ftu = w.st.ftu := by rw [using_rest]
  have hcpbu : (w.st.using n).pbu = w.st.pbu := by rw [using_rest]
  have hcblc : (w.st.using n).blc = w.st.blc := by rw [using_rest]
  have hport : ∀ q, (w.st.using n).port q = w.st.port q := fun q => by
    unfold State.port
    rw [using_ports]
  have hevu : w6.st.evu = w.st.evu ∧ w6.st.armed = w.st.armed ∧ w6.st.capacity = w.st.capacity := by
    rw [htargeted.rest, hfans.rest, using_rest]
    exact ⟨rfl, rfl, rfl⟩
  have hcoalesce : (coalesceChanged w.st.plu.inUse n w6).st = w6.st.setEvu (coalesceChanged w.st.plu.inUse n w6).st.evu ∧
      (coalesceChanged w.st.plu.inUse n w6).st.evu = (if w.st.plu.inUse.coCount ≠ n.coCount ∧ w.st.armed = true ∧ w.st.evu.asserted = false ∧
        n.coCount ≤ w.st.evu.unconsumed w.st.capacity then w.st.evu.assert else w.st.evu) ∧ w6.sameDue (coalesceChanged w.st.plu.inUse n w6) := by
    obtain ⟨hevu, harmed, hcapacity⟩ := hevu
    unfold coalesceChanged
    dsimp only
    rw [hevu, harmed, hcapacity]
    split
    · exact ⟨rfl, rfl, rfl, rfl⟩
    · exact ⟨by rw [hevu, ← hevu]; rfl, hevu, rfl, rfl⟩
  generalize coalesceChanged w.st.plu.inUse n w6 = w7 at hcoalesce ⊢
  obtain ⟨hst7, hevu7, hsame7⟩ := hcoalesce
  have h6 := htargeted.rest
  have hduty : ∀ z, w7.st.targetDuty z = w5.st.targetDuty z := fun z => by
    rw [← htargeted.targetDuty z, hst7]
    rfl
  have hfollow7 : w6.st.fansFollow → w7.st.fansFollow := fansFollow_congr (by rw [hst7]; rfl) (by rw [hst7]; rfl) (by rw [hst7]; rfl)
  have hftu7 : w7.st.ftu = { w5.st.ftu with zones := w6.st.ftu.zones, rotors := w6.st.ftu.rotors } := by
    rw [hst7, h6]
    rfl
  have hpau7 : w7.st.pau = w5.st.pau ∧ w7.st.blc = w5.st.blc ∧ w7.st.pbu = w5.st.pbu := by
    rw [hst7, h6]
    exact ⟨rfl, rfl, rfl⟩
  have htemps7 : w7.st.ftu.temps = w5.st.ftu.temps := by rw [hftu7]
  have hport7 : ∀ q, w7.st.port q = w5.st.port q := fun q => by
    unfold State.port
    rw [hpau7.1]
  have hst75 : w7.st = (w5.st.setFtu w7.st.ftu).setEvu w7.st.evu := by
    have hx : w6.st = w5.st.setFtu w6.st.ftu := by
      rw [h6]
      rfl
    have hy : w7.st.ftu = w6.st.ftu := by
      rw [hst7]
      rfl
    rw [hy, ← hx]
    exact hst7
  refine ⟨⟨?_, ?_, fun hc b => ?_, fun hc => ?_, fun q => ?_, fun hc => hfollow7 (hfollow (hfans.fans hc)), fun hc => ?_, fun z => ?_, hevu7⟩, fun hc => ?_⟩
  · have hrest := hfans.rest
    rw [hpau7.1, hpau7.2.1, hpau7.2.2, ← hcpbu]
    generalize w7.st.ftu = f, w7.st.evu = e at hst75 ⊢
    rw [hst75]
    generalize w5.st.blc = a, w5.st.pau = d, w5.st.ftu = g, w5.st.pbu.derate = h at hrest
    rw [hrest]
    rfl
  · rw [hpau7.2.2]
    have h2 : Settled ((((w.st.using n).setFtu w7.st.ftu).setPbu w5.st.pbu).setEvu w7.st.evu) ((w5.st.setFtu w7.st.ftu).setEvu w7.st.evu) :=
      { hfans.settled with ftu := rfl, evu := rfl }
    rw [← hst75] at h2
    exact h2
  · rw [htemps7, hfans.warmed hc b, hcftu]
  · obtain ⟨hpau, hblc, htemps⟩ := hfans.cool hc
    exact ⟨hpau7.1.trans hpau, hpau7.2.1.trans (hblc.trans hcblc), htemps7.trans (htemps.trans (by rw [hcftu]))⟩
  · have hq := hfans.ports q
    rw [hcftu, hport] at hq
    rw [hport7]
    exact hq
  · rw [hpau7.2.2, hfans.derate hc, hcpbu]
  · rw [hduty, hftu7]
    exact (htargeted.zone z (mem_zones z)).1
  · obtain ⟨hgrant, hrestore⟩ := hsame hc
    rw [hsame7.1, hsame7.2, hsame6.1, hsame6.2, hgrant, hrestore]
    exact hdue4

end Sys2Proof.Machine
end

section
/-! PROOFS. What a change of the tunables in use sets off in the PBU and the LU: the budget, the sheds, the restore process and the
grant round. -/

set_option Elab.async false

namespace Sys2Proof.Machine

variable {r s t u : State} {w v : Work} {b : Slot} {o n : Tunables} {p q : PortRef}

/-! ### The work before it settles, in the terms of the state -/

theorem Tuned.pbu (h : Tuned n s v) : v.st.pbu = { s.pbu with derate := v.st.pbu.derate } := by
  have hrest := h.rest
  generalize v.st.blc = a, v.st.pau = c, v.st.ftu = d, v.st.pbu.derate = e, v.st.evu = f at hrest
  rw [hrest]

theorem Tuned.plu (h : Tuned n s v) : v.st.plu = { s.plu with inUse := n } := by
  rw [h.rest, using_rest]

theorem Tuned.lu (h : Tuned n s v) : v.st.lu = s.lu := by
  rw [h.rest, using_rest]

theorem Tuned.now (h : Tuned n s v) : v.st.now = s.now := by
  rw [h.rest, using_rest]

theorem Tuned.pbu_same (h : Tuned n s v) (hderate : s.plu.inUse.derate = n.derate) : v.st.pbu = s.pbu := by
  rw [h.pbu, h.derate hderate]

theorem Tuned.port (h : Tuned n s v) (hcool : ¬thermalChanged s.plu.inUse n) (q : PortRef) : v.st.port q = s.port q := by
  obtain ⟨hpau, -⟩ := h.cool hcool
  unfold State.port
  rw [hpau, using_ports]

theorem Tuned.asks (h : Tuned n s v) (q : PortRef) : ((settle v).st.port q).asks = (s.port q).asks := by
  have hq : ((s.using n).port q) = s.port q := by
    unfold State.port
    rw [using_ports]
  have hkept := ((h.settled.port q).trans ((settle_settled v).port q)).asks
  change _ = ((s.using n).port q).asks at hkept
  rw [hkept, hq]

/-! ### The budget -/

/-- Outside HOLD the budget is computed, and a rise of A starts the holdoff in use (R136, R142). -/
theorem Tuned.figures (h : Tuned n s v) (hhold : s.pbu.hold = false) : budgetLaw (settle v).st ∧
    (settle v).st.pbu.holdoffAt = if s.pbu.available < (settle v).st.pbu.available then some (s.now + sec n.holdoff) else s.pbu.holdoffAt := by
  have hpbu := h.pbu
  have hfigures := settle_figures (w := v) (by rw [hpbu]; exact hhold)
  have havailable : v.st.pbu.available = s.pbu.available := by rw [hpbu]
  have hholdoff : v.st.pbu.holdoffAt = s.pbu.holdoffAt := by rw [hpbu]
  have huse : v.st.plu.inUse = n := by rw [h.plu]
  rw [havailable, hholdoff, h.now, huse] at hfigures
  exact hfigures

/-- The figures that a law of the budget leaves open are none: the supply is the one computed afresh. -/
theorem supply_of_law (h : supplyLaw s) : s.pbu.supply = s.supplyOf.1 := by
  have g : supplyLaw (s.setPbu { s.pbu with supply := s.supplyOf.1, redundancyLost := s.supplyOf.2 }) := supplyLaw_of rfl rfl
  obtain ⟨hnone, hsome⟩ := h
  obtain ⟨gnone, gsome⟩ := g
  by_cases hc : ∃ i, (s.pbu.psus.get i).counted = true
  · obtain ⟨hplain, hplus, hgrid⟩ := hsome hc
    obtain ⟨gplain, gplus, ggrid⟩ := gsome hc
    cases hmode : s.plu.inUse.redundancy with
    | none => exact (hplain hmode).1.trans (gplain hmode).1.symm
    | nPlus1 =>
      obtain ⟨hone, htwo⟩ := hplus hmode
      obtain ⟨gone, gtwo⟩ := gplus hmode
      obtain ⟨i, hi⟩ := hc
      by_cases honly : ∀ j, (s.pbu.psus.get j).counted = true → j = i
      · exact (hone i hi honly).1.trans (gone i hi honly).1.symm
      · obtain ⟨j, hj, hne⟩ : ∃ j, (s.pbu.psus.get j).counted = true ∧ i ≠ j := by
          by_contra hno
          exact honly fun j hj => by
            by_contra hne
            exact hno ⟨j, hj, Ne.symm hne⟩
        exact (htwo i j hne hi hj).2.trans (gtwo i j hne hi hj).2.symm
    | grid =>
      obtain ⟨hlow, hhigh, hboth⟩ := hgrid hmode
      obtain ⟨glow, ghigh, gboth⟩ := ggrid hmode
      by_cases h01 : ¬(s.pbu.psus.get 0).counted = true ∧ ¬(s.pbu.psus.get 1).counted = true
      · exact (hlow h01).1.trans (glow h01).1.symm
      · by_cases h23 : ¬(s.pbu.psus.get 2).counted = true ∧ ¬(s.pbu.psus.get 3).counted = true
        · exact (hhigh h23).1.trans (ghigh h23).1.symm
        · have hcounted : ((s.pbu.psus.get 0).counted = true ∨ (s.pbu.psus.get 1).counted = true) ∧
              ((s.pbu.psus.get 2).counted = true ∨ (s.pbu.psus.get 3).counted = true) := by
            constructor
            · by_contra hno
              exact h01 (not_or.1 hno)
            · by_contra hno
              exact h23 (not_or.1 hno)
          exact (hboth hcounted).1.trans (gboth hcounted).1.symm
  · have hall : ∀ i, ¬(s.pbu.psus.get i).counted = true := fun i hi => hc ⟨i, hi⟩
    exact (hnone hall).1.trans (gnone hall).1.symm

theorem available_of_law (h : budgetLaw s) : (computeFigures s).available = s.pbu.available := by
  obtain ⟨hsupply, hreserved, hceiling, havailable⟩ := h
  rw [computeFigures_eq, havailable, hreserved, hceiling, supply_of_law hsupply]

/-- A shed selection is about the ports, the blades and the draws. -/
theorem shedLaw_congr (hpau : u.pau = s.pau) (hdraw : Port.draw u.plu.inUse = Port.draw s.plu.inUse) (h : shedLaw u t) : shedLaw s t := by
  have hport : u.port = s.port := by
    unfold State.port
    rw [hpau]
  have hblade : u.blade = s.blade := by
    unfold State.blade
    rw [hpau]
  have hprojected : u.projected = s.projected := by
    unfold State.projected State.baseDraw State.sumAll
    rw [hpau, hdraw]
  have hcandidate : u.shedCandidate = s.shedCandidate := by
    unfold State.shedCandidate
    rw [hport, hblade]
  have hbefore : u.shedsBefore = s.shedsBefore := by
    unfold State.shedsBefore
    rw [hport]
  unfold shedLaw at h ⊢
  rw [hprojected, hpau, hport, hcandidate, hbefore, hdraw] at h
  exact h

/-- Values that differ in the reserve, the redundancy mode and the thermal base alone (R136). -/
theorem Tuned.sheds (h : Tuned n s v) (hn : n = { s.plu.inUse with redundancy := n.redundancy, reserve := n.reserve, thermalBase := n.thermalBase })
    (hgrant : v.grantDue = false) (hrestore : v.restoreDue = false) (hhold : s.pbu.hold = false) : shedLaw s (settle v).st := by
  have hcool : ¬thermalChanged s.plu.inUse n := by
    rw [hn]
    exact fun hc => hc.elim (· rfl) fun hc => hc.elim (· rfl) fun hc => hc.elim (· rfl) (· rfl)
  have hsame : n.defaultBase = s.plu.inUse.defaultBase := by rw [hn]
  have hdraw : Port.draw v.st.plu.inUse = Port.draw s.plu.inUse := by
    rw [h.plu]
    show Port.draw n = _
    rw [hn]
    rfl
  have hbudgeted := budgetStep_budgeted v (by rw [h.pbu]; exact hhold)
  rw [settle_of_notDue v hgrant hrestore]
  obtain ⟨hpau, -⟩ := h.cool hcool
  rw [using_same hsame] at hpau
  exact shedLaw_congr hpau hdraw hbudgeted.shed

/-! ### The restore process -/

/-- A budget in which nothing is to be shed. -/
theorem budgetStep_fits (hhold : w.st.pbu.hold = false) (hfits : w.st.projected ≤ (computeFigures w.st).available) :
    (budgetStep none w).st = w.st.setPbu { computeFigures w.st with powerCritical := false } := by
  unfold budgetStep computeBudget
  rw [if_neg (by rw [hhold]; exact Bool.false_ne_true)]
  dsimp only
  rw [if_neg Bool.false_ne_true]
  generalize hx : (if (w.setPbu (computeFigures w.st)).st.pbu.redundancyLost ≠ w.st.pbu.redundancyLost then _ else _ : Work) = x
  have hst : x.st = w.st.setPbu (computeFigures w.st) := by
    rw [← hx]
    split <;> rfl
  have hle : ¬x.st.pbu.available < x.st.projected := by
    rw [hst]
    exact Nat.not_lt.2 hfits
  rw [if_neg hle, setCritical_st, hst]
  rfl

/-- The restore process is about the ports, the blades, the links, the queues, the headroom and the blades that are HOT. -/
theorem restoreFollows_congr (hpau : u.pau = s.pau) (hblc : u.blc = s.blc) (hlu : u.lu = s.lu) (hplu : u.plu = s.plu)
    (havailable : u.pbu.available = s.pbu.available) (hwait : u.pbu.waitList = s.pbu.waitList) (htemps : u.ftu.temps = s.ftu.temps)
    (h : restoreFollows u t) : restoreFollows s t := by
  have hport : u.port = s.port := by
    unfold State.port
    rw [hpau]
  have hblade : u.blade = s.blade := by
    unfold State.blade
    rw [hpau]
  have hqueue : u.queue = s.queue := by
    unfold State.queue
    rw [hlu]
  have hhot : u.hot = s.hot := by
    unfold State.hot
    rw [htemps]
  have hbladeWait : u.bladeWait = s.bladeWait := by
    unfold State.bladeWait
    rw [hblade]
  have hheadroom : u.headroom = s.headroom := by
    unfold State.headroom State.projected State.baseDraw State.sumAll
    rw [hpau, hplu, havailable]
  have hrestorable : u.restorable = s.restorable := by
    unfold State.restorable
    rw [hblade, hhot, hport]
  have hmatch : u.waitsMatch = s.waitsMatch := by
    unfold State.waitsMatch
    rw [hqueue, hport, hwait]
  have hlicence : u.licenceFits = s.licenceFits := by
    unfold State.licenceFits State.commonFree State.commonUse State.commonPool State.unusedReserve State.effReserve State.slotUnits
    rw [hpau, hlu]
  unfold restoreFollows at h ⊢
  rw [hpau, hblc, hlu, hplu, hport, hqueue, hhot, hbladeWait, hheadroom, hrestorable, hmatch, hlicence, hwait] at h
  exact h

/-- A fall of D by the draws of the ports alone runs the restore process (R136, R142). -/
theorem Tuned.restores (h : Tuned n s v) (hn : n = { s.plu.inUse with speedDraw := n.speedDraw, xdDraw := n.xdDraw })
    (hgrant : v.grantDue = false) (hrestore : v.restoreDue = true) (hhold : s.pbu.hold = false) (hidle : s.pbu.holdoffAt = none)
    (hlaw : budgetLaw s) (hfits : (s.setPlu { s.plu with inUse := n }).projected ≤ s.pbu.available) :
    restoreFollows (s.setPlu { s.plu with inUse := n }) (settle v).st := by
  have hcool : ¬thermalChanged s.plu.inUse n := by
    rw [hn]
    exact fun hc => hc.elim (· rfl) fun hc => hc.elim (· rfl) fun hc => hc.elim (· rfl) (· rfl)
  have hsame : n.defaultBase = s.plu.inUse.defaultBase := by rw [hn]
  have hderate : s.plu.inUse.derate = n.derate := by rw [hn]
  obtain ⟨hpau, hblc, htemps⟩ := h.cool hcool
  rw [using_same hsame] at hpau
  have hpbu := h.pbu_same hderate
  have hplu := h.plu
  have hlu := h.lu
  have hpins : v.st.pins = s.pins := by rw [h.rest, using_rest]
  have hprojected : v.st.projected = (s.setPlu { s.plu with inUse := n }).projected := projected_congr hpau hplu
  have hvlaw : budgetLaw (v.st.setPlu s.plu) := budgetLaw_of_view (by unfold State.figuresView State.budgetView; rw [State.setPlu_pbu, hpbu]) hpins rfl hlaw
  have havailable : (computeFigures v.st).available = s.pbu.available := by
    have hsupply : v.st.supplyOf = (v.st.setPlu s.plu).supplyOf := by
      unfold State.supplyOf
      rw [hplu, hn]
      rfl
    have hreserve : v.st.plu.inUse.reserve = s.plu.inUse.reserve ∧ v.st.plu.inUse.thermalBase = s.plu.inUse.thermalBase := by
      rw [hplu]
      show n.reserve = _ ∧ n.thermalBase = _
      rw [hn]
      exact ⟨rfl, rfl⟩
    have h1 := available_of_law hvlaw
    rw [computeFigures_eq] at h1 ⊢
    rw [State.setPlu_pbu, hpbu] at h1
    rw [hsupply, hreserve.1, hreserve.2, hpbu]
    exact h1
  have hstep := budgetStep_fits (w := v) (by rw [hpbu]; exact hhold) (by rw [hprojected, havailable]; exact hfits)
  have hdue := sameDue_budgetStep v none
  have hfollows := restoreProcess_follows (budgetStep none v)
  have hholdoff : (computeFigures v.st).holdoffAt = none := by
    rw [computeFigures_eq]
    rw [computeFigures_eq] at havailable
    dsimp only at havailable ⊢
    rw [havailable, hpbu, if_neg (Nat.lt_irrefl _), hidle]
  have hfree : (budgetStep none v).st.pbu.hold = false ∧ (budgetStep none v).st.pbu.holdoffAt = none := by
    rw [hstep]
    exact ⟨by rw [State.setPbu_pbu, computeFigures_eq, hpbu]; exact hhold, hholdoff⟩
  have hsettle : (settle v).st = (restoreProcess (budgetStep none v)).st := by
    unfold settle
    generalize budgetStep none v = x at hdue hfree ⊢
    have hnone : grantIfDue x = x := if_neg (by rw [hdue.1, hgrant]; exact Bool.false_ne_true)
    rw [hnone]
    unfold restoreIfDue restoreDueNow
    rw [if_pos (hdue.2.trans hrestore), hfree.1, hfree.2]
    rfl
  rw [hsettle]
  refine restoreFollows_congr ?_ ?_ ?_ ?_ ?_ ?_ ?_ hfollows
  all_goals rw [hstep]
  · exact hpau
  · exact hblc
  · exact hlu
  · exact hplu
  · exact havailable
  · rw [State.setPbu_pbu, computeFigures_eq, hpbu]
    rfl
  · exact htemps

/-! ### The grant round -/

/-- Changed weights start a grant round, which leaves no head that it could grant (R109). -/
theorem Tuned.grants (h : Tuned n s v) (hcool : ¬thermalChanged s.plu.inUse n) (hmatch : s.waitsMatch) (hgrant : v.grantDue = true)
    (hrestore : v.restoreDue = false) : roundEnded (settle v).st := by
  obtain ⟨hlu, -⟩ := budgetStep_lu v
  have hqueue : ∀ b, (budgetStep none v).st.queue b = s.queue b := fun b => by
    unfold State.queue
    rw [hlu, h.lu]
  have hwaits : (budgetStep none v).st.licenceWaits := fun b => by
    obtain ⟨hstates, hnodup⟩ := hmatch.1 b
    rw [hqueue]
    refine ⟨fun e he => ?_, hnodup⟩
    have hstate := hstates e he
    rw [budgetStep_port v _ (by rw [h.port hcool]; unfold Port.sheddable; rw [hstate]; rfl), h.port hcool]
    exact hstate
  rw [settle_round hgrant hrestore hwaits]
  exact roundFrom_ended _ _ (Nat.lt_succ_self _)

end Sys2Proof.Machine
end

section
/-! PROOFS. What a change of the tunables in use sets off in the FTU and the EVU, and all of it together. -/

set_option Elab.async false

namespace Sys2Proof.Machine

variable {r s t u : State} {w v : Work} {b : Slot} {o n : Tunables} {p q : PortRef} {x : BladeTemp}

/-! ### The thermal records -/

/-- A fresh temperature is computed afresh, its changed breakpoints without their latches (R153, R154, R156). -/
theorem retuned_fresh (h : x.fresh = true) (o n : Tunables) :
    (x.retuned o n).fresh = true ∧ (x.retuned o n).input = max (x.hotspot.getD 0) (x.inlet.getD 0 + (n.inletOffset : Int)) ∧
    thermalLaw x.thermal (x.retuned o n).input n.warn n.crit (x.retuned o n).thermal ∧
    (∀ i, (x.retuned o n).latches.get i = true ↔ (n.curve.get i).temp ≤ (x.retuned o n).input ∨ (x.latches.get i = true ∧ x.stale.get i = false ∧
      n.curve.get i = o.curve.get i ∧ (n.curve.get i).temp - 2 ≤ (x.retuned o n).input)) ∧
    (x.retuned o n).demand = demandOf n.curve (x.retuned o n).latches := by
  generalize hstale : Vector.mapIx x.stale (fun i st => st || (changedBreakpoints o.curve n.curve).get i) = stale
  obtain ⟨-, hlatch, -⟩ := compute_left { x with stale := stale, inlet := some (x.inlet.getD 0), hotspot := some (x.hotspot.getD 0) }
    (x.inlet.getD 0) (x.hotspot.getD 0) n rfl rfl
  have heq : x.retuned o n = { ({ x with stale := stale } : BladeTemp).compute n with
      thermal := thermalNext x.thermal (({ x with stale := stale } : BladeTemp).compute n).input n.warn n.crit } := by
    unfold BladeTemp.retuned
    dsimp only
    rw [if_pos h, hstale]
  have hold : ∀ i, stale.get i = false ↔ x.stale.get i = false ∧ n.curve.get i = o.curve.get i := fun i => by
    rw [← hstale, Vector.get_mapIx, Bool.or_eq_false_iff]
    unfold changedBreakpoints
    rw [Vector.get_mapIx, decide_eq_false_iff_not, not_not]
    exact and_congr_right' eq_comm
  rw [heq]
  refine ⟨h, rfl, thermalLaw_next _ _ _ _, fun i => (hlatch i).trans (or_congr_right (and_congr_right' ?_)), rfl⟩
  exact (and_congr_left' (hold i)).trans and_assoc

theorem retuned_cold (h : x.fresh = false) (o n : Tunables) : x.retuned o n = { x with stale := (x.retuned o n).stale } := by
  unfold BladeTemp.retuned
  dsimp only
  rw [if_neg (by rw [h]; exact Bool.false_ne_true)]

theorem settle_temps (v : Work) : (settle v).st.ftu.temps = v.st.ftu.temps := by rw [(settle_settled v).ftu]

theorem Tuned.temperature (h : Tuned n s v) (hwarm : thermalChanged s.plu.inUse n) (hfresh : (s.ftu.temps.get b).fresh = true) :
    temperatureFollows s (settle v).st b ((s.ftu.temps.get b).inlet.getD 0) ((s.ftu.temps.get b).hotspot.getD 0) n := by
  obtain ⟨hisfresh, hinput, hthermal, hlatch, hdemand⟩ := retuned_fresh hfresh s.plu.inUse n
  unfold temperatureFollows
  dsimp only
  rw [settle_temps v, h.warmed hwarm b]
  have hspec := demandOf_spec n.curve ((s.ftu.temps.get b).retuned s.plu.inUse n).latches
  rw [← hdemand] at hspec
  exact ⟨hisfresh, hinput, hthermal, hlatch, hspec⟩

theorem cool_of_same (hcurve : n.curve = o.curve) (hwarn : n.warn = o.warn) (hcrit : n.crit = o.crit) (hoffset : n.inletOffset = o.inletOffset) :
    ¬thermalChanged o n :=
  fun h => h.elim (· hcurve.symm) fun h => h.elim (· hwarn.symm) fun h => h.elim (· hcrit.symm) (· hoffset.symm)

theorem Tuned.temp_same (h : Tuned n s v) (hcool : ¬thermalChanged s.plu.inUse n) : (settle v).st.ftu.temps = s.ftu.temps :=
  (settle_temps v).trans (h.cool hcool).2.2

theorem Tuned.temp_cold (h : Tuned n s v) (hfresh : (s.ftu.temps.get b).fresh = false) :
    (settle v).st.ftu.temps.get b = { s.ftu.temps.get b with stale := ((settle v).st.ftu.temps.get b).stale } := by
  by_cases hwarm : thermalChanged s.plu.inUse n
  · rw [settle_temps v, h.warmed hwarm b]
    exact retuned_cold hfresh _ _
  · rw [h.temp_same hwarm]

/-! ### The ports of a blade that enters HOT -/

/-- Entry to HOT is about the ports that are in use or held. -/
theorem heatFollows_of_moved (hthermal : (s.ftu.temps.get b).thermal ≠ .hot → (t.ftu.temps.get b).thermal = .hot → ∀ i,
    ((s.port ⟨b, i⟩).state = .online ∨ (s.port ⟨b, i⟩).state = .goingUp ∨ (s.port ⟨b, i⟩).state = .goingDown ∨ (s.port ⟨b, i⟩).state = .shed) →
    t.port ⟨b, i⟩ = (s.port ⟨b, i⟩).heated) : heatFollows s t b := by
  intro hwas hnow i
  have hport := hthermal hwas hnow i
  refine ⟨fun h => ?_, fun h => ?_, fun h hcause => ?_⟩
  · rw [hport (.inl h), heated_online h]
    exact ⟨rfl, rfl⟩
  · rw [hport (.inr (.inl h)), heated_goingUp h]
    exact ⟨h, rfl⟩
  · rw [hport (.inr (.inr h)), heated_held h, if_pos hcause]
    exact ⟨rfl, rfl⟩

/-- A port of a blade that has entered HOT: neither the shed selection nor the restore process moves it (R98, R143). -/
theorem Tuned.heats (h : Tuned n s v) (hmatch : s.waitsMatch) (hwarm : thermalChanged s.plu.inUse n) : heatFollows s (settle v).st b := by
  refine heatFollows_of_moved fun hwas hnow i hstate => ?_
  rw [settle_temps v] at hnow
  have hport := (h.ports ⟨b, i⟩).1 ⟨hwarm, hwas, by rw [← h.warmed hwarm b]; exact hnow⟩
  have hhot : v.st.hot b = true := decide_eq_true hnow
  have hidle : v.st.idlePort ⟨b, i⟩ := idlePort_congr h.lu (by rw [h.pbu])
    (idlePort_of_waitsMatch hmatch (by rintro hs; simp [hs] at hstate) (by rintro hs; simp [hs] at hstate))
  rw [settle_stands hidle (by rw [hport]; exact heated_sheddable hstate) (fun _ => hhot), hport]

/-! ### The blades, the supplies and the fans -/

theorem Tuned.blade (h : Tuned n s v) (hstate : (s.blade b).state ≠ .waitPower) : (settle v).st.blade b = (s.using n).blade b := by
  have husing : ((s.using n).blade b).state = (s.blade b).state := by
    rw [using_blade]
    split <;> rfl
  have hv : v.st.blade b = (s.using n).blade b := h.settled.blade b (by rw [← husing] at hstate; exact hstate)
  rw [(settle_settled v).blade b (by rw [hv, husing]; exact hstate), hv]

theorem Tuned.fans_settled (h : Tuned n s v) (hderate : s.plu.inUse.derate ≠ n.derate) : (settle v).st.fansFollow := by
  have hs := settle_settled v
  exact fansFollow_congr hs.ftu hs.plu hs.derate (h.fans hderate)

theorem Tuned.target (h : Tuned n s v) (z : FanZone) : ((settle v).st.ftu.zones.get z).target = (settle v).st.targetDuty z := by
  rw [(settle_settled v).ftu, h.targets, targetDuty_of_dutyView (dutyView_settle v)]

/-! ### All of it -/

theorem committed_using (hbase : n.defaultBase = s.plu.inUse.defaultBase) (hdraw : Port.draw n = Port.draw s.plu.inUse) :
    (s.using n).committed = s.committed := by
  rw [using_same hbase]
  show s.baseDraw + s.sumAll (Port.draw n) = s.baseDraw + s.sumAll (Port.draw s.plu.inUse)
  rw [hdraw]

/-- What a change of the values in use sets off (R171). -/
theorem Tuned.follows (h : Tuned n s v) (hdue : ¬thermalChanged s.plu.inUse n → (v.grantDue = true ↔ s.plu.inUse.weights ≠ n.weights) ∧
    (v.restoreDue = true ↔ (s.using n).committed < s.committed)) : tunablesFollow s (settle v).st n := by
  have hs := settle_settled v
  have hpbu := h.pbu
  have hevu : (settle v).st.evu = v.st.evu := hs.evu
  unfold tunablesFollow
  dsimp only
  refine ⟨fun hhold => h.figures hhold, fun hhold hn => ?_, fun hhold hidle hn hlaw hfall hfits => ?_, fun b hb => ?_, fun b hb hwait => ?_, ?_, ?_,
    fun b hfresh => ⟨fun hwarm => ?_, fun hcurve hwarn hcrit hoffset => ?_⟩, fun b hfresh => h.temp_cold hfresh,
    fun hderate => h.fans_settled (Ne.symm hderate), h.target, fun harmed hidle hchanged hcount => ?_, fun hnot => ?_,
    fun hweights hmatch hrise hbase hcurve hwarn hcrit hoffset => ?_, h.asks⟩
  · have hcool : ¬thermalChanged s.plu.inUse n := cool_of_same (by rw [hn]) (by rw [hn]) (by rw [hn]) (by rw [hn])
    obtain ⟨hgrant, hrestore⟩ := hdue hcool
    refine h.sheds hn (Bool.eq_false_iff.2 fun hg => hgrant.1 hg (by rw [hn])) (Bool.eq_false_iff.2 fun hr => ?_) hhold
    have hlt := hrestore.1 hr
    rw [committed_using (by rw [hn]) (by rw [hn]; rfl)] at hlt
    exact Nat.lt_irrefl _ hlt
  · have hcool : ¬thermalChanged s.plu.inUse n := cool_of_same (by rw [hn]) (by rw [hn]) (by rw [hn]) (by rw [hn])
    obtain ⟨hgrant, hrestore⟩ := hdue hcool
    refine h.restores hn (Bool.eq_false_iff.2 fun hg => hgrant.1 hg (by rw [hn])) (hrestore.2 ?_) hhold hidle hlaw hfits
    rw [using_same (by rw [hn])]
    exact hfall
  · rw [h.blade (by rw [hb]; exact nofun), using_blade, if_pos hb]
  · rw [h.blade hwait, using_blade, if_neg hb]
  · rw [hs.psus, hpbu]
  · rw [hs.hold, hpbu]
  · have hchanged : thermalChanged s.plu.inUse n := hwarm.imp Ne.symm fun g => g.imp Ne.symm fun g => g.imp Ne.symm Ne.symm
    exact ⟨h.temperature hchanged hfresh, fun hmatch => h.heats hmatch hchanged⟩
  · rw [h.temp_same (cool_of_same hcurve hwarn hcrit hoffset)]
  · rw [hevu, h.evu, if_pos ⟨Ne.symm hchanged, decide_eq_true harmed, hidle, hcount⟩]
    exact ⟨rfl, rfl⟩
  · rw [hevu, h.evu, if_neg fun g => hnot ⟨of_decide_eq_true g.2.1, g.2.2.1, Ne.symm g.1, g.2.2.2⟩]
    exact ⟨rfl, rfl⟩
  · have hcool := cool_of_same hcurve hwarn hcrit hoffset
    obtain ⟨hgrant, hrestore⟩ := hdue hcool
    refine h.grants hcool hmatch (hgrant.2 (Ne.symm hweights)) (Bool.eq_false_iff.2 fun hr => ?_)
    have hlt := hrestore.1 hr
    rw [using_same hbase] at hlt
    exact absurd hrise (Nat.not_le.2 hlt)

/-- A change of the values in use, where neither a grant round nor the restore process is due before it. -/
theorem changeTunables_follows (hw : w.st = s) (hchanged : n ≠ s.plu.inUse) (hgrant : w.grantDue = false) (hrestore : w.restoreDue = false) :
    tunablesFollow s (changeTunables n w).st n := by
  subst hw
  obtain ⟨htuned, hdue⟩ := tuned_left n w
  rw [changeTunables_eq hchanged]
  refine htuned.follows fun hcool => ?_
  have hboth := hdue hcool
  rw [hgrant, hrestore] at hboth
  exact ⟨hboth.1.trans (or_iff_left Bool.false_ne_true), hboth.2.trans (or_iff_left Bool.false_ne_true)⟩

end Sys2Proof.Machine
end

section
/-! PROOFS. What the bytes of a WRITE that enter the PLU's copy set off, seen from before and behind the WRITE. -/

set_option Elab.async false

namespace Sys2Proof.Machine

variable {r s t u c v : State} {w : Work} {n : Tunables}

/-- What follows a change of the values in use is about neither the table memory path nor the zone images nor the copy, and of the
EVU about the attention state alone. -/
theorem tunablesFollow_congr
    (hs : c = { s with tmc := c.tmc, tbp := c.tbp, swq := c.swq, ziu := c.ziu, plu := { s.plu with copy := c.plu.copy } })
    (ht : t = { v with tmc := t.tmc, swq := t.swq, ziu := t.ziu, evu := t.evu }) (hasserted : t.evu.asserted = v.evu.asserted)
    (hcoalesce : t.evu.coalesceAt = v.evu.coalesceAt) (h : tunablesFollow c v n) : tunablesFollow s t n := by
  generalize c.tmc = x1, c.tbp = x2, c.swq = x3, c.ziu = x4, c.plu.copy = x5 at hs
  generalize t.tmc = y1, t.swq = y3, t.ziu = y4 at ht
  subst hs
  rw [ht]
  rw [ht] at hasserted hcoalesce
  generalize t.evu = e at hasserted hcoalesce ⊢
  unfold tunablesFollow at h ⊢
  dsimp only at h ⊢
  rw [hasserted, hcoalesce]
  exact h

/-- What the bytes of a WRITE that enter the PLU's copy leave (R168, R171): with the same values in use nothing but the copy moves. -/
structure CopyEntered (copy : Memory) (s t : State) : Prop where
  tmc : t.tmc = s.tmc
  tbp : t.tbp = s.tbp
  ziu : t.ziu = s.ziu
  plu : t.plu = { s.plu with copy := copy, inUse := Tunables.ofCopy copy }
  same : Tunables.ofCopy copy = s.plu.inUse → t = { s with plu := t.plu }
  follows : Tunables.ofCopy copy ≠ s.plu.inUse → tunablesFollow (s.setPlu { s.plu with copy := copy }) t (Tunables.ofCopy copy)

theorem enterCopy_beyond {addr : Nat} (h : 2048 ≤ addr) (w : Work) (masks : List (List (Option Byte))) : enterCopy w addr masks = w :=
  if_neg (Nat.not_lt.2 h)

theorem changeTunables_units (n : Tunables) (w : Work) : (changeTunables n w).st.tmc = w.st.tmc ∧ (changeTunables n w).st.tbp = w.st.tbp ∧
    (changeTunables n w).st.ziu = w.st.ziu ∧ (changeTunables n w).st.plu = { w.st.plu with inUse := n } := by
  by_cases h : n = w.st.plu.inUse
  · have hnone : changeTunables n w = w := if_pos h
    rw [hnone, h]
    exact ⟨rfl, rfl, rfl, rfl⟩
  · obtain ⟨htuned, -⟩ := tuned_left n w
    rw [changeTunables_eq h]
    have hs := settle_settled (tuned n w)
    have hunits : (tuned n w).st.tmc = w.st.tmc ∧ (tuned n w).st.tbp = w.st.tbp ∧ (tuned n w).st.ziu = w.st.ziu := by
      rw [htuned.rest, using_rest]
      exact ⟨rfl, rfl, rfl⟩
    exact ⟨hs.tmc.trans hunits.1, hs.tbp.trans hunits.2.1, hs.ziu.trans hunits.2.2, hs.plu.trans htuned.plu⟩

theorem enterCopy_left {addr : Nat} (h : addr < 2048) (hw : w.st = s) (hgrant : w.grantDue = false) (hrestore : w.restoreDue = false)
    (masks : List (List (Option Byte))) : CopyEntered (s.plu.copy.writeMasked addr masks.flatten) s (enterCopy w addr masks).st := by
  subst hw
  have hput : enterCopy w addr masks = changeTunables (Tunables.ofCopy (w.st.plu.copy.writeMasked addr masks.flatten))
      (w.map (fun s => s.setPlu { s.plu with copy := w.st.plu.copy.writeMasked addr masks.flatten })) := if_pos h
  rw [hput]
  generalize w.st.plu.copy.writeMasked addr masks.flatten = copy
  generalize hw1 : (w.map fun s => s.setPlu { s.plu with copy := copy }) = w1
  have hst : w1.st = w.st.setPlu { w.st.plu with copy := copy } := by rw [← hw1]; rfl
  have hdue : w1.grantDue = false ∧ w1.restoreDue = false := by rw [← hw1]; exact ⟨hgrant, hrestore⟩
  obtain ⟨htmc, htbp, hziu, hplu⟩ := changeTunables_units (Tunables.ofCopy copy) w1
  rw [hst] at htmc htbp hziu hplu
  refine ⟨htmc, htbp, hziu, hplu, fun hsame => ?_, fun hchanged => changeTunables_follows hst hchanged hdue.1 hdue.2⟩
  have hnone : changeTunables (Tunables.ofCopy copy) w1 = w1 := if_pos (by rw [hst]; exact hsame)
  rw [hnone, hst]
  rfl

/-! ### The WRITE as a whole -/

section Written

variable {tag : BusTag} {addr len : Nat} {lines : List WriteLine}

theorem LinesWritten.units (h : LinesWritten tag lines s t) (htmc : u.tmc = t.tmc) (htbp : u.tbp = t.tbp) (hziu : u.ziu = t.ziu) :
    LinesWritten tag lines s u := by
  obtain ⟨hmem, hmarks, hjobs, hasked, hepoch, hswap, hwrites, hline, hended, hwords⟩ := h
  unfold State.asked at hasked
  rw [← htmc, ← hziu, ← htbp] at *
  exact ⟨hmem, hmarks, hjobs, hasked, hepoch, hswap, hwrites, hline, hended, hwords⟩

/-- The pass that goes on behind a WRITE leaves what the WRITE has done. -/
theorem LinesWritten.advanced (h : LinesWritten tag lines s w.st) : LinesWritten tag lines s (resyncAdvance w).st := by
  have hmoved := zoneMoved_resyncAdvance w
  obtain ⟨hline, hstays⟩ := resyncAdvance_zone w
  have htbp : (resyncAdvance w).st.tbp = w.st.tbp := by rw [hmoved.rest]
  refine ⟨hmoved.mem.trans h.mem, hmoved.marks.trans h.marks, hmoved.jobs.trans h.jobs,
    fun i l hl => hmoved.asked _ (writeAccess_isBusWrite _ _ _ _) (h.asked i l hl), hmoved.epoch.trans h.epoch, hmoved.swap.trans h.swap,
    hmoved.stageWrites.trans h.stageWrites, fun hwf k => (hline k).trans (h.line hwf k), fun k rest hzone hbanks => ?_, htbp.trans h.tbp⟩
  have hended := h.ended k rest hzone hbanks
  rw [hstays (by rw [hended.1]; exact nofun)]
  exact hended

theorem LinesWritten.published (h : LinesWritten tag lines s w.st) (o : State) : LinesWritten tag lines s (publish o w) := by
  have hkept := publish_tmcKept o w
  refine ⟨hkept.mem.trans h.mem, hkept.marks.trans h.marks, hkept.jobs.trans h.jobs, fun i l hl => (h.asked i l hl).publish ?_ o,
    h.epoch, h.swap, h.stageWrites, h.line, h.ended, h.tbp⟩
  obtain ⟨job, j, bytes, merge, hkind⟩ := writeAccess_isBusWrite s s.tmc.nextJob i l
  rw [hkind]
  rfl

/-- The units that take no part in the table memory path are as `x` has them. -/
theorem carried_frame (o : State) (w : Work) : publish o (resyncAdvance w) = { w.st with
    tmc := (publish o (resyncAdvance w)).tmc, swq := (publish o (resyncAdvance w)).swq, ziu := (publish o (resyncAdvance w)).ziu
    evu := (publish o (resyncAdvance w)).evu } := by
  have hframe := publish_frame o (resyncAdvance w) (zoneMoved_resyncAdvance w).rest
  exact hframe

theorem carried_attention (o : State) (w : Work) : (publish o (resyncAdvance w)).evu.asserted = w.st.evu.asserted ∧
    (publish o (resyncAdvance w)).evu.coalesceAt = w.st.evu.coalesceAt := by
  obtain ⟨-, -, -, -, hasserted, hcoalesce⟩ := publish_backgroundKept o (resyncAdvance w)
  have hevu : (resyncAdvance w).st.evu = w.st.evu := by rw [(zoneMoved_resyncAdvance w).rest]
  rw [hevu] at hasserted hcoalesce
  exact ⟨hasserted, hcoalesce⟩

/-- What a WRITE that is carried out leaves. -/
structure WriteLeft (tag : BusTag) (addr : Nat) (lines : List WriteLine) (s t : State) : Prop where
  written : LinesWritten tag lines s t
  plu : addr < 2048 → t.plu = { s.plu with
    copy := s.plu.copy.writeMasked addr (lines.map (·.mask)).flatten, inUse := Tunables.ofCopy (s.plu.copy.writeMasked addr (lines.map (·.mask)).flatten) }
  same : addr < 2048 → t.plu.inUse = s.plu.inUse → t = { s with tmc := t.tmc, tbp := t.tbp, swq := t.swq, ziu := t.ziu, evu := t.evu, plu := t.plu }
  follows : addr < 2048 → t.plu.inUse ≠ s.plu.inUse → tunablesFollow s t t.plu.inUse
  beyond : 2048 ≤ addr → t = { s with tmc := t.tmc, tbp := t.tbp, swq := t.swq, ziu := t.ziu, evu := t.evu }

theorem carryWrite_left (hw : w.st = s) (hgrant : w.grantDue = false) (hrestore : w.restoreDue = false) (o : State)
    (hhead : ∃ l more, lines = l :: more ∧ l.addr = addr) : WriteLeft tag addr lines s (publish o (resyncAdvance (carryWrite w tag lines))) := by
  obtain ⟨hwritten, hdue, hrest⟩ := wroteLines_left hw tag lines
  have hcarry : carryWrite w tag lines = enterCopy (wroteLines w tag lines) addr (lines.map (·.mask)) := by
    obtain ⟨l, more, rfl, rfl⟩ := hhead
    exact carryWrite_cons w tag l more
  rw [hcarry]
  generalize wroteLines w tag lines = m at hwritten hdue hrest
  have hplu : m.st.plu = s.plu := by rw [hrest]
  have hgrant : m.grantDue = false := hdue.1.trans hgrant
  have hrestore : m.restoreDue = false := hdue.2.trans hrestore
  generalize hmasks : lines.map (·.mask) = masks
  generalize hx : enterCopy m addr masks = x
  have hframe := carried_frame o x
  obtain ⟨hasserted, hcoalesce⟩ := carried_attention o x
  have htmc := fun h : LinesWritten tag lines s x.st => h.advanced.published o
  generalize publish o (resyncAdvance x) = t at hframe hasserted hcoalesce htmc ⊢
  have htplu : t.plu = x.st.plu := by rw [hframe]
  have httbp : t.tbp = x.st.tbp := by rw [hframe]
  by_cases haddr : addr < 2048
  · have hentered := enterCopy_left haddr rfl hgrant hrestore masks
    rw [hx, hplu] at hentered
    generalize hcopy : s.plu.copy.writeMasked addr masks.flatten = copy at hentered
    have hput : t.plu = { s.plu with copy := copy, inUse := Tunables.ofCopy copy } := htplu.trans (hentered.plu.trans (by rw [hplu]))
    have huse : t.plu.inUse = Tunables.ofCopy copy := by rw [hput]
    refine ⟨htmc (hwritten.units hentered.tmc hentered.tbp hentered.ziu), fun _ => by rw [hmasks, hcopy]; exact hput, fun _ hsame => ?_, fun _ hchanged => ?_,
      fun h => absurd haddr (Nat.not_lt.2 h)⟩
    · have hst := hentered.same (by rw [hplu, ← huse]; exact hsame)
      rw [hrest] at hst
      rw [httbp, htplu]
      generalize t.tmc = a, t.swq = b, t.ziu = c, t.evu = d, x.st.plu = e at hframe hst ⊢
      rw [hframe, hst]
    · rw [huse]
      refine tunablesFollow_congr (c := m.st.setPlu { s.plu with copy := copy }) ?_ hframe hasserted hcoalesce
        (hplu ▸ hentered.follows (by rw [hplu, ← huse]; exact hchanged))
      generalize m.st.tmc = a, m.st.swq = b, m.st.ziu = c, m.st.tbp = d at hrest
      rw [hrest]
      rfl
  · have hx' : m = x := (enterCopy_beyond (Nat.not_lt.1 haddr) m masks).symm.trans hx
    subst hx'
    refine ⟨htmc hwritten, fun h => absurd h haddr, fun h => absurd h haddr, fun h => absurd h haddr, fun _ => ?_⟩
    rw [httbp]
    generalize t.tmc = a, t.swq = b, t.ziu = c, t.evu = d at hframe ⊢
    rw [hframe, hrest]

end Written

end Sys2Proof.Machine
end

section
/-! PROOFS. A WRITE that Table 2.2-1 has carried out. -/

set_option Elab.async false

namespace Sys2Proof.Machine

variable {r s t u : State} {w : Work}

section Carried

variable {tag : BusTag} {addr len : Nat} {data : List Byte} {enables : List Bool} {lines : List WriteLine}

/-- A WRITE of the lengths of R31 has a first line, at its own address. -/
theorem writeLines_head (hform : ¬formFails s addr len) (hlines : lines = writeLines s (lineAddrs addr len) data enables) :
    ∃ l more, lines = l :: more ∧ l.addr = addr := by
  have hpos : 0 < len := by
    unfold formFails at hform
    omega
  have hfirst := writeLines_getElem s addr len data enables hpos
  rw [← hlines] at hfirst
  obtain ⟨hi, -⟩ := List.getElem?_eq_some_iff.1 hfirst
  cases lines with
  | nil => exact absurd hi (Nat.not_lt_zero _)
  | cons l more => exact ⟨l, more, rfl, by rw [Option.some.inj hfirst]; exact Nat.add_zero addr⟩

/-- A WRITE that is carried out: what its tag, its words and its lines find (R8, R9, R29, R38). -/
theorem LinesWritten.of_accepted (h : LinesWritten tag lines (acceptTag s tag true addr len) t) :
    t.tagSlot tag = ⟨some ⟨true, addr, len⟩, none⟩ ∧ (∀ u, u ≠ tag → t.tagSlot u = s.tagSlot u) ∧
    t.tbp.handed = s.tbp.handed ++ lines.flatMap (completedWords s) ∧
    t.tbp = { (lines.flatMap (completedWords s)).foldl (fun b h => b.setShadow h.word h.value) s.tbp with
      slots := t.tbp.slots, handed := t.tbp.handed } ∧
    ∀ (i : Nat) (l : WriteLine), lines[i]? = some l →
      (stageLine s l.addr = none → t.asked ⟨.busWrite s.tmc.nextJob i l.mask none, readLine s l.addr⟩) ∧
      (∀ k lay, stageLine s l.addr = some k → s.plu.layout = some lay → t.asked ⟨.busWrite s.tmc.nextJob i l.mask
        (if s.mergesFirst l then some (lay.bankLine s.ziu.liveBank k / 64) else none), lay.bankLine s.ziu.stageBank k / 64⟩) := by
  have htbp := h.tbp
  have hwords : completedWords (acceptTag s tag true addr len) = completedWords s := rfl
  rw [hwords] at htbp
  generalize lines.flatMap (completedWords s) = words at htbp ⊢
  have hslots : t.tbp.slots = (acceptTag s tag true addr len).tbp.slots := by
    rw [htbp]
    exact foldl_setShadow_kept _ _
  have hslot : ∀ u, t.tagSlot u = if u = tag then ⟨some ⟨true, addr, len⟩, none⟩ else s.tagSlot u := fun u => by
    unfold State.tagSlot
    rw [hslots]
    exact tagSlot_setTag s tag u _
  refine ⟨(hslot tag).trans (if_pos rfl), fun u hu => (hslot u).trans (if_neg hu), by rw [htbp]; rfl, ?_, fun i l hl => ⟨fun hnone => ?_, fun k lay hk hlay => ?_⟩⟩
  · have hfold : words.foldl (fun b h => b.setShadow h.word h.value) (acceptTag s tag true addr len).tbp =
        { words.foldl (fun b h => b.setShadow h.word h.value) s.tbp with
          slots := (acceptTag s tag true addr len).tbp.slots, handed := s.tbp.handed } := foldl_setShadow_handed words s.tbp _ _
    rw [htbp, hfold]
  · have hasked := h.asked i l hl
    rw [writeAccess_memory (s := acceptTag s tag true addr len) _ _ hnone] at hasked
    exact hasked
  · have hasked := h.asked i l hl
    rw [writeAccess_bank (s := acceptTag s tag true addr len) _ _ hk hlay] at hasked
    exact hasked

/-- A WRITE waits where a copy of one of its lines has been presented (R23). -/
theorem takeWriteRequest_free (hw : w.st = acceptTag s tag true addr len) (hlines : lines = writeLines s (lineAddrs addr len) data enables)
    (hcopy : ∀ k ∈ bankLines s lines, copyPresented s k = false) :
    takeWriteRequest w tag addr len data enables = resyncAdvance (carryWrite w tag lines) := by
  unfold takeWriteRequest
  dsimp only
  rw [hw]
  have hsame : writeLines (acceptTag s tag true addr len) (lineAddrs addr len) data enables = lines := hlines.symm
  rw [hsame, if_neg]
  rw [List.any_eq_true]
  rintro ⟨k, hk, hpresented⟩
  exact Bool.false_ne_true ((hcopy k hk).symm.trans hpresented)

theorem takeWriteRequest_held (hw : w.st = acceptTag s tag true addr len) (hlines : lines = writeLines s (lineAddrs addr len) data enables)
    (hcopy : ∃ k ∈ bankLines s lines, copyPresented s k = true) : (takeWriteRequest w tag addr len data enables).st =
      (acceptTag s tag true addr len).setTbp { (acceptTag s tag true addr len).tbp with
        heldWrites := s.tbp.heldWrites ++ [⟨tag, addr, len, data, enables⟩] } := by
  unfold takeWriteRequest
  dsimp only
  rw [hw]
  have hsame : writeLines (acceptTag s tag true addr len) (lineAddrs addr len) data enables = lines := hlines.symm
  have hany : (bankLines (acceptTag s tag true addr len) lines).any (copyPresented (acceptTag s tag true addr len)) = true := List.any_eq_true.2 hcopy
  rw [hsame, if_pos hany]
  show w.st.setTbp _ = _
  rw [hw]
  rfl

end Carried

/-- Settles O17: the lines, the words and the bank lines by `LinesWritten`, and what bytes in the policy block set off by
`Tuned.follows`. -/
theorem carriedWriteStagesItsLines : Obligations.CarriedWriteStagesItsLines := by
  refine ⟨fun tag addr len data enables s lines hready hfree hform hlines hclass hwf hcopy => ?_,
    fun tag addr len data enables s lines hready hfree hform hlines hclass hcopy => ?_,
    fun addr len data enables s hdata henables hcarries => ⟨classify_tableCarries hdata henables hcarries, fun i j hi hj => ?_⟩⟩
  · show ∃ t, execWrite tag addr len data enables s = .next t ∧ _
    refine answered hready ?_
    rw [hlines] at hclass
    rw [(writeRequest_free hfree addr.toNat len.toNat data enables hclass.symm).2.2 hform rfl]
    generalize hw : (Work.start s).map (fun s => acceptTag s tag true addr.toNat len.toNat) = w
    have hst : w.st = acceptTag s tag true addr.toNat len.toNat := by rw [← hw]; rfl
    have hdue : w.grantDue = false ∧ w.restoreDue = false := by rw [← hw]; exact ⟨rfl, rfl⟩
    rw [takeWriteRequest_free hst hlines hcopy]
    obtain ⟨hwritten, hplu, hsame, hfollows, hbeyond⟩ := carryWrite_left (tag := tag) hst hdue.1 hdue.2 s (writeLines_head hform hlines)
    generalize publish s (resyncAdvance (carryWrite w tag lines)) = t at hwritten hplu hsame hfollows hbeyond
    obtain ⟨htag, hothers, hhanded, htbp, hasked⟩ := hwritten.of_accepted
    exact ⟨htag, hwritten.line hwf, hhanded, htbp, hasked, hwritten.jobs, hwritten.stageWrites, hwritten.ended, hplu,
      fun ha hchanged => tunablesFollow_congr (c := acceptTag s tag true addr.toNat len.toNat) rfl rfl rfl rfl (hfollows ha hchanged), hsame, hothers, hwritten.epoch, hwritten.swap, fun a => by rw [hwritten.mem]; rfl,
      hwritten.marks, hbeyond⟩
  · show ∃ t, execWrite tag addr len data enables s = .next t ∧ _
    refine answered hready ?_
    rw [hlines] at hclass
    rw [(writeRequest_free hfree addr.toNat len.toNat data enables hclass.symm).2.2 hform rfl]
    generalize hw : (Work.start s).map (fun s => acceptTag s tag true addr.toNat len.toNat) = w
    have hst : w.st = acceptTag s tag true addr.toNat len.toNat := by rw [← hw]; rfl
    have hheld := takeWriteRequest_held hst hlines hcopy
    generalize takeWriteRequest w tag addr.toNat len.toNat data enables = v at hheld
    have hmoved : TmcMoved (s.setTbp v.st.tbp) v.st := by
      rw [hheld]
      exact ⟨rfl, rfl, rfl⟩
    have hslot : ∀ u, v.st.tagSlot u = if u = tag then ⟨some ⟨true, addr.toNat, len.toNat⟩, none⟩ else s.tagSlot u := fun u => by
      rw [hheld]
      exact tagSlot_setTag s tag u _
    refine ⟨(hslot tag).trans (if_pos rfl), fun u hu => (hslot u).trans (if_neg hu), ?_, (publish_tmcKept s v).jobs.trans ?_, hmoved.busFrame s⟩
    · rw [publish_tbp, hheld]
      rfl
    · rw [hheld]
      rfl
  · exact ⟨_, writeLines_getElem s addr len data enables hi, rfl, writtenByte s addr hdata henables hi hj⟩

end Sys2Proof.Machine
end
